-- ==== Sys2Proof/Word.lean ====
section
/-!
DEFINITION. The word types of the Ebcel-1 (02_number_formats.md R54, R55) and their plainest arithmetic.
-/
namespace Sys2Proof

/-- A general register, a control register or an instruction word: 64 bits. -/
abbrev Word := BitVec 64

/-- One byte of a memory. -/
abbrev Byte := BitVec 8

end Sys2Proof
end

