-- ==== Sys2Proof/Syntax.lean ====
section
/-!
DEFINITION. The instructions of the Ebcel-1 as data: one constructor for each row of spec/opcode_table.json.

A row that is an instruction word (03_encoding_and_assembly.md R85) carries the fields that its entry uses. The guard of
R86 is no part of it: a word's guard is evaluated before any other field is decoded. A row that is a step of another agent carries what that agent receives from outside the machine, and nothing else.
-/
namespace Sys2Proof

/-- The guard of R86: predicate p[`p`], negated when `neg`. -/
structure Guard where
  neg : Bool
  p : BitVec 3
deriving DecidableEq, Repr

/-- Rounding codes of R89. `dyn` takes the mode from KSTATUS.RM. -/
inductive Rnd where
  | rne | rtz | rup | rdn | sr | dyn
deriving DecidableEq, Repr

/-- Conditions of CMP (Table 3.4). -/
inductive Cond where
  | eq | ne | lt | le | gt | ge | ltu | leu | gtu | geu
deriving DecidableEq, Repr

/-- Conditions of FCMP (Table 3.4). -/
inductive FCond where
  | eq | ne | lt | le | gt | ge | un | or
deriving DecidableEq, Repr

/-- Conversion format codes of R90. -/
inductive CvtFmt where
  | fp32 | fp16 | bf16 | log6 | int4 | int8 | int16 | int32 | int64
deriving DecidableEq, Repr

/-- Plane and stream formats of the matrix slice (R208). -/
inductive MFmt where
  | fp32 | fp16 | bf16 | log6 | int4 | int8
deriving DecidableEq, Repr

/-- Drain formats of MDRAIN (R216). -/
inductive DFmt where
  | fp32 | fp16 | bf16 | log6 | int8 | int32
deriving DecidableEq, Repr

/-- Drain formats of IDRAIN (R235). -/
inductive NFmt where
  | int32 | int16 | int8
deriving DecidableEq, Repr

/-- Memory order (Table 3.5). -/
inductive Ord where
  | plain | acq | rel | ar
deriving DecidableEq, Repr

/-- Fence scope (Table 3.5). -/
inductive Scope where
  | str | til | clu | waf | dom
deriving DecidableEq, Repr

/-- The destination of MDRAIN or IDRAIN: a ring handle (DQ = 0) or a queue register (DQ = 1), R216, R235. -/
inductive Dest where
  | ring (h : BitVec 4)
  | queue (q : BitVec 5)
deriving DecidableEq, Repr

/-- The element count of a VRUN (Table 6.8): g[OPB] when NREG = 1, the immediate N16 when NREG = 0. -/
inductive RunLen where
  | reg (b : BitVec 6)
  | imm (n : BitVec 16)
deriving DecidableEq, Repr

/-- What VNWAIT waits for (R256): the block that g[OPA] names, or any block (ANY = 1). -/
inductive VnSel where
  | expected (a : BitVec 6)
  | any
deriving DecidableEq, Repr

/-- What a debug READ or WRITE names (R341): a strand register, a control register, a queue register, or a word of the element
that a target address of R104 names. -/
inductive DebugTarget where
  | g (n : BitVec 6)
  | p
  | pc
  | creg (index : BitVec 10)
  | queue (q : BitVec 5)
  | element (target : BitVec 32) (word : BitVec 32)
deriving DecidableEq, Repr

/-- A pending-shootdown range (R334); `whole` for a whole-context entry. -/
structure ShootRange where
  ctx : BitVec 16
  whole : Bool
  start : BitVec 56
  len : Nat
deriving DecidableEq, Repr

/-- What the host does on a PCIe link (R431, R432): a write or a read of a register by offset, or a posted write to memory, which reaches its
home by a later `land` of the link's oldest one. -/
inductive HostAct where
  | register (off : Nat) (value : Word)
  | read (off : Nat)
  | store (pa : Nat) (bytes : List Byte)
  | land
deriving DecidableEq, Repr

/-- A retired column (axis 0) or row (axis 1) of a band: the physical index in each die of the band (R448). -/
structure Retirement where
  axis : Nat
  band : Nat
  index : List Nat
deriving DecidableEq, Repr

/-- The peer that a link trains with (R420, R421): its node identity, and the sequence number of the next flit that it sends. -/
structure LinkPeer where
  id : BitVec 16
  seq : Nat
deriving DecidableEq, Repr

/-- The part of a link packet that follows its header (R424): the flits of its payload, and the CRC-32 that came with them. -/
structure LinkBody where
  payload : List (BitVec 8)
  crc : BitVec 32
deriving DecidableEq, Repr

/-- The routing table of a granted version (R428): its bytes, and the modules of the domain that it does not reach. -/
structure RouteTable where
  bytes : List (BitVec 8)
  far : List Nat
deriving DecidableEq, Repr

/-- A circuit that drains (R427): its lease, and whether the peer's final token has come. -/
structure CircuitEnd where
  lease : BitVec 16
  peerFinal : Bool
deriving DecidableEq, Repr

/-- A change of a port's colour split (R421): the host's own command with the peer's answer, or one that the peer's host has started, for a
direction that gains here, with this end's answer. -/
inductive SplitAct where
  | host (agreed : Bool)
  | peer (port : Nat) (toRx : Bool) (agreed : Bool)
deriving DecidableEq, Repr

/-- What boot receives from outside the device (Table 13.5): the module number that the board controller supplies, the fabric address, the
ordering code, the outcome of every RSA check, the digests of the measured objects, the copies of the defect map that module flash holds
where the device has not written them itself, what the map says, and the result of the self-test. Tiles are physical numbers; a
disabled column or row is die × 64 + index. -/
structure BootInput where
  moduleNumber : BitVec 8
  fabricAddr : BitVec 16
  domain : List Nat
  m184 : Bool
  rootKeyOk : Bool
  firmwareOk : Bool
  /-- the signatures of map copies A and B verify (R446) -/
  mapASigned : Bool
  mapBSigned : Bool
  /-- the contents of map copies A and B that something other than the device's last write has left in flash -/
  flashA : Option (List Byte)
  flashB : Option (List Byte)
  tokenOk : Bool
  /-- the signatures of the two copies of the field-retirement list verify (R448) -/
  listAOk : Bool
  listBOk : Bool
  romDigest : BitVec 256
  firmwareDigest : BitVec 256
  tokenDigest : BitVec 256
  listDigest : BitVec 256
  fusedMap : BitVec 256
  defects : List (Nat × Nat)
  offCols : List Nat
  offRows : List Nat
  selfTestFails : List Nat
deriving DecidableEq, Repr

/-- The rows of the opcode table: 257 instruction words of a strand, then 99 steps of the other agents of the wafer,
its links and its host (spec/opcode_table.json, spec/95_what_each_step_holds.md). -/
inductive Instr where
  /-- step FIRING_DISPATCH, R369. -/
  | firingDispatch (t : Nat)
  /-- step ENGINE_FIRING_COMMIT, R18. -/
  | engineFiringCommit (t : Nat) (kind : Nat)
  /-- step CHANNEL_TOKEN_ARRIVAL, R464. -/
  | channelTokenArrival (h : BitVec 32) (ch : Nat)
  /-- step FREE_SPACE_RETURN, R464. -/
  | freeSpaceReturn (h : BitVec 32) (ch : Nat)
  /-- step SEED_WINDOW_WRITE, R361. -/
  | seedWindowWrite (w0 : Word) (w1 : Word)
  /-- step SEED_DELIVERY, R362. -/
  | seedDelivery (h : BitVec 32)
  /-- step RESULT_PORT_POP, R364. -/
  | resultPortPop (h : BitVec 32) (ch : Nat)
  /-- step STREAM_PORT_PUSH, R409. -/
  | streamPortPush (h : BitVec 32) (n : Nat)
  /-- step COLLECT_PORT_POP, R409. -/
  | collectPortPop (h : BitVec 32) (n : Nat)
  /-- step SPINDLE_ENTRY_EXECUTE, R195. -/
  | spindleEntryExecute (t : Nat)
  /-- step MATRIX_ENTRY_EXECUTE, R203. -/
  | matrixEntryExecute (t : Nat)
  /-- step MACC_REEXECUTE, R218. -/
  | maccReexecute (t : Nat) (clean : Bool)
  /-- step QUARTET_JOIN, R220. -/
  | quartetJoin (t : Nat)
  /-- step INLAY_ENTRY_EXECUTE, R234. -/
  | inlayEntryExecute (t : Nat)
  /-- step NETWORK_QUEUE_ENTRY, R245. -/
  | networkQueueEntry (t : Nat)
  /-- step MESH_PACKET_HOP, R392. -/
  | meshPacketHop (t : Nat) (port : Nat) (first : Nat)
  /-- step ROUTER_COMBINE, R394. -/
  | routerCombine (t : Nat) (route : Nat)
  /-- step LINK_FLIT_RETRY, R385. -/
  | linkFlitRetry (t : Nat) (port : Nat) (clean : Bool)
  /-- step NTOK_ARRIVAL, R252. -/
  | ntokArrival (t : Nat)
  /-- step CHUNK_FIRE, R250. -/
  | chunkFire (t : Nat) (chunk : Nat)
  /-- step FACEPLATE_BLOCK_SEND, R400. -/
  | faceplateBlockSend (h : BitVec 32) (n : Nat)
  /-- step LIGHT_BLOCK_HEADER_ARRIVE, R254. -/
  | lightBlockHeaderArrive (c : Nat) (damage : BitVec 256)
  /-- step LIGHT_BLOCK_LANDED, R36. -/
  | lightBlockLanded (t : Nat) (slot : Nat) (damage : List (Nat × BitVec 8))
  /-- step RELEASE_TOKEN_ARRIVE, R401. -/
  | releaseTokenArrive (h : BitVec 32) (group : Nat)
  /-- step FACEPLATE_PATTERN_END, R366. -/
  | faceplatePatternEnd (h : BitVec 32) (n : Nat)
  /-- step PASS_BOUNDARY_SWITCH, R265. -/
  | passBoundarySwitch (h : BitVec 32) (w : Nat)
  /-- step BARRIER_PASS, R259. -/
  | barrierPass (h : BitVec 32) (b : Nat)
  /-- step GRADARM_ARRIVE, R270. -/
  | gradarmArrive (t : Nat)
  /-- step COPY_OPERATION, R273. -/
  | copyOperation (t : Nat)
  /-- step SPILL_TRANSFER, R160. -/
  | spillTransfer (t : Nat) (k : Fin 4)
  /-- step PAGE_WALK, R318. -/
  | pageWalk (t : Nat) (k : Fin 4) (va : BitVec 56) (write : Bool)
  /-- step FAULT_BUFFER_FLUSH, R329. -/
  | faultBufferFlush (c : Nat)
  /-- step FAULT_RECORD_RESEND, R329. -/
  | faultRecordResend (c : Nat) (tag : Nat)
  /-- step FAULT_QUEUE_WRITE, R433. -/
  | faultQueueWrite (c : Nat)
  /-- step PAGE_ANSWER, R331. -/
  | pageAnswer (w0 : Word) (w1 : Word)
  /-- step VICTIM_EVICT, R309. -/
  | victimEvict (ctx : BitVec 16)
  /-- step VICTIM_RECALL, R309. -/
  | victimRecall (ctx : BitVec 16) (va : BitVec 56)
  /-- step REGION_FREEZE, R338. -/
  | regionFreeze (h : BitVec 32)
  /-- step THAW_RESTORE, R340. -/
  | thawRestore (h : BitVec 32) (damage : List (Nat × BitVec 8))
  /-- step DEBUG_HALT, R342. -/
  | debugHalt (h : BitVec 32) (t : Nat) (k : Fin 4)
  /-- step DEBUG_RESUME, R341. -/
  | debugResume (h : BitVec 32) (t : Nat) (k : Fin 4)
  /-- step DEBUG_STEP, R342. -/
  | debugStep (h : BitVec 32) (t : Nat) (k : Fin 4)
  /-- step DEBUG_READ, R341. -/
  | debugRead (h : BitVec 32) (t : Nat) (k : Fin 4) (what : DebugTarget)
  /-- step DEBUG_WRITE, R343. -/
  | debugWrite (h : BitVec 32) (t : Nat) (k : Fin 4) (what : DebugTarget) (value : Word)
  /-- step DEBUG_HEADREPLACE, R344. -/
  | debugHeadreplace (h : BitVec 32) (t : Nat) (k : Fin 4) (q : BitVec 5) (payload : Word) (scale : Bool) (exc : Bool)
  /-- step DEBUG_WATCHDOG, R341. -/
  | debugWatchdog (h : BitVec 32) (limit : BitVec 32)
  /-- step WATCHDOG_EXPIRE, R346. -/
  | watchdogExpire (t : Nat) (k : Fin 4)
  /-- step LAUNCH_RECORD, R347. -/
  | launchRecord (w7 : Word)
  /-- step END_RECORD, R351. -/
  | endRecord (w7 : Word)
  /-- step PLACEMENT_LOAD, R357. -/
  | placementLoad (h : BitVec 32)
  /-- step CONFIG_COMPLETE_WAVE, R358. -/
  | configCompleteWave (t : Nat)
  /-- step WAVE_ACKNOWLEDGE, R358. -/
  | waveAcknowledge (h : BitVec 32)
  /-- step REGION_END, R365. -/
  | regionEnd (h : BitVec 32)
  /-- step CHAINED_COMMIT, R367. -/
  | chainedCommit (h : BitVec 32)
  /-- step STASH_RELIEF, R374. -/
  | stashRelief (h : BitVec 32)
  /-- step VERSION_LAG, R375. -/
  | versionLag (h : BitVec 32)
  /-- step COLOUR_RETIRE, R422. -/
  | colourRetire (port : Nat) (colour : Nat)
  /-- step LINK_TRAIN, R423. -/
  | linkTrain (port : Nat) (peer : LinkPeer) (entries : List ShootRange)
  /-- step LINK_PACKET_RECEIVE, R429. -/
  | linkPacketReceive (port : Nat) (colour : Nat) (seq : Nat) (w0 : Word) (w1 : Word) (body : LinkBody)
  /-- step TOPO_GRANT, R428. -/
  | topoGrant (port : Nat) (v : BitVec 16) (table : RouteTable)
  /-- step TOPO_COMMIT, R428. -/
  | topoCommit (port : Nat) (v : BitVec 16)
  /-- step TOPO_DENY, R428. -/
  | topoDeny (port : Nat)
  /-- step TOPO_MESSAGE_TIMEOUT, R428. -/
  | topoMessageTimeout (port : Nat)
  /-- step SHOOT_ACK_TIMEOUT, R333. -/
  | shootAckTimeout (id : Nat) (m : Nat)
  /-- step SHOOT_ACKNOWLEDGE, R333. -/
  | shootAcknowledge (id : Nat) (m : Nat)
  /-- step LEASE_OPEN_TIMEOUT, R425. -/
  | leaseOpenTimeout (lease : BitVec 16)
  /-- step LEASE_EXPIRE, R427. -/
  | leaseExpire (lease : BitVec 16)
  /-- step CIRCUIT_CLOSE, R427. -/
  | circuitClose (circuit : CircuitEnd)
  /-- step CTX_CREATE, R434. -/
  | ctxCreate (w7 : Word)
  /-- step CTX_KILL, R332. -/
  | ctxKill (w7 : Word)
  /-- step CTX_SAVEAREA, R339. -/
  | ctxSavearea (w7 : Word)
  /-- step CTX_DEBUG, R341. -/
  | ctxDebug (w7 : Word)
  /-- step HOST_FREEZE, R337. -/
  | hostFreeze (w7 : Word)
  /-- step HOST_THAW, R340. -/
  | hostThaw (w7 : Word)
  /-- step PV_PLACE, R434. -/
  | pvPlace (w7 : Word)
  /-- step LEASE_OPEN, R425. -/
  | leaseOpen (w7 : Word)
  /-- step LEASE_RENEW, R426. -/
  | leaseRenew (w7 : Word)
  /-- step TOPO_REQUEST, R428. -/
  | topoRequest (w7 : Word)
  /-- step COLOUR_SPLIT, R421. -/
  | colourSplit (w7 : Word) (act : SplitAct)
  /-- step QUOTA_SET, R434. -/
  | quotaSet (w7 : Word)
  /-- step MEASURE_EXTEND, R441. -/
  | measureExtend (w7 : Word)
  /-- step MAP_WRITE, R447. -/
  | mapWrite (w7 : Word) (signatureOk : Bool)
  /-- step ACCEPT_WRITE, R444. -/
  | acceptWrite (n : Nat) (value : Word)
  /-- step REGISTER_WRITE, R431. -/
  | registerWrite (link : Nat) (act : HostAct)
  /-- step BOOT, R441. -/
  | boot (inp : BootInput)
  /-- step THERMAL, R451. -/
  | thermal (celsius : Nat)
  /-- step FILL_DRAIN_PORT_TRANSFER, R409. -/
  | fillDrainPortTransfer (h : BitVec 32) (n : Nat)
  /-- step LINK_DOWN, R423. -/
  | linkDown (port : Nat)
  /-- step LEASE_PEER_OPEN, R425. -/
  | leasePeerOpen (lease : BitVec 16) (port : Nat) (peer : BitVec 16) (duration : Nat)
  /-- MLDS_S (0x140), R210. -/
  | mldsS (a : BitVec 2) (mf : MFmt) (plane : BitVec 3)
  /-- MLDS_H (0x141), R210. -/
  | mldsH (a : BitVec 4) (mf : MFmt)
  /-- MSWAP (0x142), R212. -/
  | mswap
  /-- MACC_N_H (0x143), R215. -/
  | maccNH (d : BitVec 2) (a : BitVec 4) (af : MFmt) (rowb : BitVec 5) (nm1 : BitVec 5)
  /-- MACC_N_Q (0x144), R215. -/
  | maccNQ (d : BitVec 2) (a : BitVec 5) (af : MFmt) (rowb : BitVec 5) (nm1 : BitVec 5)
  /-- MACC_T_H (0x145), R215. -/
  | maccTH (d : BitVec 2) (a : BitVec 4) (af : MFmt) (rowb : BitVec 5) (nm1 : BitVec 5)
  /-- MACC_T_Q (0x146), R215. -/
  | maccTQ (d : BitVec 2) (a : BitVec 5) (af : MFmt) (rowb : BitVec 5) (nm1 : BitVec 5)
  /-- MZERO (0x147), R214. -/
  | mzero (d : BitVec 2)
  /-- MSCALE (0x148), R213. -/
  | mscale (a : BitVec 6) (tgt : Bool)
  /-- MSCALE_I (0x149), R213. -/
  | mscaleI (tgt : Bool) (e : BitVec 8)
  /-- MDRAIN (0x14A), R216. -/
  | mdrain (dst : Dest) (a : BitVec 2) (df : DFmt) (rnd : Rnd) (zero : Bool)
  /-- MGANG (0x14B), R220. -/
  | mgang (mask : BitVec 4)
  /-- MPERM (0x14C), R221. -/
  | mperm (a : BitVec 6)
  /-- MXCHG (0x14D), R222. -/
  | mxchg (d : BitVec 2) (a : BitVec 2)
  /-- ADD (0x000), R121. -/
  | add (d : BitVec 6) (a : BitVec 6) (b : BitVec 6)
  /-- ADD_I (0x001), R121. -/
  | addI (d : BitVec 6) (a : BitVec 6) (imm : BitVec 32)
  /-- SUB (0x002), R121. -/
  | sub (d : BitVec 6) (a : BitVec 6) (b : BitVec 6)
  /-- SUB_I (0x003), R121. -/
  | subI (d : BitVec 6) (a : BitVec 6) (imm : BitVec 32)
  /-- MUL (0x004), R121. -/
  | mul (d : BitVec 6) (a : BitVec 6) (b : BitVec 6)
  /-- MUL_I (0x005), R121. -/
  | mulI (d : BitVec 6) (a : BitVec 6) (imm : BitVec 32)
  /-- MULH (0x006), R121. -/
  | mulh (d : BitVec 6) (a : BitVec 6) (b : BitVec 6) (s : Bool)
  /-- MULH_I (0x007), R121. -/
  | mulhI (d : BitVec 6) (a : BitVec 6) (s : Bool) (imm : BitVec 32)
  /-- DIV (0x008), R122. -/
  | div (d : BitVec 6) (a : BitVec 6) (b : BitVec 6) (s : Bool)
  /-- DIV_I (0x009), R122. -/
  | divI (d : BitVec 6) (a : BitVec 6) (s : Bool) (imm : BitVec 32)
  /-- REM (0x00A), R122. -/
  | rem (d : BitVec 6) (a : BitVec 6) (b : BitVec 6) (s : Bool)
  /-- REM_I (0x00B), R122. -/
  | remI (d : BitVec 6) (a : BitVec 6) (s : Bool) (imm : BitVec 32)
  /-- AND (0x00C), R121. -/
  | and (d : BitVec 6) (a : BitVec 6) (b : BitVec 6)
  /-- AND_I (0x00D), R121. -/
  | andI (d : BitVec 6) (a : BitVec 6) (imm : BitVec 32)
  /-- OR (0x00E), R121. -/
  | or (d : BitVec 6) (a : BitVec 6) (b : BitVec 6)
  /-- OR_I (0x00F), R121. -/
  | orI (d : BitVec 6) (a : BitVec 6) (imm : BitVec 32)
  /-- XOR (0x010), R121. -/
  | xor (d : BitVec 6) (a : BitVec 6) (b : BitVec 6)
  /-- XOR_I (0x011), R121. -/
  | xorI (d : BitVec 6) (a : BitVec 6) (imm : BitVec 32)
  /-- ANDN (0x012), R121. -/
  | andn (d : BitVec 6) (a : BitVec 6) (b : BitVec 6)
  /-- ANDN_I (0x013), R121. -/
  | andnI (d : BitVec 6) (a : BitVec 6) (imm : BitVec 32)
  /-- SHL (0x014), R121. -/
  | shl (d : BitVec 6) (a : BitVec 6) (b : BitVec 6)
  /-- SHL_I (0x015), R121. -/
  | shlI (d : BitVec 6) (a : BitVec 6) (imm : BitVec 32)
  /-- SHR (0x016), R121. -/
  | shr (d : BitVec 6) (a : BitVec 6) (b : BitVec 6)
  /-- SHR_I (0x017), R121. -/
  | shrI (d : BitVec 6) (a : BitVec 6) (imm : BitVec 32)
  /-- SAR (0x018), R121. -/
  | sar (d : BitVec 6) (a : BitVec 6) (b : BitVec 6)
  /-- SAR_I (0x019), R121. -/
  | sarI (d : BitVec 6) (a : BitVec 6) (imm : BitVec 32)
  /-- ROT (0x01A), R121. -/
  | rot (d : BitVec 6) (a : BitVec 6) (b : BitVec 6)
  /-- ROT_I (0x01B), R121. -/
  | rotI (d : BitVec 6) (a : BitVec 6) (imm : BitVec 32)
  /-- MIN (0x01C), R121. -/
  | min (d : BitVec 6) (a : BitVec 6) (b : BitVec 6) (s : Bool)
  /-- MIN_I (0x01D), R121. -/
  | minI (d : BitVec 6) (a : BitVec 6) (s : Bool) (imm : BitVec 32)
  /-- MAX (0x01E), R121. -/
  | max (d : BitVec 6) (a : BitVec 6) (b : BitVec 6) (s : Bool)
  /-- MAX_I (0x01F), R121. -/
  | maxI (d : BitVec 6) (a : BitVec 6) (s : Bool) (imm : BitVec 32)
  /-- CMP (0x020), R127. -/
  | cmp (d : BitVec 3) (a : BitVec 6) (b : BitVec 6) (cond : Cond)
  /-- CMP_I (0x021), R127. -/
  | cmpI (d : BitVec 3) (a : BitVec 6) (cond : Cond) (imm : BitVec 32)
  /-- SEL (0x022), R128. -/
  | sel (d : BitVec 6) (a : BitVec 6) (b : BitVec 6) (neg : Bool) (k : BitVec 3)
  /-- SEL_I (0x023), R128. -/
  | selI (d : BitVec 6) (a : BitVec 6) (neg : Bool) (k : BitVec 3) (imm : BitVec 32)
  /-- PADD (0x024), R125. -/
  | padd (d : BitVec 6) (a : BitVec 6) (b : BitVec 6)
  /-- PADD_I (0x025), R125. -/
  | paddI (d : BitVec 6) (a : BitVec 6) (imm : BitVec 32)
  /-- PSUB (0x026), R125. -/
  | psub (d : BitVec 6) (a : BitVec 6) (b : BitVec 6)
  /-- PSUB_I (0x027), R125. -/
  | psubI (d : BitVec 6) (a : BitVec 6) (imm : BitVec 32)
  /-- CLZ (0x028), R124. -/
  | clz (d : BitVec 6) (a : BitVec 6)
  /-- POPC (0x029), R124. -/
  | popc (d : BitVec 6) (a : BitVec 6)
  /-- MOV (0x02A), R124. -/
  | mov (d : BitVec 6) (a : BitVec 6)
  /-- MOVI (0x02B), R124. -/
  | movi (d : BitVec 6) (imm : BitVec 32)
  /-- MOVHI (0x02C), R124. -/
  | movhi (d : BitVec 6) (a : BitVec 6) (imm : BitVec 32)
  /-- EXTB (0x02D), R124. -/
  | extb (d : BitVec 6) (a : BitVec 6) (pos : BitVec 6) (len : BitVec 6)
  /-- INSB (0x02E), R124. -/
  | insb (d : BitVec 6) (a : BitVec 6) (pos : BitVec 6) (len : BitVec 6)
  /-- SEXT (0x02F), R124. -/
  | sext (d : BitVec 6) (a : BitVec 6) (n : BitVec 6)
  /-- ZEXT (0x030), R124. -/
  | zext (d : BitVec 6) (a : BitVec 6) (n : BitVec 6)
  /-- PFMT (0x031), R126. -/
  | pfmt (d : BitVec 6) (a : BitVec 6) (fmt : BitVec 5) (blk : BitVec 3)
  /-- PMETA (0x032), R126. -/
  | pmeta (d : BitVec 6) (a : BitVec 6)
  /-- PCHK (0x033), R126. -/
  | pchk (d : BitVec 3) (a : BitVec 6) (fmt : BitVec 5)
  /-- PAND (0x034), R129. -/
  | pand (d : BitVec 3) (a : BitVec 3) (b : BitVec 3)
  /-- POR (0x035), R129. -/
  | por (d : BitVec 3) (a : BitVec 3) (b : BitVec 3)
  /-- PXOR (0x036), R129. -/
  | pxor (d : BitVec 3) (a : BitVec 3) (b : BitVec 3)
  /-- PNOT (0x037), R129. -/
  | pnot (d : BitVec 3) (a : BitVec 3)
  /-- ADD_W (0x038), R123. -/
  | addW (d : BitVec 6) (a : BitVec 6) (b : BitVec 6)
  /-- ADD_W_I (0x039), R123. -/
  | addWI (d : BitVec 6) (a : BitVec 6) (imm : BitVec 32)
  /-- SUB_W (0x03A), R123. -/
  | subW (d : BitVec 6) (a : BitVec 6) (b : BitVec 6)
  /-- MUL_W (0x03B), R123. -/
  | mulW (d : BitVec 6) (a : BitVec 6) (b : BitVec 6)
  /-- MUL_W_I (0x03C), R123. -/
  | mulWI (d : BitVec 6) (a : BitVec 6) (imm : BitVec 32)
  /-- SHL_W (0x03D), R123. -/
  | shlW (d : BitVec 6) (a : BitVec 6) (b : BitVec 6)
  /-- SHR_W (0x03E), R123. -/
  | shrW (d : BitVec 6) (a : BitVec 6) (b : BitVec 6)
  /-- SAR_W (0x03F), R123. -/
  | sarW (d : BitVec 6) (a : BitVec 6) (b : BitVec 6)
  /-- BR (0x040), R130. -/
  | br (hint : Bool) (off : BitVec 32)
  /-- BRP (0x041), R130. -/
  | brp (a : BitVec 3) (neg : Bool) (hint : Bool) (off : BitVec 32)
  /-- CALL (0x042), R131. -/
  | call (d : BitVec 6) (hint : Bool) (off : BitVec 32)
  /-- RET (0x043), R131. -/
  | ret (a : BitVec 6)
  /-- JMPR (0x044), R131. -/
  | jmpr (d : BitVec 6) (a : BitVec 6)
  /-- YIELD (0x045), R132. -/
  | yield
  /-- WAITANY (0x046), R133. -/
  | waitany (d : BitVec 6) (mask : BitVec 32)
  /-- ENDFIRE (0x047), R134. -/
  | endfire
  /-- FADD_F32 (0x048), R136. -/
  | faddF32 (d : BitVec 6) (a : BitVec 6) (b : BitVec 6) (rnd : Rnd)
  /-- FADD_F32_I (0x049), R136. -/
  | faddF32I (d : BitVec 6) (a : BitVec 6) (rnd : Rnd) (imm : BitVec 32)
  /-- FSUB_F32 (0x04A), R136. -/
  | fsubF32 (d : BitVec 6) (a : BitVec 6) (b : BitVec 6) (rnd : Rnd)
  /-- FSUB_F32_I (0x04B), R136. -/
  | fsubF32I (d : BitVec 6) (a : BitVec 6) (rnd : Rnd) (imm : BitVec 32)
  /-- FMUL_F32 (0x04C), R136. -/
  | fmulF32 (d : BitVec 6) (a : BitVec 6) (b : BitVec 6) (rnd : Rnd)
  /-- FMUL_F32_I (0x04D), R136. -/
  | fmulF32I (d : BitVec 6) (a : BitVec 6) (rnd : Rnd) (imm : BitVec 32)
  /-- FFMA_F32 (0x04E), R136. -/
  | ffmaF32 (d : BitVec 6) (a : BitVec 6) (b : BitVec 6) (c : BitVec 6) (rnd : Rnd)
  /-- FDIV_F32 (0x04F), R136. -/
  | fdivF32 (d : BitVec 6) (a : BitVec 6) (b : BitVec 6) (rnd : Rnd)
  /-- FSQRT_F32 (0x050), R136. -/
  | fsqrtF32 (d : BitVec 6) (a : BitVec 6) (rnd : Rnd)
  /-- FRSQRT_F32 (0x051), R137. -/
  | frsqrtF32 (d : BitVec 6) (a : BitVec 6)
  /-- FEXP2_F32 (0x052), R137. -/
  | fexp2F32 (d : BitVec 6) (a : BitVec 6)
  /-- FLOG2_F32 (0x053), R137. -/
  | flog2F32 (d : BitVec 6) (a : BitVec 6)
  /-- FSIN_F32 (0x054), R138. -/
  | fsinF32 (d : BitVec 6) (a : BitVec 6)
  /-- FCOS_F32 (0x055), R138. -/
  | fcosF32 (d : BitVec 6) (a : BitVec 6)
  /-- FMIN_F32 (0x056), R139. -/
  | fminF32 (d : BitVec 6) (a : BitVec 6) (b : BitVec 6)
  /-- FMIN_F32_I (0x057), R139. -/
  | fminF32I (d : BitVec 6) (a : BitVec 6) (imm : BitVec 32)
  /-- FMAX_F32 (0x058), R139. -/
  | fmaxF32 (d : BitVec 6) (a : BitVec 6) (b : BitVec 6)
  /-- FMAX_F32_I (0x059), R139. -/
  | fmaxF32I (d : BitVec 6) (a : BitVec 6) (imm : BitVec 32)
  /-- FCMP_F32 (0x05A), R140. -/
  | fcmpF32 (d : BitVec 3) (a : BitVec 6) (b : BitVec 6) (cond : FCond)
  /-- FCMP_F32_I (0x05B), R140. -/
  | fcmpF32I (d : BitVec 3) (a : BitVec 6) (cond : FCond) (imm : BitVec 32)
  /-- FCLASS_F32 (0x05C), R141. -/
  | fclassF32 (d : BitVec 6) (a : BitVec 6)
  /-- FCVT (0x05D), R144. -/
  | fcvt (d : BitVec 6) (a : BitVec 6) (src : CvtFmt) (dst : CvtFmt) (sat : Bool) (rnd : Rnd)
  /-- FABS_F32 (0x05E), R142. -/
  | fabsF32 (d : BitVec 6) (a : BitVec 6)
  /-- FNEG_F32 (0x05F), R142. -/
  | fnegF32 (d : BitVec 6) (a : BitVec 6)
  /-- FADD_F16 (0x060), R136. -/
  | faddF16 (d : BitVec 6) (a : BitVec 6) (b : BitVec 6) (rnd : Rnd)
  /-- FSUB_F16 (0x061), R136. -/
  | fsubF16 (d : BitVec 6) (a : BitVec 6) (b : BitVec 6) (rnd : Rnd)
  /-- FMUL_F16 (0x062), R136. -/
  | fmulF16 (d : BitVec 6) (a : BitVec 6) (b : BitVec 6) (rnd : Rnd)
  /-- FFMA_F16 (0x063), R136. -/
  | ffmaF16 (d : BitVec 6) (a : BitVec 6) (b : BitVec 6) (c : BitVec 6) (rnd : Rnd)
  /-- FDIV_F16 (0x064), R136. -/
  | fdivF16 (d : BitVec 6) (a : BitVec 6) (b : BitVec 6) (rnd : Rnd)
  /-- FSQRT_F16 (0x065), R136. -/
  | fsqrtF16 (d : BitVec 6) (a : BitVec 6) (rnd : Rnd)
  /-- FRSQRT_F16 (0x066), R137. -/
  | frsqrtF16 (d : BitVec 6) (a : BitVec 6) (rnd : Rnd)
  /-- FEXP2_F16 (0x067), R137. -/
  | fexp2F16 (d : BitVec 6) (a : BitVec 6) (rnd : Rnd)
  /-- FLOG2_F16 (0x068), R137. -/
  | flog2F16 (d : BitVec 6) (a : BitVec 6) (rnd : Rnd)
  /-- FSIN_F16 (0x069), R138. -/
  | fsinF16 (d : BitVec 6) (a : BitVec 6) (rnd : Rnd)
  /-- FCOS_F16 (0x06A), R138. -/
  | fcosF16 (d : BitVec 6) (a : BitVec 6) (rnd : Rnd)
  /-- FMIN_F16 (0x06B), R139. -/
  | fminF16 (d : BitVec 6) (a : BitVec 6) (b : BitVec 6)
  /-- FMAX_F16 (0x06C), R139. -/
  | fmaxF16 (d : BitVec 6) (a : BitVec 6) (b : BitVec 6)
  /-- FCMP_F16 (0x06D), R140. -/
  | fcmpF16 (d : BitVec 3) (a : BitVec 6) (b : BitVec 6) (cond : FCond)
  /-- FCLASS_F16 (0x06E), R141. -/
  | fclassF16 (d : BitVec 6) (a : BitVec 6)
  /-- FADD_BF16 (0x070), R136. -/
  | faddBf16 (d : BitVec 6) (a : BitVec 6) (b : BitVec 6) (rnd : Rnd)
  /-- FSUB_BF16 (0x071), R136. -/
  | fsubBf16 (d : BitVec 6) (a : BitVec 6) (b : BitVec 6) (rnd : Rnd)
  /-- FMUL_BF16 (0x072), R136. -/
  | fmulBf16 (d : BitVec 6) (a : BitVec 6) (b : BitVec 6) (rnd : Rnd)
  /-- FFMA_BF16 (0x073), R136. -/
  | ffmaBf16 (d : BitVec 6) (a : BitVec 6) (b : BitVec 6) (c : BitVec 6) (rnd : Rnd)
  /-- FDIV_BF16 (0x074), R136. -/
  | fdivBf16 (d : BitVec 6) (a : BitVec 6) (b : BitVec 6) (rnd : Rnd)
  /-- FSQRT_BF16 (0x075), R136. -/
  | fsqrtBf16 (d : BitVec 6) (a : BitVec 6) (rnd : Rnd)
  /-- FRSQRT_BF16 (0x076), R137. -/
  | frsqrtBf16 (d : BitVec 6) (a : BitVec 6) (rnd : Rnd)
  /-- FEXP2_BF16 (0x077), R137. -/
  | fexp2Bf16 (d : BitVec 6) (a : BitVec 6) (rnd : Rnd)
  /-- FLOG2_BF16 (0x078), R137. -/
  | flog2Bf16 (d : BitVec 6) (a : BitVec 6) (rnd : Rnd)
  /-- FSIN_BF16 (0x079), R138. -/
  | fsinBf16 (d : BitVec 6) (a : BitVec 6) (rnd : Rnd)
  /-- FCOS_BF16 (0x07A), R138. -/
  | fcosBf16 (d : BitVec 6) (a : BitVec 6) (rnd : Rnd)
  /-- FMIN_BF16 (0x07B), R139. -/
  | fminBf16 (d : BitVec 6) (a : BitVec 6) (b : BitVec 6)
  /-- FMAX_BF16 (0x07C), R139. -/
  | fmaxBf16 (d : BitVec 6) (a : BitVec 6) (b : BitVec 6)
  /-- FCMP_BF16 (0x07D), R140. -/
  | fcmpBf16 (d : BitVec 3) (a : BitVec 6) (b : BitVec 6) (cond : FCond)
  /-- FCLASS_BF16 (0x07E), R141. -/
  | fclassBf16 (d : BitVec 6) (a : BitVec 6)
  /-- LD (0x080), R151. -/
  | ld (d : BitVec 6) (a : BitVec 6) (b : BitVec 6) (scale : BitVec 3) (sx : Bool) (size : BitVec 2) (ord : Ord) (scope : Scope) (off : BitVec 21)
  /-- ST (0x081), R151. -/
  | st (d : BitVec 6) (a : BitVec 6) (b : BitVec 6) (scale : BitVec 3) (size : BitVec 2) (ord : Ord) (scope : Scope) (off : BitVec 21)
  /-- LDX (0x082), R152. -/
  | ldx (d : BitVec 6) (a : BitVec 6) (b : BitVec 6) (scale : BitVec 3) (rf : CvtFmt) (ord : Ord) (scope : Scope) (off : BitVec 21)
  /-- STX (0x083), R152. -/
  | stx (d : BitVec 6) (a : BitVec 6) (b : BitVec 6) (scale : BitVec 3) (rf : CvtFmt) (ord : Ord) (scope : Scope) (off : BitVec 21)
  /-- LDS (0x084), R156. -/
  | lds (d : BitVec 6) (a : BitVec 6) (b : BitVec 6) (scale : BitVec 3) (sx : Bool) (size : BitVec 2) (ord : Ord) (scope : Scope) (off : BitVec 21)
  /-- STS (0x085), R156. -/
  | sts (d : BitVec 6) (a : BitVec 6) (b : BitVec 6) (scale : BitVec 3) (size : BitVec 2) (ord : Ord) (scope : Scope) (off : BitVec 21)
  /-- PREF (0x086), R157. -/
  | pref (a : BitVec 6) (b : BitVec 6) (scale : BitVec 3) (off : BitVec 21)
  /-- CLEAN (0x087), R157. -/
  | clean (a : BitVec 6) (b : BitVec 6) (scale : BitVec 3) (off : BitVec 21)
  /-- INVAL (0x088), R157. -/
  | inval (a : BitVec 6) (b : BitVec 6) (scale : BitVec 3) (off : BitVec 21)
  /-- FENCE (0x089), R158. -/
  | fence (ord : Ord) (scope : Scope)
  /-- SPB (0x08A), R159. -/
  | spb (d : BitVec 6) (a : BitVec 6) (b : BitVec 6) (scale : BitVec 3) (cnt : BitVec 4) (off : BitVec 21)
  /-- FLA (0x08B), R159. -/
  | fla (d : BitVec 6) (a : BitVec 6) (b : BitVec 6) (scale : BitVec 3) (cnt : BitVec 4) (off : BitVec 21)
  /-- SPW (0x08C), R163. -/
  | spw
  /-- COPY (0x08D), R271. -/
  | copy (d : BitVec 6) (a : BitVec 6) (b : BitVec 6) (c : BitVec 6) (dsp : Bool) (ssp : Bool) (rnd : Rnd) (arrive : Bool) (st : BitVec 3)
  /-- CTEST (0x08E), R275. -/
  | ctest (d : BitVec 6) (a : BitVec 6)
  /-- CWAIT (0x08F), R275. -/
  | cwait (d : BitVec 6) (a : BitVec 6)
  /-- AMOADD (0x090), R167. -/
  | amoadd (d : BitVec 6) (a : BitVec 6) (b : BitVec 6) (scale : BitVec 3) (size : BitVec 2) (ord : Ord) (scope : Scope) (off : BitVec 21)
  /-- AMOMIN (0x091), R167. -/
  | amomin (d : BitVec 6) (a : BitVec 6) (b : BitVec 6) (scale : BitVec 3) (size : BitVec 2) (ord : Ord) (scope : Scope) (off : BitVec 21)
  /-- AMOMAX (0x092), R167. -/
  | amomax (d : BitVec 6) (a : BitVec 6) (b : BitVec 6) (scale : BitVec 3) (size : BitVec 2) (ord : Ord) (scope : Scope) (off : BitVec 21)
  /-- AMOAND (0x093), R167. -/
  | amoand (d : BitVec 6) (a : BitVec 6) (b : BitVec 6) (scale : BitVec 3) (size : BitVec 2) (ord : Ord) (scope : Scope) (off : BitVec 21)
  /-- AMOOR (0x094), R167. -/
  | amoor (d : BitVec 6) (a : BitVec 6) (b : BitVec 6) (scale : BitVec 3) (size : BitVec 2) (ord : Ord) (scope : Scope) (off : BitVec 21)
  /-- AMOXOR (0x095), R167. -/
  | amoxor (d : BitVec 6) (a : BitVec 6) (b : BitVec 6) (scale : BitVec 3) (size : BitVec 2) (ord : Ord) (scope : Scope) (off : BitVec 21)
  /-- AMOSWAP (0x096), R167. -/
  | amoswap (d : BitVec 6) (a : BitVec 6) (b : BitVec 6) (scale : BitVec 3) (size : BitVec 2) (ord : Ord) (scope : Scope) (off : BitVec 21)
  /-- CAS (0x097), R167. -/
  | cas (d : BitVec 6) (a : BitVec 6) (b : BitVec 6) (scale : BitVec 3) (size : BitVec 2) (ord : Ord) (scope : Scope) (off : BitVec 21)
  /-- AMOFADD_F32 (0x098), R170. -/
  | amofaddF32 (d : BitVec 6) (a : BitVec 6) (b : BitVec 6) (scale : BitVec 3) (ord : Ord) (scope : Scope) (off : BitVec 21)
  /-- AMOADD_SPAD (0x0A0), R169. -/
  | amoaddSpad (d : BitVec 6) (a : BitVec 6) (b : BitVec 6) (scale : BitVec 3) (size : BitVec 2) (ord : Ord) (scope : Scope) (off : BitVec 21)
  /-- AMOMIN_SPAD (0x0A1), R169. -/
  | amominSpad (d : BitVec 6) (a : BitVec 6) (b : BitVec 6) (scale : BitVec 3) (size : BitVec 2) (ord : Ord) (scope : Scope) (off : BitVec 21)
  /-- AMOMAX_SPAD (0x0A2), R169. -/
  | amomaxSpad (d : BitVec 6) (a : BitVec 6) (b : BitVec 6) (scale : BitVec 3) (size : BitVec 2) (ord : Ord) (scope : Scope) (off : BitVec 21)
  /-- AMOAND_SPAD (0x0A3), R169. -/
  | amoandSpad (d : BitVec 6) (a : BitVec 6) (b : BitVec 6) (scale : BitVec 3) (size : BitVec 2) (ord : Ord) (scope : Scope) (off : BitVec 21)
  /-- AMOOR_SPAD (0x0A4), R169. -/
  | amoorSpad (d : BitVec 6) (a : BitVec 6) (b : BitVec 6) (scale : BitVec 3) (size : BitVec 2) (ord : Ord) (scope : Scope) (off : BitVec 21)
  /-- AMOXOR_SPAD (0x0A5), R169. -/
  | amoxorSpad (d : BitVec 6) (a : BitVec 6) (b : BitVec 6) (scale : BitVec 3) (size : BitVec 2) (ord : Ord) (scope : Scope) (off : BitVec 21)
  /-- AMOSWAP_SPAD (0x0A6), R169. -/
  | amoswapSpad (d : BitVec 6) (a : BitVec 6) (b : BitVec 6) (scale : BitVec 3) (size : BitVec 2) (ord : Ord) (scope : Scope) (off : BitVec 21)
  /-- CAS_SPAD (0x0A7), R169. -/
  | casSpad (d : BitVec 6) (a : BitVec 6) (b : BitVec 6) (scale : BitVec 3) (size : BitVec 2) (ord : Ord) (scope : Scope) (off : BitVec 21)
  /-- AMOFADD_F32_SPAD (0x0A8), R169. -/
  | amofaddF32Spad (d : BitVec 6) (a : BitVec 6) (b : BitVec 6) (scale : BitVec 3) (ord : Ord) (scope : Scope) (off : BitVec 21)
  /-- QPUSH (0x0C0), R173. -/
  | qpush (d : BitVec 5) (a : BitVec 6) (cnt : BitVec 4)
  /-- QPUSH_I (0x0C1), R171. -/
  | qpushI (d : BitVec 5) (imm : BitVec 32)
  /-- QPUSHS (0x0C2), R172. -/
  | qpushs (d : BitVec 5) (a : BitVec 6) (cnt : BitVec 4)
  /-- QPUSHS_I (0x0C3), R171. -/
  | qpushsI (d : BitVec 5) (imm : BitVec 32)
  /-- QPOP (0x0C4), R173. -/
  | qpop (d : BitVec 6) (a : BitVec 5) (cnt : BitVec 4)
  /-- QPEEK (0x0C5), R173. -/
  | qpeek (d : BitVec 6) (a : BitVec 5) (cnt : BitVec 4)
  /-- QTRY (0x0C6), R173. -/
  | qtry (d : BitVec 6) (a : BitVec 5) (b : BitVec 3) (cnt : BitVec 4)
  /-- QSTAT (0x0C7), R174. -/
  | qstat (d : BitVec 6) (a : BitVec 5)
  /-- CHSEND (0x0C8), R175. -/
  | chsend (d : BitVec 5) (a : BitVec 6) (cnt : BitVec 4)
  /-- CHSEND_I (0x0C9), R175. -/
  | chsendI (d : BitVec 5) (imm : BitVec 32)
  /-- CHRECV (0x0CA), R175. -/
  | chrecv (d : BitVec 6) (a : BitVec 5) (cnt : BitVec 4)
  /-- CBWAIT_F (0x0CB), R177. -/
  | cbwaitF (a : BitVec 4) (b : BitVec 6)
  /-- CBWAIT_F_I (0x0CC), R177. -/
  | cbwaitFI (a : BitVec 4) (n : BitVec 13)
  /-- CBWAIT_E (0x0CD), R177. -/
  | cbwaitE (a : BitVec 4) (b : BitVec 6)
  /-- CBWAIT_E_I (0x0CE), R177. -/
  | cbwaitEI (a : BitVec 4) (n : BitVec 13)
  /-- CBADV_P (0x0CF), R177. -/
  | cbadvP (a : BitVec 4) (b : BitVec 6)
  /-- CBADV_P_I (0x0D0), R177. -/
  | cbadvPI (a : BitVec 4) (n : BitVec 13)
  /-- CBADV_C (0x0D1), R177. -/
  | cbadvC (a : BitVec 4) (b : BitVec 6)
  /-- CBADV_C_I (0x0D2), R177. -/
  | cbadvCI (a : BitVec 4) (n : BitVec 13)
  /-- CBSET (0x0D3), R178. -/
  | cbset (d : BitVec 4) (a : BitVec 6) (b : BitVec 6)
  /-- CBGET (0x0D4), R178. -/
  | cbget (d : BitVec 6) (a : BitVec 4) (c : BitVec 6)
  /-- VCFG (0x100), R199. -/
  | vcfg (b : BitVec 6)
  /-- VCFG_I (0x101), R199. -/
  | vcfgI (imm : BitVec 32)
  /-- VRUN_HH (0x102), R200. -/
  | vrunHh (d : BitVec 4) (a : BitVec 4) (len : RunLen) (keep : Bool) (ew : BitVec 2)
  /-- VRUN_HQ (0x103), R200. -/
  | vrunHq (d : BitVec 5) (a : BitVec 4) (len : RunLen) (keep : Bool) (ew : BitVec 2)
  /-- VRUN_QH (0x104), R200. -/
  | vrunQh (d : BitVec 4) (a : BitVec 5) (len : RunLen) (keep : Bool) (ew : BitVec 2)
  /-- VRUN_QQ (0x105), R200. -/
  | vrunQq (d : BitVec 5) (a : BitVec 5) (len : RunLen) (keep : Bool)
  /-- VLOOP (0x106), R201. -/
  | vloop (d : BitVec 2) (b : BitVec 6)
  /-- VLOOP_I (0x107), R201. -/
  | vloopI (d : BitVec 2) (imm : BitVec 32)
  /-- VEND (0x108), R201. -/
  | vend (d : BitVec 2)
  /-- VSYNC (0x109), R199. -/
  | vsync
  /-- ILOAD (0x150), R231. -/
  | iload (d : BitVec 6) (a : BitVec 6)
  /-- IRUN_H (0x151), R234. -/
  | irunH (a : BitVec 4) (slot : BitVec 2) (nm1 : BitVec 6)
  /-- IRUN_Q (0x152), R234. -/
  | irunQ (a : BitVec 5) (slot : BitVec 2) (nm1 : BitVec 6)
  /-- IDRAIN (0x153), R235. -/
  | idrain (dst : Dest) (nf : NFmt) (nm1 : BitVec 6)
  /-- ISTAT (0x154), R233. -/
  | istat (d : BitVec 6) (sel : BitVec 3)
  /-- IUNLOAD (0x155), R232. -/
  | iunload (slot : BitVec 2)
  /-- NSEND (0x180), R244. -/
  | nsend (a : BitVec 6) (route : BitVec 8) (nm1 : BitVec 3)
  /-- NSEND_H (0x181), R245. -/
  | nsendH (a : BitVec 4) (route : BitVec 8) (ns : BitVec 13)
  /-- NRECV (0x182), R244. -/
  | nrecv (d : BitVec 6) (route : BitVec 8) (nm1 : BitVec 3)
  /-- NRECV_H (0x183), R245. -/
  | nrecvH (d : BitVec 4) (route : BitVec 8) (ns : BitVec 13)
  /-- NRED (0x184), R244. -/
  | nred (a : BitVec 6) (route : BitVec 8) (nm1 : BitVec 3)
  /-- NRED_H (0x185), R245. -/
  | nredH (a : BitVec 4) (route : BitVec 8) (ns : BitVec 13)
  /-- NBCAST (0x186), R244. -/
  | nbcast (a : BitVec 6) (route : BitVec 8) (nm1 : BitVec 3)
  /-- NBCAST_H (0x187), R245. -/
  | nbcastH (a : BitVec 4) (route : BitVec 8) (ns : BitVec 13)
  /-- NTOK (0x188), R252. -/
  | ntok (a : BitVec 6)
  /-- NTOK_I (0x189), R252. -/
  | ntokI (imm : BitVec 32)
  /-- NARM (0x18A), R252. -/
  | narm (d : BitVec 6) (a : BitVec 6) (b : BitVec 6)
  /-- NARM_I (0x18B), R252. -/
  | narmI (d : BitVec 6) (imm : BitVec 32)
  /-- NFENCE (0x18C), R253. -/
  | nfence
  /-- VNWAIT (0x18D), R256. -/
  | vnwait (d : BitVec 6) (sel : VnSel) (mask : BitVec 4)
  /-- VNREL (0x18E), R257. -/
  | vnrel (a : BitVec 6)
  /-- VNREL_I (0x18F), R257. -/
  | vnrelI (imm : BitVec 32)
  /-- BAR (0x190), R260. -/
  | bar (d : BitVec 6) (a : BitVec 6) (sync : Bool)
  /-- BAR_I (0x191), R260. -/
  | barI (d : BitVec 6) (bar : BitVec 6) (sync : Bool) (count : BitVec 16)
  /-- PVGET (0x192), R264. -/
  | pvget (d : BitVec 6) (a : BitVec 6)
  /-- PVGET_I (0x193), R264. -/
  | pvgetI (d : BitVec 6) (imm : BitVec 32)
  /-- PVPIN (0x194), R264. -/
  | pvpin (d : BitVec 6) (a : BitVec 6)
  /-- PVUNPIN (0x195), R264. -/
  | pvunpin (a : BitVec 6)
  /-- PVPUB_RES (0x196), R264. -/
  | pvpubRes (d : BitVec 6) (a : BitVec 6)
  /-- PVPUB_COM (0x196), R264. -/
  | pvpubCom (d : BitVec 6) (a : BitVec 6)
  /-- PVSWITCH (0x197), R265. -/
  | pvswitch (d : BitVec 6) (a : BitVec 6)
  /-- PVTAG (0x198), R263. -/
  | pvtag (d : BitVec 6) (a : BitVec 6)
  /-- STASH (0x199), R267. -/
  | stash (a : BitVec 6) (b : BitVec 6)
  /-- UNSTASH (0x19A), R268. -/
  | unstash (d : BitVec 6) (a : BitVec 6) (b : BitVec 6)
  /-- SRSEED (0x19B), R269. -/
  | srseed (a : BitVec 6) (sub : BitVec 3)
  /-- GRADARM (0x19C), R270. -/
  | gradarm (bar : BitVec 6)
  /-- TRAP (0x1C0), R277. -/
  | trap (a : BitVec 6)
  /-- TRAP_I (0x1C1), R277. -/
  | trapI (imm : BitVec 32)
  /-- ERET (0x1C2), R278. -/
  | eret
  /-- KRD (0x1C3), R279. -/
  | krd (d : BitVec 6) (creg : BitVec 10)
  /-- KWR (0x1C4), R279. -/
  | kwr (a : BitVec 6) (creg : BitVec 10)
  /-- TLBINV (0x1C5), R280. -/
  | tlbinv (a : BitVec 6)
  /-- TLBINVR (0x1C6), R280. -/
  | tlbinvr (a : BitVec 6) (b : BitVec 6)
  /-- SHOOT (0x1C7), R281. -/
  | shoot (d : BitVec 6) (a : BitVec 6) (b : BitVec 6)
  /-- FREEZE (0x1C8), R282. -/
  | freeze (d : BitVec 6) (a : BitVec 6)
  /-- THAW (0x1C9), R282. -/
  | thaw (d : BitVec 6) (a : BitVec 6)
  /-- FEATRD (0x1CA), R283. -/
  | featrd (d : BitVec 6) (a : BitVec 6)
  /-- FEATRD_I (0x1CB), R283. -/
  | featrdI (d : BitVec 6) (imm : BitVec 32)
  /-- BRK (0x1CC), R284. -/
  | brk (code : BitVec 16)
  /-- DHALT (0x1CD), R285. -/
  | dhalt (a : BitVec 6)
  /-- DRESUME (0x1CE), R285. -/
  | dresume (a : BitVec 6)
  /-- BWDDERIVE (0x1CF), R286. -/
  | bwdderive (d : BitVec 6) (a : BitVec 6) (b : BitVec 6) (c : BitVec 6)
  /-- step DEFERRED_FAULT_DELIVERY, R166. -/
  | deferredFaultDelivery
  /-- step LAUNCH_INTAKE, R350. -/
  | launchIntake
  /-- step PLACEMENT_RESERVE, R353. -/
  | placementReserve
  /-- step PLACEMENT_COMMIT, R354. -/
  | placementCommit
  /-- step GRID_RETIRE, R387. -/
  | gridRetire
  /-- step EVENT_QUEUE_ADVANCE, R438. -/
  | eventQueueAdvance
  /-- step ATTEST_REQUEST, R442. -/
  | attestRequest
  /-- step ATTEST_COMPLETE, R442. -/
  | attestComplete
  /-- step POWER_CAP_STEP, R451. -/
  | powerCapStep
  /-- step POWER_DOWN, R451. -/
  | powerDown
deriving DecidableEq, Repr

end Sys2Proof
end

