-- ==== Sys2Proof/WellFormed.lean ====
section
/-!
DEFINITION. Well-formed instructions: the cross-field rules of 03_encoding_and_assembly.md that the types of Syntax do not
carry. A word whose fields break one takes ILLEGAL_MODIFIER at check 3 of R97.
-/
namespace Sys2Proof

/-- Strand or tile scope, the only scopes of a scratchpad access (Table 5.2). -/
def Scope.isLocal : Scope → Bool
  | .str => true
  | .til => true
  | _ => false

/-- Width in bits of an integer conversion format; 0 for a format that is no integer (R90, Table 2.1). -/
def CvtFmt.intBits : CvtFmt → Nat
  | .fp32 => 0 | .fp16 => 0 | .bf16 => 0 | .log6 => 0
  | .int4 => 4 | .int8 => 8 | .int16 => 16 | .int32 => 32 | .int64 => 64

/-- Integer-to-integer narrowing, where SAT may be set (R90). -/
def CvtFmt.intNarrow (src dst : CvtFmt) : Bool := decide (0 < dst.intBits ∧ dst.intBits < src.intBits)

/-- Whether a conversion is narrowing: every pair but those of Table 4.12 (R75, R144). -/
def CvtFmt.narrowing (src dst : CvtFmt) : Bool :=
  !(src == dst ||
    match src with
    | .fp32 => false
    | .fp16 => dst == .fp32
    | .bf16 => dst == .fp32
    | .log6 => dst == .fp32
    | .int4 => dst == .int8 || dst == .int16 || dst == .int32 || dst == .int64 || dst == .fp32 || dst == .fp16 || dst == .bf16
    | .int8 => dst == .int16 || dst == .int32 || dst == .int64 || dst == .fp32 || dst == .fp16 || dst == .bf16
    | .int16 => dst == .int32 || dst == .int64 || dst == .fp32
    | .int32 => dst == .int64
    | .int64 => false)

/-- No field holds a reserved modifier value (check 3 of R97) that the types of Syntax do not exclude already: the ranges of
R92 and R95, the orders and scopes of Table 5.2 and the values that an entry calls reserved. -/
def wellFormed : Instr → Bool
  | .mldsS _ _ _ => true
  | .mldsH _ _ => true
  | .mswap => true
  | .maccNH _ _ _ rowb nm1 => decide (rowb.toNat + nm1.toNat ≤ 31)
  | .maccNQ _ _ _ rowb nm1 => decide (rowb.toNat + nm1.toNat ≤ 31)
  | .maccTH _ _ _ rowb nm1 => decide (rowb.toNat + nm1.toNat ≤ 31)
  | .maccTQ _ _ _ rowb nm1 => decide (rowb.toNat + nm1.toNat ≤ 31)
  | .mzero _ => true
  | .mscale _ _ => true
  | .mscaleI _ _ => true
  | .mdrain _ _ df rnd _ => decide (¬(rnd = .sr ∧ df = .fp32))
  | .mgang mask => decide (mask ≠ 0)
  | .mperm _ => true
  | .mxchg _ _ => true
  | .add _ _ _ => true
  | .addI _ _ _ => true
  | .sub _ _ _ => true
  | .subI _ _ _ => true
  | .mul _ _ _ => true
  | .mulI _ _ _ => true
  | .mulh _ _ _ _ => true
  | .mulhI _ _ _ _ => true
  | .div _ _ _ _ => true
  | .divI _ _ _ _ => true
  | .rem _ _ _ _ => true
  | .remI _ _ _ _ => true
  | .and _ _ _ => true
  | .andI _ _ _ => true
  | .or _ _ _ => true
  | .orI _ _ _ => true
  | .xor _ _ _ => true
  | .xorI _ _ _ => true
  | .andn _ _ _ => true
  | .andnI _ _ _ => true
  | .shl _ _ _ => true
  | .shlI _ _ _ => true
  | .shr _ _ _ => true
  | .shrI _ _ _ => true
  | .sar _ _ _ => true
  | .sarI _ _ _ => true
  | .rot _ _ _ => true
  | .rotI _ _ _ => true
  | .min _ _ _ _ => true
  | .minI _ _ _ _ => true
  | .max _ _ _ _ => true
  | .maxI _ _ _ _ => true
  | .cmp _ _ _ _ => true
  | .cmpI _ _ _ _ => true
  | .sel _ _ _ _ _ => true
  | .selI _ _ _ _ _ => true
  | .padd _ _ _ => true
  | .paddI _ _ _ => true
  | .psub _ _ _ => true
  | .psubI _ _ _ => true
  | .clz _ _ => true
  | .popc _ _ => true
  | .mov _ _ => true
  | .movi _ _ => true
  | .movhi _ _ _ => true
  | .extb _ _ _ _ => true
  | .insb _ _ _ _ => true
  | .sext _ _ _ => true
  | .zext _ _ _ => true
  | .pfmt _ _ _ _ => true
  | .pmeta _ _ => true
  | .pchk _ _ _ => true
  | .pand _ _ _ => true
  | .por _ _ _ => true
  | .pxor _ _ _ => true
  | .pnot _ _ => true
  | .addW _ _ _ => true
  | .addWI _ _ _ => true
  | .subW _ _ _ => true
  | .mulW _ _ _ => true
  | .mulWI _ _ _ => true
  | .shlW _ _ _ => true
  | .shrW _ _ _ => true
  | .sarW _ _ _ => true
  | .br _ _ => true
  | .brp _ _ _ _ => true
  | .call _ _ _ => true
  | .ret _ => true
  | .jmpr _ _ => true
  | .yield => true
  | .waitany _ mask => decide (mask ≠ 0)
  | .endfire => true
  | .faddF32 _ _ _ rnd => decide (rnd ≠ .sr)
  | .faddF32I _ _ rnd _ => decide (rnd ≠ .sr)
  | .fsubF32 _ _ _ rnd => decide (rnd ≠ .sr)
  | .fsubF32I _ _ rnd _ => decide (rnd ≠ .sr)
  | .fmulF32 _ _ _ rnd => decide (rnd ≠ .sr)
  | .fmulF32I _ _ rnd _ => decide (rnd ≠ .sr)
  | .ffmaF32 _ _ _ _ rnd => decide (rnd ≠ .sr)
  | .fdivF32 _ _ _ rnd => decide (rnd ≠ .sr)
  | .fsqrtF32 _ _ rnd => decide (rnd ≠ .sr)
  | .frsqrtF32 _ _ => true
  | .fexp2F32 _ _ => true
  | .flog2F32 _ _ => true
  | .fsinF32 _ _ => true
  | .fcosF32 _ _ => true
  | .fminF32 _ _ _ => true
  | .fminF32I _ _ _ => true
  | .fmaxF32 _ _ _ => true
  | .fmaxF32I _ _ _ => true
  | .fcmpF32 _ _ _ _ => true
  | .fcmpF32I _ _ _ _ => true
  | .fclassF32 _ _ => true
  | .fcvt _ _ src dst sat rnd => decide ((sat = true → src.intNarrow dst = true) ∧ (rnd = .sr → src.narrowing dst = true))
  | .fabsF32 _ _ => true
  | .fnegF32 _ _ => true
  | .faddF16 _ _ _ rnd => decide (rnd ≠ .sr)
  | .fsubF16 _ _ _ rnd => decide (rnd ≠ .sr)
  | .fmulF16 _ _ _ rnd => decide (rnd ≠ .sr)
  | .ffmaF16 _ _ _ _ rnd => decide (rnd ≠ .sr)
  | .fdivF16 _ _ _ rnd => decide (rnd ≠ .sr)
  | .fsqrtF16 _ _ rnd => decide (rnd ≠ .sr)
  | .frsqrtF16 _ _ rnd => decide (rnd ≠ .sr)
  | .fexp2F16 _ _ rnd => decide (rnd ≠ .sr)
  | .flog2F16 _ _ rnd => decide (rnd ≠ .sr)
  | .fsinF16 _ _ rnd => decide (rnd ≠ .sr)
  | .fcosF16 _ _ rnd => decide (rnd ≠ .sr)
  | .fminF16 _ _ _ => true
  | .fmaxF16 _ _ _ => true
  | .fcmpF16 _ _ _ _ => true
  | .fclassF16 _ _ => true
  | .faddBf16 _ _ _ rnd => decide (rnd ≠ .sr)
  | .fsubBf16 _ _ _ rnd => decide (rnd ≠ .sr)
  | .fmulBf16 _ _ _ rnd => decide (rnd ≠ .sr)
  | .ffmaBf16 _ _ _ _ rnd => decide (rnd ≠ .sr)
  | .fdivBf16 _ _ _ rnd => decide (rnd ≠ .sr)
  | .fsqrtBf16 _ _ rnd => decide (rnd ≠ .sr)
  | .frsqrtBf16 _ _ rnd => decide (rnd ≠ .sr)
  | .fexp2Bf16 _ _ rnd => decide (rnd ≠ .sr)
  | .flog2Bf16 _ _ rnd => decide (rnd ≠ .sr)
  | .fsinBf16 _ _ rnd => decide (rnd ≠ .sr)
  | .fcosBf16 _ _ rnd => decide (rnd ≠ .sr)
  | .fminBf16 _ _ _ => true
  | .fmaxBf16 _ _ _ => true
  | .fcmpBf16 _ _ _ _ => true
  | .fclassBf16 _ _ => true
  | .ld _ _ _ _ sx size ord scope _ => decide ((¬(sx = true ∧ size = 3)) ∧ ((ord = .plain ∧ scope = .str) ∨ ord = .acq))
  | .st _ _ _ _ _ ord scope _ => decide ((ord = .plain ∧ scope = .str) ∨ ord = .rel)
  | .ldx _ _ _ _ _ ord scope _ => decide ((ord = .plain ∧ scope = .str) ∨ ord = .acq)
  | .stx _ _ _ _ _ ord scope _ => decide ((ord = .plain ∧ scope = .str) ∨ ord = .rel)
  | .lds _ _ _ _ sx size ord scope _ => decide ((¬(sx = true ∧ size = 3)) ∧ ((ord = .plain ∧ scope = .str) ∨ (ord = .acq ∧ scope.isLocal = true)))
  | .sts _ _ _ _ _ ord scope _ => decide ((ord = .plain ∧ scope = .str) ∨ (ord = .rel ∧ scope.isLocal = true))
  | .pref _ _ _ _ => true
  | .clean _ _ _ _ => true
  | .inval _ _ _ _ => true
  | .fence ord _ => decide (ord ≠ .plain)
  | .spb d _ _ _ cnt _ => decide (d.toNat + cnt.toNat ≤ 63)
  | .fla d _ _ _ cnt _ => decide (d.toNat + cnt.toNat ≤ 63)
  | .spw => true
  | .copy _ _ _ _ _ _ rnd _ _ => decide (rnd ≠ .sr)
  | .ctest _ _ => true
  | .cwait _ _ => true
  | .amoadd _ _ _ _ size ord scope _ => decide ((2 ≤ size.toNat) ∧ ((ord = .plain → scope = .str)))
  | .amomin _ _ _ _ size ord scope _ => decide ((2 ≤ size.toNat) ∧ ((ord = .plain → scope = .str)))
  | .amomax _ _ _ _ size ord scope _ => decide ((2 ≤ size.toNat) ∧ ((ord = .plain → scope = .str)))
  | .amoand _ _ _ _ size ord scope _ => decide ((2 ≤ size.toNat) ∧ ((ord = .plain → scope = .str)))
  | .amoor _ _ _ _ size ord scope _ => decide ((2 ≤ size.toNat) ∧ ((ord = .plain → scope = .str)))
  | .amoxor _ _ _ _ size ord scope _ => decide ((2 ≤ size.toNat) ∧ ((ord = .plain → scope = .str)))
  | .amoswap _ _ _ _ size ord scope _ => decide ((2 ≤ size.toNat) ∧ ((ord = .plain → scope = .str)))
  | .cas _ _ _ _ size ord scope _ => decide ((2 ≤ size.toNat) ∧ ((ord = .plain → scope = .str)))
  | .amofaddF32 _ _ _ _ ord scope _ => decide ((ord = .plain → scope = .str))
  | .amoaddSpad _ _ _ _ size ord scope _ => decide ((2 ≤ size.toNat) ∧ ((ord = .plain → scope = .str) ∧ (ord ≠ .plain → scope.isLocal = true)))
  | .amominSpad _ _ _ _ size ord scope _ => decide ((2 ≤ size.toNat) ∧ ((ord = .plain → scope = .str) ∧ (ord ≠ .plain → scope.isLocal = true)))
  | .amomaxSpad _ _ _ _ size ord scope _ => decide ((2 ≤ size.toNat) ∧ ((ord = .plain → scope = .str) ∧ (ord ≠ .plain → scope.isLocal = true)))
  | .amoandSpad _ _ _ _ size ord scope _ => decide ((2 ≤ size.toNat) ∧ ((ord = .plain → scope = .str) ∧ (ord ≠ .plain → scope.isLocal = true)))
  | .amoorSpad _ _ _ _ size ord scope _ => decide ((2 ≤ size.toNat) ∧ ((ord = .plain → scope = .str) ∧ (ord ≠ .plain → scope.isLocal = true)))
  | .amoxorSpad _ _ _ _ size ord scope _ => decide ((2 ≤ size.toNat) ∧ ((ord = .plain → scope = .str) ∧ (ord ≠ .plain → scope.isLocal = true)))
  | .amoswapSpad _ _ _ _ size ord scope _ => decide ((2 ≤ size.toNat) ∧ ((ord = .plain → scope = .str) ∧ (ord ≠ .plain → scope.isLocal = true)))
  | .casSpad _ _ _ _ size ord scope _ => decide ((2 ≤ size.toNat) ∧ ((ord = .plain → scope = .str) ∧ (ord ≠ .plain → scope.isLocal = true)))
  | .amofaddF32Spad _ _ _ _ ord scope _ => decide ((ord = .plain → scope = .str) ∧ (ord ≠ .plain → scope.isLocal = true))
  | .qpush _ a cnt => decide (a.toNat + cnt.toNat ≤ 63)
  | .qpushI _ _ => true
  | .qpushs _ a cnt => decide (a.toNat + cnt.toNat ≤ 63)
  | .qpushsI _ _ => true
  | .qpop d _ cnt => decide (d.toNat + cnt.toNat ≤ 63)
  | .qpeek d _ cnt => decide (d.toNat + cnt.toNat ≤ 63)
  | .qtry d _ _ cnt => decide (d.toNat + cnt.toNat ≤ 63)
  | .qstat _ _ => true
  | .chsend _ a cnt => decide (a.toNat + cnt.toNat ≤ 63)
  | .chsendI _ _ => true
  | .chrecv d _ cnt => decide (d.toNat + cnt.toNat ≤ 63)
  | .cbwaitF _ _ => true
  | .cbwaitFI _ n => decide (n.toNat ≤ 4096)
  | .cbwaitE _ _ => true
  | .cbwaitEI _ n => decide (n.toNat ≤ 4096)
  | .cbadvP _ _ => true
  | .cbadvPI _ n => decide (n.toNat ≤ 4096)
  | .cbadvC _ _ => true
  | .cbadvCI _ n => decide (n.toNat ≤ 4096)
  | .cbset _ _ _ => true
  | .cbget _ _ _ => true
  | .vcfg _ => true
  | .vcfgI _ => true
  | .vrunHh _ _ _ _ _ => true
  | .vrunHq _ _ _ _ _ => true
  | .vrunQh _ _ _ _ _ => true
  | .vrunQq _ _ _ _ => true
  | .vloop _ _ => true
  | .vloopI _ _ => true
  | .vend _ => true
  | .vsync => true
  | .iload _ _ => true
  | .irunH _ _ _ => true
  | .irunQ _ _ _ => true
  | .idrain _ _ _ => true
  | .istat _ sel => decide (sel.toNat ≤ 4)
  | .iunload _ => true
  | .nsend a _ nm1 => decide (a.toNat + nm1.toNat ≤ 63)
  | .nsendH _ _ ns => decide (ns.toNat ≤ 4096)
  | .nrecv d _ nm1 => decide (d.toNat + nm1.toNat ≤ 63)
  | .nrecvH _ _ ns => decide (ns.toNat ≤ 4096)
  | .nred a _ nm1 => decide (a.toNat + nm1.toNat ≤ 63)
  | .nredH _ _ ns => decide (ns.toNat ≤ 4096)
  | .nbcast a _ nm1 => decide (a.toNat + nm1.toNat ≤ 63)
  | .nbcastH _ _ ns => decide (ns.toNat ≤ 4096)
  | .ntok _ => true
  | .ntokI _ => true
  | .narm _ _ _ => true
  | .narmI _ _ => true
  | .nfence => true
  | .vnwait _ _ mask => decide (mask ≠ 0)
  | .vnrel _ => true
  | .vnrelI _ => true
  | .bar _ _ _ => true
  | .barI _ _ _ _ => true
  | .pvget _ _ => true
  | .pvgetI _ _ => true
  | .pvpin _ _ => true
  | .pvunpin _ => true
  | .pvpubRes _ _ => true
  | .pvpubCom _ _ => true
  | .pvswitch _ _ => true
  | .pvtag _ _ => true
  | .stash _ _ => true
  | .unstash _ _ _ => true
  | .srseed _ _ => true
  | .gradarm _ => true
  | .trap _ => true
  | .trapI _ => true
  | .eret => true
  | .krd _ _ => true
  | .kwr _ _ => true
  | .tlbinv _ => true
  | .tlbinvr _ _ => true
  | .shoot _ _ _ => true
  | .freeze _ _ => true
  | .thaw _ _ => true
  | .featrd _ _ => true
  | .featrdI _ _ => true
  | .brk _ => true
  | .dhalt _ => true
  | .dresume _ => true
  | .bwdderive _ _ _ _ => true
  | .deferredFaultDelivery => true
  | .firingDispatch _ => true
  | .engineFiringCommit _ _ => true
  | .channelTokenArrival _ _ => true
  | .freeSpaceReturn _ _ => true
  | .seedWindowWrite _ _ => true
  | .seedDelivery _ => true
  | .resultPortPop _ _ => true
  | .streamPortPush _ _ => true
  | .collectPortPop _ _ => true
  | .spindleEntryExecute _ => true
  | .matrixEntryExecute _ => true
  | .maccReexecute _ _ => true
  | .quartetJoin _ => true
  | .inlayEntryExecute _ => true
  | .networkQueueEntry _ => true
  | .meshPacketHop _ _ _ => true
  | .routerCombine _ _ => true
  | .linkFlitRetry _ _ _ => true
  | .ntokArrival _ => true
  | .chunkFire _ _ => true
  | .faceplateBlockSend _ _ => true
  | .lightBlockHeaderArrive _ _ => true
  | .lightBlockLanded _ _ _ => true
  | .releaseTokenArrive _ _ => true
  | .faceplatePatternEnd _ _ => true
  | .passBoundarySwitch _ _ => true
  | .barrierPass _ _ => true
  | .gradarmArrive _ => true
  | .copyOperation _ => true
  | .spillTransfer _ _ => true
  | .pageWalk _ _ _ _ => true
  | .faultBufferFlush _ => true
  | .faultRecordResend _ _ => true
  | .faultQueueWrite _ => true
  | .pageAnswer _ _ => true
  | .victimEvict _ => true
  | .victimRecall _ _ => true
  | .regionFreeze _ => true
  | .thawRestore _ _ => true
  | .debugHalt _ _ _ => true
  | .debugResume _ _ _ => true
  | .debugStep _ _ _ => true
  | .debugRead _ _ _ _ => true
  | .debugWrite _ _ _ _ _ => true
  | .debugHeadreplace _ _ _ _ _ _ _ => true
  | .debugWatchdog _ _ => true
  | .watchdogExpire _ _ => true
  | .launchRecord _ => true
  | .endRecord _ => true
  | .launchIntake => true
  | .placementReserve => true
  | .placementCommit => true
  | .placementLoad _ => true
  | .configCompleteWave _ => true
  | .waveAcknowledge _ => true
  | .regionEnd _ => true
  | .chainedCommit _ => true
  | .stashRelief _ => true
  | .versionLag _ => true
  | .gridRetire => true
  | .colourRetire _ _ => true
  | .linkTrain _ _ _ => true
  | .linkPacketReceive _ _ _ _ _ _ => true
  | .topoGrant _ _ _ => true
  | .topoCommit _ _ => true
  | .topoDeny _ => true
  | .topoMessageTimeout _ => true
  | .shootAckTimeout _ _ => true
  | .shootAcknowledge _ _ => true
  | .leaseOpenTimeout _ => true
  | .leaseExpire _ => true
  | .circuitClose _ => true
  | .ctxCreate _ => true
  | .ctxKill _ => true
  | .ctxSavearea _ => true
  | .ctxDebug _ => true
  | .hostFreeze _ => true
  | .hostThaw _ => true
  | .pvPlace _ => true
  | .leaseOpen _ => true
  | .leaseRenew _ => true
  | .topoRequest _ => true
  | .colourSplit _ _ => true
  | .quotaSet _ => true
  | .measureExtend _ => true
  | .mapWrite _ _ => true
  | .acceptWrite _ _ => true
  | .registerWrite _ _ => true
  | .eventQueueAdvance => true
  | .attestRequest => true
  | .attestComplete => true
  | .boot _ => true
  | .thermal _ => true
  | .powerCapStep => true
  | .fillDrainPortTransfer _ _ => true
  | .powerDown => true
  | .linkDown _ => true
  | .leasePeerOpen _ _ _ _ => true

/-- A well-formed instruction: no field holds a reserved modifier value. -/
abbrev WellFormed (i : Instr) : Prop := wellFormed i = true

end Sys2Proof
end

