-- ==== Sys2Proof/Decode.lean ====
section
/-!
DEFINITION. Decoding of a 64-bit instruction word (03_encoding_and_assembly.md R85 to R99), total on every word, and the
encoder written from the same tables. A word that is no instruction is rejected by the name of the decode check of R97 that
it fails. Checks that need the machine's state (feature bits, KSTATUS.RM, privilege) stand with the meanings.
-/
namespace Sys2Proof

/-- One bit as a bit vector. -/
def bit (b : Bool) : BitVec 1 := BitVec.ofBool b

/-- Code of a rounding mode (R89). -/
def Rnd.code : Rnd → BitVec 3
  | .rne => 0 | .rtz => 1 | .rup => 2 | .rdn => 3 | .sr => 4 | .dyn => 7

/-- Rounding mode of a code; 5 and 6 are reserved (R89). -/
def Rnd.ofCode (c : BitVec 3) : Option Rnd :=
  match c.toNat with
  | 0 => some .rne | 1 => some .rtz | 2 => some .rup | 3 => some .rdn | 4 => some .sr | 7 => some .dyn
  | _ => none

/-- Code of a CMP condition (Table 3.4). -/
def Cond.code : Cond → BitVec 4
  | .eq => 0 | .ne => 1 | .lt => 2 | .le => 3 | .gt => 4 | .ge => 5 | .ltu => 6 | .leu => 7 | .gtu => 8 | .geu => 9

/-- CMP condition of a code; 10 to 15 are reserved. -/
def Cond.ofCode (c : BitVec 4) : Option Cond :=
  match c.toNat with
  | 0 => some .eq | 1 => some .ne | 2 => some .lt | 3 => some .le | 4 => some .gt | 5 => some .ge
  | 6 => some .ltu | 7 => some .leu | 8 => some .gtu | 9 => some .geu
  | _ => none

/-- Code of an FCMP condition (Table 3.4). -/
def FCond.code : FCond → BitVec 4
  | .eq => 0 | .ne => 1 | .lt => 2 | .le => 3 | .gt => 4 | .ge => 5 | .un => 6 | .or => 7

/-- FCMP condition of a code; 8 to 15 are reserved. -/
def FCond.ofCode (c : BitVec 4) : Option FCond :=
  match c.toNat with
  | 0 => some .eq | 1 => some .ne | 2 => some .lt | 3 => some .le | 4 => some .gt | 5 => some .ge
  | 6 => some .un | 7 => some .or
  | _ => none

/-- Conversion format code (R90). -/
def CvtFmt.code : CvtFmt → BitVec 4
  | .fp32 => 0 | .fp16 => 1 | .bf16 => 2 | .log6 => 3 | .int4 => 4 | .int8 => 5 | .int16 => 6 | .int32 => 7 | .int64 => 8

/-- Conversion format of a code; 9 to 15 are reserved (R90). -/
def CvtFmt.ofCode (c : BitVec 4) : Option CvtFmt :=
  match c.toNat with
  | 0 => some .fp32 | 1 => some .fp16 | 2 => some .bf16 | 3 => some .log6 | 4 => some .int4
  | 5 => some .int8 | 6 => some .int16 | 7 => some .int32 | 8 => some .int64
  | _ => none

/-- Matrix format code (R208). -/
def MFmt.code : MFmt → BitVec 4
  | .fp32 => 0 | .fp16 => 1 | .bf16 => 2 | .log6 => 3 | .int4 => 4 | .int8 => 5

/-- Matrix format of a code; 6 to 15 are reserved (R208). -/
def MFmt.ofCode (c : BitVec 4) : Option MFmt :=
  match c.toNat with
  | 0 => some .fp32 | 1 => some .fp16 | 2 => some .bf16 | 3 => some .log6 | 4 => some .int4 | 5 => some .int8
  | _ => none

/-- MDRAIN format code (R216). -/
def DFmt.code : DFmt → BitVec 4
  | .fp32 => 0 | .fp16 => 1 | .bf16 => 2 | .log6 => 3 | .int8 => 5 | .int32 => 7

/-- MDRAIN format of a code; every value R216 does not list is reserved. -/
def DFmt.ofCode (c : BitVec 4) : Option DFmt :=
  match c.toNat with
  | 0 => some .fp32 | 1 => some .fp16 | 2 => some .bf16 | 3 => some .log6 | 5 => some .int8 | 7 => some .int32
  | _ => none

/-- IDRAIN format code (R235). -/
def NFmt.code : NFmt → BitVec 2
  | .int32 => 0 | .int16 => 1 | .int8 => 2

/-- IDRAIN format of a code; 3 is reserved (R235). -/
def NFmt.ofCode (c : BitVec 2) : Option NFmt :=
  match c.toNat with
  | 0 => some .int32 | 1 => some .int16 | 2 => some .int8
  | _ => none

/-- Order code (Table 3.5). -/
def Ord.code : Ord → BitVec 2
  | .plain => 0 | .acq => 1 | .rel => 2 | .ar => 3

/-- Order of a code (Table 3.5). -/
def Ord.ofCode (c : BitVec 2) : Option Ord :=
  match c.toNat with
  | 0 => some .plain | 1 => some .acq | 2 => some .rel | _ => some .ar

/-- Scope code (Table 3.5). -/
def Scope.code : Scope → BitVec 3
  | .str => 0 | .til => 1 | .clu => 2 | .waf => 3 | .dom => 4

/-- Scope of a code; 5 to 7 are reserved (R93). -/
def Scope.ofCode (c : BitVec 3) : Option Scope :=
  match c.toNat with
  | 0 => some .str | 1 => some .til | 2 => some .clu | 3 => some .waf | 4 => some .dom
  | _ => none

/-- The fields of an instruction word (Table 3.1). -/
structure Fields where
  opc : BitVec 9
  d : BitVec 6
  a : BitVec 6
  b : BitVec 6
  low : BitVec 33
deriving DecidableEq, Repr

/-- A word put together from its fields (Table 3.1). -/
def mkWord (opc : BitVec 9) (gd : Guard) (d a b : BitVec 6) (low : BitVec 33) : BitVec 64 :=
  opc ++ bit gd.neg ++ gd.p ++ d ++ a ++ b ++ low

/-- The fields of a word (Table 3.1). -/
def fieldsOf (w : BitVec 64) : Fields where
  opc := w.extractLsb' 55 9
  d := w.extractLsb' 45 6
  a := w.extractLsb' 39 6
  b := w.extractLsb' 33 6
  low := w.extractLsb' 0 33

/-- The guard of a word (R86): PN in bit 54, PI in bits 53 to 51. -/
def guardOf (w : BitVec 64) : Guard := ⟨w.getLsbD 54, w.extractLsb' 51 3⟩

/-- What decoding answers: an instruction, or the check of R97 that the word fails. -/
inductive Decoded where
  | ok (i : Instr)
  | illegalOpcode
  | reservedField
  | illegalModifier
deriving DecidableEq, Repr

/-- Check 2 of R97: every bit that must be 0 is 0. -/
def zeros (ok : Bool) (k : Decoded) : Decoded := if ok then k else .reservedField

/-- Check 3 of R97 for a field with a table of defined values. -/
def withMod {α : Type} (m : Option α) (k : α → Decoded) : Decoded :=
  match m with
  | some x => k x
  | none => .illegalModifier

/-- Check 3 of R97 for a single value. -/
def needMod (ok : Bool) (k : Decoded) : Decoded := if ok then k else .illegalModifier

/-- OPB of a VRUN: the register, or zero (Table 6.8). -/
def RunLen.fieldB : RunLen → BitVec 6
  | .reg b => b
  | .imm _ => 0#6

/-- Bit NREG of a VRUN (Table 6.8). -/
def RunLen.fieldNreg : RunLen → BitVec 1
  | .reg _ => 1#1
  | .imm _ => 0#1

/-- N16 of a VRUN (Table 6.8). -/
def RunLen.fieldN16 : RunLen → BitVec 16
  | .reg _ => 0#16
  | .imm n => n

/-- The element count named by a VRUN's fields (Table 6.8). -/
def RunLen.ofFields (f : Fields) : RunLen :=
  if f.low.getLsbD 31 then .reg f.b else .imm (f.low.extractLsb' 0 16)

/-- The zero fields of a VRUN's count (Table 6.8). -/
def RunLen.zeroOk (f : Fields) : Bool :=
  if f.low.getLsbD 31 then f.low.extractLsb' 0 16 == 0#16 else f.b == 0#6

/-- OPD of MDRAIN and IDRAIN. -/
def Dest.field : Dest → BitVec 6
  | .ring h => 0#2 ++ h
  | .queue q => 0#1 ++ q

/-- Bit DQ of MDRAIN and IDRAIN (R216, R235). -/
def Dest.flag : Dest → BitVec 1
  | .ring _ => 0#1
  | .queue _ => 1#1

/-- Whether DQ is set: bit [24] of MDRAIN (0x14A), bit [29] of IDRAIN (0x153). -/
def Dest.isQueue (f : Fields) : Bool :=
  if f.opc == 0x14A#9 then f.low.getLsbD 24 else f.low.getLsbD 29

/-- The destination named by the fields of MDRAIN or IDRAIN. -/
def Dest.ofFields (f : Fields) : Dest :=
  if Dest.isQueue f then .queue (f.d.extractLsb' 0 5) else .ring (f.d.extractLsb' 0 4)

/-- The zero bits of the destination operand (R87). -/
def Dest.zeroOk (f : Fields) : Bool :=
  if Dest.isQueue f then f.d.extractLsb' 5 1 == 0#1 else f.d.extractLsb' 4 2 == 0#2

/-- OPA of VNWAIT (R256). -/
def VnSel.field : VnSel → BitVec 6
  | .expected a => a
  | .any => 0#6

/-- Bit ANY of VNWAIT (R256). -/
def VnSel.flag : VnSel → BitVec 1
  | .expected _ => 0#1
  | .any => 1#1

/-- What the fields of VNWAIT name (R256). -/
def VnSel.ofFields (f : Fields) : VnSel :=
  if f.low.getLsbD 28 then .any else .expected f.a

/-- OPA is zero with ANY (R256). -/
def VnSel.zeroOk (f : Fields) : Bool := !f.low.getLsbD 28 || f.a == 0#6

/-- Width in bits of an integer conversion format code, 0 for a code that is no integer format (R90). -/
def intCodeBits (c : Nat) : Nat :=
  if c = 4 then 4 else if c = 5 then 8 else if c = 6 then 16 else if c = 7 then 32 else if c = 8 then 64 else 0

/-- SAT of FCVT is 0 except for integer-to-integer narrowing (R90). -/
def cvtSatOk (f : Fields) : Bool :=
  !f.low.getLsbD 23 ||
    (let s := intCodeBits (f.b.extractLsb' 0 4).toNat
     let d := intCodeBits (f.low.extractLsb' 27 4).toNat
     decide (0 < d ∧ d < s))

/-- The word of an instruction under the encoding tables of 03_encoding_and_assembly.md to 08_network_version_system.md;
none for a step that has no word. -/
def encode (gd : Guard) : Instr → Option (BitVec 64)
  | .mldsS a mf plane => some (mkWord 0x140 gd (0#6) (0#4 ++ a) (0#6) (mf.code ++ plane ++ 0#26))
  | .mldsH a mf => some (mkWord 0x141 gd (0#6) (0#2 ++ a) (0#6) (mf.code ++ 0#29))
  | .mswap => some (mkWord 0x142 gd (0#6) (0#6) (0#6) (0#33))
  | .maccNH d a af rowb nm1 => some (mkWord 0x143 gd (0#4 ++ d) (0#2 ++ a) (0#6) (af.code ++ rowb ++ nm1 ++ 0#19))
  | .maccNQ d a af rowb nm1 => some (mkWord 0x144 gd (0#4 ++ d) (0#1 ++ a) (0#6) (af.code ++ rowb ++ nm1 ++ 0#19))
  | .maccTH d a af rowb nm1 => some (mkWord 0x145 gd (0#4 ++ d) (0#2 ++ a) (0#6) (af.code ++ rowb ++ nm1 ++ 0#19))
  | .maccTQ d a af rowb nm1 => some (mkWord 0x146 gd (0#4 ++ d) (0#1 ++ a) (0#6) (af.code ++ rowb ++ nm1 ++ 0#19))
  | .mzero d => some (mkWord 0x147 gd (0#4 ++ d) (0#6) (0#6) (0#33))
  | .mscale a tgt => some (mkWord 0x148 gd (0#6) (a) (0#6) (bit tgt ++ 0#32))
  | .mscaleI tgt e => some (mkWord 0x149 gd (0#6) (0#6) (0#6) (0#24 ++ bit tgt ++ e))
  | .mdrain dst a df rnd zero => some (mkWord 0x14a gd (dst.field) (0#4 ++ a) (0#6) (df.code ++ rnd.code ++ bit zero ++ dst.flag ++ 0#24))
  | .mgang mask => some (mkWord 0x14b gd (0#6) (0#6) (0#6) (mask ++ 0#29))
  | .mperm a => some (mkWord 0x14c gd (0#6) (a) (0#6) (0#33))
  | .mxchg d a => some (mkWord 0x14d gd (0#4 ++ d) (0#4 ++ a) (0#6) (0#33))
  | .add d a b => some (mkWord 0x000 gd (d) (a) (b) (0#33))
  | .addI d a imm => some (mkWord 0x001 gd (d) (a) (0#6) (0#1 ++ imm))
  | .sub d a b => some (mkWord 0x002 gd (d) (a) (b) (0#33))
  | .subI d a imm => some (mkWord 0x003 gd (d) (a) (0#6) (0#1 ++ imm))
  | .mul d a b => some (mkWord 0x004 gd (d) (a) (b) (0#33))
  | .mulI d a imm => some (mkWord 0x005 gd (d) (a) (0#6) (0#1 ++ imm))
  | .mulh d a b s => some (mkWord 0x006 gd (d) (a) (b) (0#12 ++ bit s ++ 0#20))
  | .mulhI d a s imm => some (mkWord 0x007 gd (d) (a) (0#5 ++ bit s) (0#1 ++ imm))
  | .div d a b s => some (mkWord 0x008 gd (d) (a) (b) (0#12 ++ bit s ++ 0#20))
  | .divI d a s imm => some (mkWord 0x009 gd (d) (a) (0#5 ++ bit s) (0#1 ++ imm))
  | .rem d a b s => some (mkWord 0x00a gd (d) (a) (b) (0#12 ++ bit s ++ 0#20))
  | .remI d a s imm => some (mkWord 0x00b gd (d) (a) (0#5 ++ bit s) (0#1 ++ imm))
  | .and d a b => some (mkWord 0x00c gd (d) (a) (b) (0#33))
  | .andI d a imm => some (mkWord 0x00d gd (d) (a) (0#6) (0#1 ++ imm))
  | .or d a b => some (mkWord 0x00e gd (d) (a) (b) (0#33))
  | .orI d a imm => some (mkWord 0x00f gd (d) (a) (0#6) (0#1 ++ imm))
  | .xor d a b => some (mkWord 0x010 gd (d) (a) (b) (0#33))
  | .xorI d a imm => some (mkWord 0x011 gd (d) (a) (0#6) (0#1 ++ imm))
  | .andn d a b => some (mkWord 0x012 gd (d) (a) (b) (0#33))
  | .andnI d a imm => some (mkWord 0x013 gd (d) (a) (0#6) (0#1 ++ imm))
  | .shl d a b => some (mkWord 0x014 gd (d) (a) (b) (0#33))
  | .shlI d a imm => some (mkWord 0x015 gd (d) (a) (0#6) (0#1 ++ imm))
  | .shr d a b => some (mkWord 0x016 gd (d) (a) (b) (0#33))
  | .shrI d a imm => some (mkWord 0x017 gd (d) (a) (0#6) (0#1 ++ imm))
  | .sar d a b => some (mkWord 0x018 gd (d) (a) (b) (0#33))
  | .sarI d a imm => some (mkWord 0x019 gd (d) (a) (0#6) (0#1 ++ imm))
  | .rot d a b => some (mkWord 0x01a gd (d) (a) (b) (0#33))
  | .rotI d a imm => some (mkWord 0x01b gd (d) (a) (0#6) (0#1 ++ imm))
  | .min d a b s => some (mkWord 0x01c gd (d) (a) (b) (0#12 ++ bit s ++ 0#20))
  | .minI d a s imm => some (mkWord 0x01d gd (d) (a) (0#5 ++ bit s) (0#1 ++ imm))
  | .max d a b s => some (mkWord 0x01e gd (d) (a) (b) (0#12 ++ bit s ++ 0#20))
  | .maxI d a s imm => some (mkWord 0x01f gd (d) (a) (0#5 ++ bit s) (0#1 ++ imm))
  | .cmp d a b cond => some (mkWord 0x020 gd (0#3 ++ d) (a) (b) (0#9 ++ cond.code ++ 0#20))
  | .cmpI d a cond imm => some (mkWord 0x021 gd (0#3 ++ d) (a) (0#2 ++ cond.code) (0#1 ++ imm))
  | .sel d a b neg k => some (mkWord 0x022 gd (d) (a) (b) (0#9 ++ bit neg ++ k ++ 0#20))
  | .selI d a neg k imm => some (mkWord 0x023 gd (d) (a) (0#2 ++ bit neg ++ k) (0#1 ++ imm))
  | .padd d a b => some (mkWord 0x024 gd (d) (a) (b) (0#33))
  | .paddI d a imm => some (mkWord 0x025 gd (d) (a) (0#6) (0#1 ++ imm))
  | .psub d a b => some (mkWord 0x026 gd (d) (a) (b) (0#33))
  | .psubI d a imm => some (mkWord 0x027 gd (d) (a) (0#6) (0#1 ++ imm))
  | .clz d a => some (mkWord 0x028 gd (d) (a) (0#6) (0#33))
  | .popc d a => some (mkWord 0x029 gd (d) (a) (0#6) (0#33))
  | .mov d a => some (mkWord 0x02a gd (d) (a) (0#6) (0#33))
  | .movi d imm => some (mkWord 0x02b gd (d) (0#6) (0#6) (0#1 ++ imm))
  | .movhi d a imm => some (mkWord 0x02c gd (d) (a) (0#6) (0#1 ++ imm))
  | .extb d a pos len => some (mkWord 0x02d gd (d) (a) (pos) (len ++ 0#27))
  | .insb d a pos len => some (mkWord 0x02e gd (d) (a) (pos) (len ++ 0#27))
  | .sext d a n => some (mkWord 0x02f gd (d) (a) (n) (0#33))
  | .zext d a n => some (mkWord 0x030 gd (d) (a) (n) (0#33))
  | .pfmt d a fmt blk => some (mkWord 0x031 gd (d) (a) (0#1 ++ fmt) (0#3 ++ blk ++ 0#27))
  | .pmeta d a => some (mkWord 0x032 gd (d) (a) (0#6) (0#33))
  | .pchk d a fmt => some (mkWord 0x033 gd (0#3 ++ d) (a) (0#1 ++ fmt) (0#33))
  | .pand d a b => some (mkWord 0x034 gd (0#3 ++ d) (0#3 ++ a) (0#3 ++ b) (0#33))
  | .por d a b => some (mkWord 0x035 gd (0#3 ++ d) (0#3 ++ a) (0#3 ++ b) (0#33))
  | .pxor d a b => some (mkWord 0x036 gd (0#3 ++ d) (0#3 ++ a) (0#3 ++ b) (0#33))
  | .pnot d a => some (mkWord 0x037 gd (0#3 ++ d) (0#3 ++ a) (0#6) (0#33))
  | .addW d a b => some (mkWord 0x038 gd (d) (a) (b) (0#33))
  | .addWI d a imm => some (mkWord 0x039 gd (d) (a) (0#6) (0#1 ++ imm))
  | .subW d a b => some (mkWord 0x03a gd (d) (a) (b) (0#33))
  | .mulW d a b => some (mkWord 0x03b gd (d) (a) (b) (0#33))
  | .mulWI d a imm => some (mkWord 0x03c gd (d) (a) (0#6) (0#1 ++ imm))
  | .shlW d a b => some (mkWord 0x03d gd (d) (a) (b) (0#33))
  | .shrW d a b => some (mkWord 0x03e gd (d) (a) (b) (0#33))
  | .sarW d a b => some (mkWord 0x03f gd (d) (a) (b) (0#33))
  | .br hint off => some (mkWord 0x040 gd (0#6) (0#6) (0#6) (bit hint ++ off))
  | .brp a neg hint off => some (mkWord 0x041 gd (0#6) (0#3 ++ a) (0#5 ++ bit neg) (bit hint ++ off))
  | .call d hint off => some (mkWord 0x042 gd (d) (0#6) (0#6) (bit hint ++ off))
  | .ret a => some (mkWord 0x043 gd (0#6) (a) (0#6) (0#33))
  | .jmpr d a => some (mkWord 0x044 gd (d) (a) (0#6) (0#33))
  | .yield => some (mkWord 0x045 gd (0#6) (0#6) (0#6) (0#33))
  | .waitany d mask => some (mkWord 0x046 gd (d) (0#6) (0#6) (0#1 ++ mask))
  | .endfire => some (mkWord 0x047 gd (0#6) (0#6) (0#6) (0#33))
  | .faddF32 d a b rnd => some (mkWord 0x048 gd (d) (a) (b) (0#6 ++ rnd.code ++ 0#24))
  | .faddF32I d a rnd imm => some (mkWord 0x049 gd (d) (a) (0#3 ++ rnd.code) (0#1 ++ imm))
  | .fsubF32 d a b rnd => some (mkWord 0x04a gd (d) (a) (b) (0#6 ++ rnd.code ++ 0#24))
  | .fsubF32I d a rnd imm => some (mkWord 0x04b gd (d) (a) (0#3 ++ rnd.code) (0#1 ++ imm))
  | .fmulF32 d a b rnd => some (mkWord 0x04c gd (d) (a) (b) (0#6 ++ rnd.code ++ 0#24))
  | .fmulF32I d a rnd imm => some (mkWord 0x04d gd (d) (a) (0#3 ++ rnd.code) (0#1 ++ imm))
  | .ffmaF32 d a b c rnd => some (mkWord 0x04e gd (d) (a) (b) (c ++ rnd.code ++ 0#24))
  | .fdivF32 d a b rnd => some (mkWord 0x04f gd (d) (a) (b) (0#6 ++ rnd.code ++ 0#24))
  | .fsqrtF32 d a rnd => some (mkWord 0x050 gd (d) (a) (0#6) (0#6 ++ rnd.code ++ 0#24))
  | .frsqrtF32 d a => some (mkWord 0x051 gd (d) (a) (0#6) (0#33))
  | .fexp2F32 d a => some (mkWord 0x052 gd (d) (a) (0#6) (0#33))
  | .flog2F32 d a => some (mkWord 0x053 gd (d) (a) (0#6) (0#33))
  | .fsinF32 d a => some (mkWord 0x054 gd (d) (a) (0#6) (0#33))
  | .fcosF32 d a => some (mkWord 0x055 gd (d) (a) (0#6) (0#33))
  | .fminF32 d a b => some (mkWord 0x056 gd (d) (a) (b) (0#33))
  | .fminF32I d a imm => some (mkWord 0x057 gd (d) (a) (0#6) (0#1 ++ imm))
  | .fmaxF32 d a b => some (mkWord 0x058 gd (d) (a) (b) (0#33))
  | .fmaxF32I d a imm => some (mkWord 0x059 gd (d) (a) (0#6) (0#1 ++ imm))
  | .fcmpF32 d a b cond => some (mkWord 0x05a gd (0#3 ++ d) (a) (b) (0#9 ++ cond.code ++ 0#20))
  | .fcmpF32I d a cond imm => some (mkWord 0x05b gd (0#3 ++ d) (a) (0#2 ++ cond.code) (0#1 ++ imm))
  | .fclassF32 d a => some (mkWord 0x05c gd (d) (a) (0#6) (0#33))
  | .fcvt d a src dst sat rnd => some (mkWord 0x05d gd (d) (a) (0#2 ++ src.code) (0#2 ++ dst.code ++ rnd.code ++ bit sat ++ 0#23))
  | .fabsF32 d a => some (mkWord 0x05e gd (d) (a) (0#6) (0#33))
  | .fnegF32 d a => some (mkWord 0x05f gd (d) (a) (0#6) (0#33))
  | .faddF16 d a b rnd => some (mkWord 0x060 gd (d) (a) (b) (0#6 ++ rnd.code ++ 0#24))
  | .fsubF16 d a b rnd => some (mkWord 0x061 gd (d) (a) (b) (0#6 ++ rnd.code ++ 0#24))
  | .fmulF16 d a b rnd => some (mkWord 0x062 gd (d) (a) (b) (0#6 ++ rnd.code ++ 0#24))
  | .ffmaF16 d a b c rnd => some (mkWord 0x063 gd (d) (a) (b) (c ++ rnd.code ++ 0#24))
  | .fdivF16 d a b rnd => some (mkWord 0x064 gd (d) (a) (b) (0#6 ++ rnd.code ++ 0#24))
  | .fsqrtF16 d a rnd => some (mkWord 0x065 gd (d) (a) (0#6) (0#6 ++ rnd.code ++ 0#24))
  | .frsqrtF16 d a rnd => some (mkWord 0x066 gd (d) (a) (0#6) (0#6 ++ rnd.code ++ 0#24))
  | .fexp2F16 d a rnd => some (mkWord 0x067 gd (d) (a) (0#6) (0#6 ++ rnd.code ++ 0#24))
  | .flog2F16 d a rnd => some (mkWord 0x068 gd (d) (a) (0#6) (0#6 ++ rnd.code ++ 0#24))
  | .fsinF16 d a rnd => some (mkWord 0x069 gd (d) (a) (0#6) (0#6 ++ rnd.code ++ 0#24))
  | .fcosF16 d a rnd => some (mkWord 0x06a gd (d) (a) (0#6) (0#6 ++ rnd.code ++ 0#24))
  | .fminF16 d a b => some (mkWord 0x06b gd (d) (a) (b) (0#33))
  | .fmaxF16 d a b => some (mkWord 0x06c gd (d) (a) (b) (0#33))
  | .fcmpF16 d a b cond => some (mkWord 0x06d gd (0#3 ++ d) (a) (b) (0#9 ++ cond.code ++ 0#20))
  | .fclassF16 d a => some (mkWord 0x06e gd (d) (a) (0#6) (0#33))
  | .faddBf16 d a b rnd => some (mkWord 0x070 gd (d) (a) (b) (0#6 ++ rnd.code ++ 0#24))
  | .fsubBf16 d a b rnd => some (mkWord 0x071 gd (d) (a) (b) (0#6 ++ rnd.code ++ 0#24))
  | .fmulBf16 d a b rnd => some (mkWord 0x072 gd (d) (a) (b) (0#6 ++ rnd.code ++ 0#24))
  | .ffmaBf16 d a b c rnd => some (mkWord 0x073 gd (d) (a) (b) (c ++ rnd.code ++ 0#24))
  | .fdivBf16 d a b rnd => some (mkWord 0x074 gd (d) (a) (b) (0#6 ++ rnd.code ++ 0#24))
  | .fsqrtBf16 d a rnd => some (mkWord 0x075 gd (d) (a) (0#6) (0#6 ++ rnd.code ++ 0#24))
  | .frsqrtBf16 d a rnd => some (mkWord 0x076 gd (d) (a) (0#6) (0#6 ++ rnd.code ++ 0#24))
  | .fexp2Bf16 d a rnd => some (mkWord 0x077 gd (d) (a) (0#6) (0#6 ++ rnd.code ++ 0#24))
  | .flog2Bf16 d a rnd => some (mkWord 0x078 gd (d) (a) (0#6) (0#6 ++ rnd.code ++ 0#24))
  | .fsinBf16 d a rnd => some (mkWord 0x079 gd (d) (a) (0#6) (0#6 ++ rnd.code ++ 0#24))
  | .fcosBf16 d a rnd => some (mkWord 0x07a gd (d) (a) (0#6) (0#6 ++ rnd.code ++ 0#24))
  | .fminBf16 d a b => some (mkWord 0x07b gd (d) (a) (b) (0#33))
  | .fmaxBf16 d a b => some (mkWord 0x07c gd (d) (a) (b) (0#33))
  | .fcmpBf16 d a b cond => some (mkWord 0x07d gd (0#3 ++ d) (a) (b) (0#9 ++ cond.code ++ 0#20))
  | .fclassBf16 d a => some (mkWord 0x07e gd (d) (a) (0#6) (0#33))
  | .ld d a b scale sx size ord scope off => some (mkWord 0x080 gd (d) (a) (b) (scale ++ bit sx ++ 0#1 ++ size ++ ord.code ++ scope.code ++ off))
  | .st d a b scale size ord scope off => some (mkWord 0x081 gd (d) (a) (b) (scale ++ 0#1 ++ 0#1 ++ size ++ ord.code ++ scope.code ++ off))
  | .ldx d a b scale rf ord scope off => some (mkWord 0x082 gd (d) (a) (b) (scale ++ rf.code ++ ord.code ++ scope.code ++ off))
  | .stx d a b scale rf ord scope off => some (mkWord 0x083 gd (d) (a) (b) (scale ++ rf.code ++ ord.code ++ scope.code ++ off))
  | .lds d a b scale sx size ord scope off => some (mkWord 0x084 gd (d) (a) (b) (scale ++ bit sx ++ 0#1 ++ size ++ ord.code ++ scope.code ++ off))
  | .sts d a b scale size ord scope off => some (mkWord 0x085 gd (d) (a) (b) (scale ++ 0#1 ++ 0#1 ++ size ++ ord.code ++ scope.code ++ off))
  | .pref a b scale off => some (mkWord 0x086 gd (0#6) (a) (b) (scale ++ 0#9 ++ off))
  | .clean a b scale off => some (mkWord 0x087 gd (0#6) (a) (b) (scale ++ 0#9 ++ off))
  | .inval a b scale off => some (mkWord 0x088 gd (0#6) (a) (b) (scale ++ 0#9 ++ off))
  | .fence ord scope => some (mkWord 0x089 gd (0#6) (0#6) (0#6) (0#7 ++ ord.code ++ scope.code ++ 0#21))
  | .spb d a b scale cnt off => some (mkWord 0x08a gd (d) (a) (b) (scale ++ cnt ++ 0#5 ++ off))
  | .fla d a b scale cnt off => some (mkWord 0x08b gd (d) (a) (b) (scale ++ cnt ++ 0#5 ++ off))
  | .spw => some (mkWord 0x08c gd (0#6) (0#6) (0#6) (0#33))
  | .copy d a b c dsp ssp rnd arrive st => some (mkWord 0x08d gd (d) (a) (b) (c ++ bit dsp ++ bit ssp ++ rnd.code ++ bit arrive ++ st ++ 0#18))
  | .ctest d a => some (mkWord 0x08e gd (d) (a) (0#6) (0#33))
  | .cwait d a => some (mkWord 0x08f gd (d) (a) (0#6) (0#33))
  | .amoadd d a b scale size ord scope off => some (mkWord 0x090 gd (d) (a) (b) (scale ++ 0#1 ++ 0#1 ++ size ++ ord.code ++ scope.code ++ off))
  | .amomin d a b scale size ord scope off => some (mkWord 0x091 gd (d) (a) (b) (scale ++ 0#1 ++ 0#1 ++ size ++ ord.code ++ scope.code ++ off))
  | .amomax d a b scale size ord scope off => some (mkWord 0x092 gd (d) (a) (b) (scale ++ 0#1 ++ 0#1 ++ size ++ ord.code ++ scope.code ++ off))
  | .amoand d a b scale size ord scope off => some (mkWord 0x093 gd (d) (a) (b) (scale ++ 0#1 ++ 0#1 ++ size ++ ord.code ++ scope.code ++ off))
  | .amoor d a b scale size ord scope off => some (mkWord 0x094 gd (d) (a) (b) (scale ++ 0#1 ++ 0#1 ++ size ++ ord.code ++ scope.code ++ off))
  | .amoxor d a b scale size ord scope off => some (mkWord 0x095 gd (d) (a) (b) (scale ++ 0#1 ++ 0#1 ++ size ++ ord.code ++ scope.code ++ off))
  | .amoswap d a b scale size ord scope off => some (mkWord 0x096 gd (d) (a) (b) (scale ++ 0#1 ++ 0#1 ++ size ++ ord.code ++ scope.code ++ off))
  | .cas d a b scale size ord scope off => some (mkWord 0x097 gd (d) (a) (b) (scale ++ 0#1 ++ 0#1 ++ size ++ ord.code ++ scope.code ++ off))
  | .amofaddF32 d a b scale ord scope off => some (mkWord 0x098 gd (d) (a) (b) (scale ++ 0#1 ++ 0#1 ++ 2#2 ++ ord.code ++ scope.code ++ off))
  | .amoaddSpad d a b scale size ord scope off => some (mkWord 0x0a0 gd (d) (a) (b) (scale ++ 0#1 ++ 0#1 ++ size ++ ord.code ++ scope.code ++ off))
  | .amominSpad d a b scale size ord scope off => some (mkWord 0x0a1 gd (d) (a) (b) (scale ++ 0#1 ++ 0#1 ++ size ++ ord.code ++ scope.code ++ off))
  | .amomaxSpad d a b scale size ord scope off => some (mkWord 0x0a2 gd (d) (a) (b) (scale ++ 0#1 ++ 0#1 ++ size ++ ord.code ++ scope.code ++ off))
  | .amoandSpad d a b scale size ord scope off => some (mkWord 0x0a3 gd (d) (a) (b) (scale ++ 0#1 ++ 0#1 ++ size ++ ord.code ++ scope.code ++ off))
  | .amoorSpad d a b scale size ord scope off => some (mkWord 0x0a4 gd (d) (a) (b) (scale ++ 0#1 ++ 0#1 ++ size ++ ord.code ++ scope.code ++ off))
  | .amoxorSpad d a b scale size ord scope off => some (mkWord 0x0a5 gd (d) (a) (b) (scale ++ 0#1 ++ 0#1 ++ size ++ ord.code ++ scope.code ++ off))
  | .amoswapSpad d a b scale size ord scope off => some (mkWord 0x0a6 gd (d) (a) (b) (scale ++ 0#1 ++ 0#1 ++ size ++ ord.code ++ scope.code ++ off))
  | .casSpad d a b scale size ord scope off => some (mkWord 0x0a7 gd (d) (a) (b) (scale ++ 0#1 ++ 0#1 ++ size ++ ord.code ++ scope.code ++ off))
  | .amofaddF32Spad d a b scale ord scope off => some (mkWord 0x0a8 gd (d) (a) (b) (scale ++ 0#1 ++ 0#1 ++ 2#2 ++ ord.code ++ scope.code ++ off))
  | .qpush d a cnt => some (mkWord 0x0c0 gd (0#1 ++ d) (a) (0#6) (0#29 ++ cnt))
  | .qpushI d imm => some (mkWord 0x0c1 gd (0#1 ++ d) (0#6) (0#6) (0#1 ++ imm))
  | .qpushs d a cnt => some (mkWord 0x0c2 gd (0#1 ++ d) (a) (0#6) (0#29 ++ cnt))
  | .qpushsI d imm => some (mkWord 0x0c3 gd (0#1 ++ d) (0#6) (0#6) (0#1 ++ imm))
  | .qpop d a cnt => some (mkWord 0x0c4 gd (d) (0#1 ++ a) (0#6) (0#29 ++ cnt))
  | .qpeek d a cnt => some (mkWord 0x0c5 gd (d) (0#1 ++ a) (0#6) (0#29 ++ cnt))
  | .qtry d a b cnt => some (mkWord 0x0c6 gd (d) (0#1 ++ a) (0#3 ++ b) (0#29 ++ cnt))
  | .qstat d a => some (mkWord 0x0c7 gd (d) (0#1 ++ a) (0#6) (0#33))
  | .chsend d a cnt => some (mkWord 0x0c8 gd (0#1 ++ d) (a) (0#6) (0#29 ++ cnt))
  | .chsendI d imm => some (mkWord 0x0c9 gd (0#1 ++ d) (0#6) (0#6) (0#1 ++ imm))
  | .chrecv d a cnt => some (mkWord 0x0ca gd (d) (0#1 ++ a) (0#6) (0#29 ++ cnt))
  | .cbwaitF a b => some (mkWord 0x0cb gd (0#6) (0#2 ++ a) (b) (0#33))
  | .cbwaitFI a n => some (mkWord 0x0cc gd (0#6) (0#2 ++ a) (0#6) (0#20 ++ n))
  | .cbwaitE a b => some (mkWord 0x0cd gd (0#6) (0#2 ++ a) (b) (0#33))
  | .cbwaitEI a n => some (mkWord 0x0ce gd (0#6) (0#2 ++ a) (0#6) (0#20 ++ n))
  | .cbadvP a b => some (mkWord 0x0cf gd (0#6) (0#2 ++ a) (b) (0#33))
  | .cbadvPI a n => some (mkWord 0x0d0 gd (0#6) (0#2 ++ a) (0#6) (0#20 ++ n))
  | .cbadvC a b => some (mkWord 0x0d1 gd (0#6) (0#2 ++ a) (b) (0#33))
  | .cbadvCI a n => some (mkWord 0x0d2 gd (0#6) (0#2 ++ a) (0#6) (0#20 ++ n))
  | .cbset d a b => some (mkWord 0x0d3 gd (0#2 ++ d) (a) (b) (0#33))
  | .cbget d a c => some (mkWord 0x0d4 gd (d) (0#2 ++ a) (0#6) (c ++ 0#27))
  | .vcfg b => some (mkWord 0x100 gd (0#6) (0#6) (b) (0#33))
  | .vcfgI imm => some (mkWord 0x101 gd (0#6) (0#6) (0#6) (0#1 ++ imm))
  | .vrunHh d a len keep ew => some (mkWord 0x102 gd (0#2 ++ d) (0#2 ++ a) (len.fieldB) (bit keep ++ len.fieldNreg ++ ew ++ 0#13 ++ len.fieldN16))
  | .vrunHq d a len keep ew => some (mkWord 0x103 gd (0#1 ++ d) (0#2 ++ a) (len.fieldB) (bit keep ++ len.fieldNreg ++ ew ++ 0#13 ++ len.fieldN16))
  | .vrunQh d a len keep ew => some (mkWord 0x104 gd (0#2 ++ d) (0#1 ++ a) (len.fieldB) (bit keep ++ len.fieldNreg ++ ew ++ 0#13 ++ len.fieldN16))
  | .vrunQq d a len keep => some (mkWord 0x105 gd (0#1 ++ d) (0#1 ++ a) (len.fieldB) (bit keep ++ len.fieldNreg ++ 0#2 ++ 0#13 ++ len.fieldN16))
  | .vloop d b => some (mkWord 0x106 gd (0#4 ++ d) (0#6) (b) (0#33))
  | .vloopI d imm => some (mkWord 0x107 gd (0#4 ++ d) (0#6) (0#6) (0#1 ++ imm))
  | .vend d => some (mkWord 0x108 gd (0#4 ++ d) (0#6) (0#6) (0#33))
  | .vsync => some (mkWord 0x109 gd (0#6) (0#6) (0#6) (0#33))
  | .iload d a => some (mkWord 0x150 gd (d) (a) (0#6) (0#33))
  | .irunH a slot nm1 => some (mkWord 0x151 gd (0#6) (0#2 ++ a) (0#6) (0#3 ++ slot ++ nm1 ++ 0#22))
  | .irunQ a slot nm1 => some (mkWord 0x152 gd (0#6) (0#1 ++ a) (0#6) (0#3 ++ slot ++ nm1 ++ 0#22))
  | .idrain dst nf nm1 => some (mkWord 0x153 gd (dst.field) (0#6) (0#6) (0#3 ++ dst.flag ++ 0#1 ++ nm1 ++ nf.code ++ 0#20))
  | .istat d sel => some (mkWord 0x154 gd (d) (0#6) (0#6) (sel ++ 0#30))
  | .iunload slot => some (mkWord 0x155 gd (0#6) (0#6) (0#6) (0#3 ++ slot ++ 0#28))
  | .nsend a route nm1 => some (mkWord 0x180 gd (0#6) (a) (0#6) (route ++ nm1 ++ 0#22))
  | .nsendH a route ns => some (mkWord 0x181 gd (0#6) (0#2 ++ a) (0#6) (route ++ 0#3 ++ ns ++ 0#9))
  | .nrecv d route nm1 => some (mkWord 0x182 gd (d) (0#6) (0#6) (route ++ nm1 ++ 0#22))
  | .nrecvH d route ns => some (mkWord 0x183 gd (0#2 ++ d) (0#6) (0#6) (route ++ 0#3 ++ ns ++ 0#9))
  | .nred a route nm1 => some (mkWord 0x184 gd (0#6) (a) (0#6) (route ++ nm1 ++ 0#22))
  | .nredH a route ns => some (mkWord 0x185 gd (0#6) (0#2 ++ a) (0#6) (route ++ 0#3 ++ ns ++ 0#9))
  | .nbcast a route nm1 => some (mkWord 0x186 gd (0#6) (a) (0#6) (route ++ nm1 ++ 0#22))
  | .nbcastH a route ns => some (mkWord 0x187 gd (0#6) (0#2 ++ a) (0#6) (route ++ 0#3 ++ ns ++ 0#9))
  | .ntok a => some (mkWord 0x188 gd (0#6) (a) (0#6) (0#33))
  | .ntokI imm => some (mkWord 0x189 gd (0#6) (0#6) (0#6) (0#1 ++ imm))
  | .narm d a b => some (mkWord 0x18a gd (d) (a) (b) (0#33))
  | .narmI d imm => some (mkWord 0x18b gd (d) (0#6) (0#6) (0#1 ++ imm))
  | .nfence => some (mkWord 0x18c gd (0#6) (0#6) (0#6) (0#33))
  | .vnwait d sel mask => some (mkWord 0x18d gd (d) (sel.field) (0#6) (mask ++ sel.flag ++ 0#28))
  | .vnrel a => some (mkWord 0x18e gd (0#6) (a) (0#6) (0#33))
  | .vnrelI imm => some (mkWord 0x18f gd (0#6) (0#6) (0#6) (0#1 ++ imm))
  | .bar d a sync => some (mkWord 0x190 gd (d) (a) (0#6) (bit sync ++ 0#32))
  | .barI d bar sync count => some (mkWord 0x191 gd (d) (0#6) (0#6) (0#1 ++ count ++ 0#9 ++ bit sync ++ bar))
  | .pvget d a => some (mkWord 0x192 gd (d) (a) (0#6) (0#33))
  | .pvgetI d imm => some (mkWord 0x193 gd (d) (0#6) (0#6) (0#1 ++ imm))
  | .pvpin d a => some (mkWord 0x194 gd (d) (a) (0#6) (0#33))
  | .pvunpin a => some (mkWord 0x195 gd (0#6) (a) (0#6) (0#33))
  | .pvpubRes d a => some (mkWord 0x196 gd (d) (a) (0#6) (0#33))
  | .pvpubCom d a => some (mkWord 0x196 gd (d) (a) (0#6) (1#1 ++ 0#32))
  | .pvswitch d a => some (mkWord 0x197 gd (d) (a) (0#6) (0#33))
  | .pvtag d a => some (mkWord 0x198 gd (d) (a) (0#6) (0#33))
  | .stash a b => some (mkWord 0x199 gd (0#6) (a) (b) (0#33))
  | .unstash d a b => some (mkWord 0x19a gd (d) (a) (b) (0#33))
  | .srseed a sub => some (mkWord 0x19b gd (0#6) (a) (0#6) (sub ++ 0#30))
  | .gradarm bar => some (mkWord 0x19c gd (0#6) (0#6) (0#6) (bar ++ 0#27))
  | .trap a => some (mkWord 0x1c0 gd (0#6) (a) (0#6) (0#33))
  | .trapI imm => some (mkWord 0x1c1 gd (0#6) (0#6) (0#6) (0#1 ++ imm))
  | .eret => some (mkWord 0x1c2 gd (0#6) (0#6) (0#6) (0#33))
  | .krd d creg => some (mkWord 0x1c3 gd (d) (0#6) (0#6) (creg ++ 0#23))
  | .kwr a creg => some (mkWord 0x1c4 gd (0#6) (a) (0#6) (creg ++ 0#23))
  | .tlbinv a => some (mkWord 0x1c5 gd (0#6) (a) (0#6) (0#33))
  | .tlbinvr a b => some (mkWord 0x1c6 gd (0#6) (a) (b) (0#33))
  | .shoot d a b => some (mkWord 0x1c7 gd (d) (a) (b) (0#33))
  | .freeze d a => some (mkWord 0x1c8 gd (d) (a) (0#6) (0#33))
  | .thaw d a => some (mkWord 0x1c9 gd (d) (a) (0#6) (0#33))
  | .featrd d a => some (mkWord 0x1ca gd (d) (a) (0#6) (0#33))
  | .featrdI d imm => some (mkWord 0x1cb gd (d) (0#6) (0#6) (0#1 ++ imm))
  | .brk code => some (mkWord 0x1cc gd (0#6) (0#6) (0#6) (0#17 ++ code))
  | .dhalt a => some (mkWord 0x1cd gd (0#6) (a) (0#6) (0#33))
  | .dresume a => some (mkWord 0x1ce gd (0#6) (a) (0#6) (0#33))
  | .bwdderive d a b c => some (mkWord 0x1cf gd (d) (a) (b) (0#10 ++ c ++ 0#17))
  | .deferredFaultDelivery => none
  | .firingDispatch _ => none
  | .engineFiringCommit _ _ => none
  | .channelTokenArrival _ _ => none
  | .freeSpaceReturn _ _ => none
  | .seedWindowWrite _ _ => none
  | .seedDelivery _ => none
  | .resultPortPop _ _ => none
  | .streamPortPush _ _ => none
  | .collectPortPop _ _ => none
  | .spindleEntryExecute _ => none
  | .matrixEntryExecute _ => none
  | .maccReexecute _ _ => none
  | .quartetJoin _ => none
  | .inlayEntryExecute _ => none
  | .networkQueueEntry _ => none
  | .meshPacketHop _ _ _ => none
  | .routerCombine _ _ => none
  | .linkFlitRetry _ _ _ => none
  | .ntokArrival _ => none
  | .chunkFire _ _ => none
  | .faceplateBlockSend _ _ => none
  | .lightBlockHeaderArrive _ _ => none
  | .lightBlockLanded _ _ _ => none
  | .releaseTokenArrive _ _ => none
  | .faceplatePatternEnd _ _ => none
  | .passBoundarySwitch _ _ => none
  | .barrierPass _ _ => none
  | .gradarmArrive _ => none
  | .copyOperation _ => none
  | .spillTransfer _ _ => none
  | .pageWalk _ _ _ _ => none
  | .faultBufferFlush _ => none
  | .faultRecordResend _ _ => none
  | .faultQueueWrite _ => none
  | .pageAnswer _ _ => none
  | .victimEvict _ => none
  | .victimRecall _ _ => none
  | .regionFreeze _ => none
  | .thawRestore _ _ => none
  | .debugHalt _ _ _ => none
  | .debugResume _ _ _ => none
  | .debugStep _ _ _ => none
  | .debugRead _ _ _ _ => none
  | .debugWrite _ _ _ _ _ => none
  | .debugHeadreplace _ _ _ _ _ _ _ => none
  | .debugWatchdog _ _ => none
  | .watchdogExpire _ _ => none
  | .launchRecord _ => none
  | .endRecord _ => none
  | .launchIntake => none
  | .placementReserve => none
  | .placementCommit => none
  | .placementLoad _ => none
  | .configCompleteWave _ => none
  | .waveAcknowledge _ => none
  | .regionEnd _ => none
  | .chainedCommit _ => none
  | .stashRelief _ => none
  | .versionLag _ => none
  | .gridRetire => none
  | .colourRetire _ _ => none
  | .linkTrain _ _ _ => none
  | .linkPacketReceive _ _ _ _ _ _ => none
  | .topoGrant _ _ _ => none
  | .topoCommit _ _ => none
  | .topoDeny _ => none
  | .topoMessageTimeout _ => none
  | .shootAckTimeout _ _ => none
  | .shootAcknowledge _ _ => none
  | .leaseOpenTimeout _ => none
  | .leaseExpire _ => none
  | .circuitClose _ => none
  | .ctxCreate _ => none
  | .ctxKill _ => none
  | .ctxSavearea _ => none
  | .ctxDebug _ => none
  | .hostFreeze _ => none
  | .hostThaw _ => none
  | .pvPlace _ => none
  | .leaseOpen _ => none
  | .leaseRenew _ => none
  | .topoRequest _ => none
  | .colourSplit _ _ => none
  | .quotaSet _ => none
  | .measureExtend _ => none
  | .mapWrite _ _ => none
  | .acceptWrite _ _ => none
  | .registerWrite _ _ => none
  | .eventQueueAdvance => none
  | .attestRequest => none
  | .attestComplete => none
  | .boot _ => none
  | .thermal _ => none
  | .powerCapStep => none
  | .fillDrainPortTransfer _ _ => none
  | .powerDown => none
  | .linkDown _ => none
  | .leasePeerOpen _ _ _ _ => none

/-- Checks 2 and 3 of R97 for the codes 0x000 to 0x00f (Table 3.8). -/
def decodeRow00 (f : Fields) : Nat → Decoded
  | 0x000 => zeros (f.low == 0#33) (.ok (.add f.d f.a f.b))
  | 0x001 => zeros (f.b == 0#6 && f.low.extractLsb' 32 1 == 0#1) (.ok (.addI f.d f.a (f.low.extractLsb' 0 32)))
  | 0x002 => zeros (f.low == 0#33) (.ok (.sub f.d f.a f.b))
  | 0x003 => zeros (f.b == 0#6 && f.low.extractLsb' 32 1 == 0#1) (.ok (.subI f.d f.a (f.low.extractLsb' 0 32)))
  | 0x004 => zeros (f.low == 0#33) (.ok (.mul f.d f.a f.b))
  | 0x005 => zeros (f.b == 0#6 && f.low.extractLsb' 32 1 == 0#1) (.ok (.mulI f.d f.a (f.low.extractLsb' 0 32)))
  | 0x006 => zeros (f.low.extractLsb' 21 12 == 0#12 && f.low.extractLsb' 0 20 == 0#20) (.ok (.mulh f.d f.a f.b (f.low.getLsbD 20)))
  | 0x007 => zeros (f.b.extractLsb' 1 5 == 0#5 && f.low.extractLsb' 32 1 == 0#1) (.ok (.mulhI f.d f.a (f.b.getLsbD 0) (f.low.extractLsb' 0 32)))
  | 0x008 => zeros (f.low.extractLsb' 21 12 == 0#12 && f.low.extractLsb' 0 20 == 0#20) (.ok (.div f.d f.a f.b (f.low.getLsbD 20)))
  | 0x009 => zeros (f.b.extractLsb' 1 5 == 0#5 && f.low.extractLsb' 32 1 == 0#1) (.ok (.divI f.d f.a (f.b.getLsbD 0) (f.low.extractLsb' 0 32)))
  | 0x00a => zeros (f.low.extractLsb' 21 12 == 0#12 && f.low.extractLsb' 0 20 == 0#20) (.ok (.rem f.d f.a f.b (f.low.getLsbD 20)))
  | 0x00b => zeros (f.b.extractLsb' 1 5 == 0#5 && f.low.extractLsb' 32 1 == 0#1) (.ok (.remI f.d f.a (f.b.getLsbD 0) (f.low.extractLsb' 0 32)))
  | 0x00c => zeros (f.low == 0#33) (.ok (.and f.d f.a f.b))
  | 0x00d => zeros (f.b == 0#6 && f.low.extractLsb' 32 1 == 0#1) (.ok (.andI f.d f.a (f.low.extractLsb' 0 32)))
  | 0x00e => zeros (f.low == 0#33) (.ok (.or f.d f.a f.b))
  | 0x00f => zeros (f.b == 0#6 && f.low.extractLsb' 32 1 == 0#1) (.ok (.orI f.d f.a (f.low.extractLsb' 0 32)))
  | _ => .illegalOpcode

/-- Checks 2 and 3 of R97 for the codes 0x010 to 0x01f (Table 3.8). -/
def decodeRow01 (f : Fields) : Nat → Decoded
  | 0x010 => zeros (f.low == 0#33) (.ok (.xor f.d f.a f.b))
  | 0x011 => zeros (f.b == 0#6 && f.low.extractLsb' 32 1 == 0#1) (.ok (.xorI f.d f.a (f.low.extractLsb' 0 32)))
  | 0x012 => zeros (f.low == 0#33) (.ok (.andn f.d f.a f.b))
  | 0x013 => zeros (f.b == 0#6 && f.low.extractLsb' 32 1 == 0#1) (.ok (.andnI f.d f.a (f.low.extractLsb' 0 32)))
  | 0x014 => zeros (f.low == 0#33) (.ok (.shl f.d f.a f.b))
  | 0x015 => zeros (f.b == 0#6 && f.low.extractLsb' 32 1 == 0#1) (.ok (.shlI f.d f.a (f.low.extractLsb' 0 32)))
  | 0x016 => zeros (f.low == 0#33) (.ok (.shr f.d f.a f.b))
  | 0x017 => zeros (f.b == 0#6 && f.low.extractLsb' 32 1 == 0#1) (.ok (.shrI f.d f.a (f.low.extractLsb' 0 32)))
  | 0x018 => zeros (f.low == 0#33) (.ok (.sar f.d f.a f.b))
  | 0x019 => zeros (f.b == 0#6 && f.low.extractLsb' 32 1 == 0#1) (.ok (.sarI f.d f.a (f.low.extractLsb' 0 32)))
  | 0x01a => zeros (f.low == 0#33) (.ok (.rot f.d f.a f.b))
  | 0x01b => zeros (f.b == 0#6 && f.low.extractLsb' 32 1 == 0#1) (.ok (.rotI f.d f.a (f.low.extractLsb' 0 32)))
  | 0x01c => zeros (f.low.extractLsb' 21 12 == 0#12 && f.low.extractLsb' 0 20 == 0#20) (.ok (.min f.d f.a f.b (f.low.getLsbD 20)))
  | 0x01d => zeros (f.b.extractLsb' 1 5 == 0#5 && f.low.extractLsb' 32 1 == 0#1) (.ok (.minI f.d f.a (f.b.getLsbD 0) (f.low.extractLsb' 0 32)))
  | 0x01e => zeros (f.low.extractLsb' 21 12 == 0#12 && f.low.extractLsb' 0 20 == 0#20) (.ok (.max f.d f.a f.b (f.low.getLsbD 20)))
  | 0x01f => zeros (f.b.extractLsb' 1 5 == 0#5 && f.low.extractLsb' 32 1 == 0#1) (.ok (.maxI f.d f.a (f.b.getLsbD 0) (f.low.extractLsb' 0 32)))
  | _ => .illegalOpcode

/-- Checks 2 and 3 of R97 for the codes 0x020 to 0x02f (Table 3.8). -/
def decodeRow02 (f : Fields) : Nat → Decoded
  | 0x020 => zeros (f.d.extractLsb' 3 3 == 0#3 && f.low.extractLsb' 24 9 == 0#9 && f.low.extractLsb' 0 20 == 0#20) (withMod (Cond.ofCode (f.low.extractLsb' 20 4)) (fun cond => .ok (.cmp (f.d.extractLsb' 0 3) f.a f.b cond)))
  | 0x021 => zeros (f.d.extractLsb' 3 3 == 0#3 && f.b.extractLsb' 4 2 == 0#2 && f.low.extractLsb' 32 1 == 0#1) (withMod (Cond.ofCode (f.b.extractLsb' 0 4)) (fun cond => .ok (.cmpI (f.d.extractLsb' 0 3) f.a cond (f.low.extractLsb' 0 32))))
  | 0x022 => zeros (f.low.extractLsb' 24 9 == 0#9 && f.low.extractLsb' 0 20 == 0#20) (.ok (.sel f.d f.a f.b (f.low.getLsbD 23) (f.low.extractLsb' 20 3)))
  | 0x023 => zeros (f.b.extractLsb' 4 2 == 0#2 && f.low.extractLsb' 32 1 == 0#1) (.ok (.selI f.d f.a (f.b.getLsbD 3) (f.b.extractLsb' 0 3) (f.low.extractLsb' 0 32)))
  | 0x024 => zeros (f.low == 0#33) (.ok (.padd f.d f.a f.b))
  | 0x025 => zeros (f.b == 0#6 && f.low.extractLsb' 32 1 == 0#1) (.ok (.paddI f.d f.a (f.low.extractLsb' 0 32)))
  | 0x026 => zeros (f.low == 0#33) (.ok (.psub f.d f.a f.b))
  | 0x027 => zeros (f.b == 0#6 && f.low.extractLsb' 32 1 == 0#1) (.ok (.psubI f.d f.a (f.low.extractLsb' 0 32)))
  | 0x028 => zeros (f.b == 0#6 && f.low == 0#33) (.ok (.clz f.d f.a))
  | 0x029 => zeros (f.b == 0#6 && f.low == 0#33) (.ok (.popc f.d f.a))
  | 0x02a => zeros (f.b == 0#6 && f.low == 0#33) (.ok (.mov f.d f.a))
  | 0x02b => zeros (f.a == 0#6 && f.b == 0#6 && f.low.extractLsb' 32 1 == 0#1) (.ok (.movi f.d (f.low.extractLsb' 0 32)))
  | 0x02c => zeros (f.b == 0#6 && f.low.extractLsb' 32 1 == 0#1) (.ok (.movhi f.d f.a (f.low.extractLsb' 0 32)))
  | 0x02d => zeros (f.low.extractLsb' 0 27 == 0#27) (.ok (.extb f.d f.a f.b (f.low.extractLsb' 27 6)))
  | 0x02e => zeros (f.low.extractLsb' 0 27 == 0#27) (.ok (.insb f.d f.a f.b (f.low.extractLsb' 27 6)))
  | 0x02f => zeros (f.low == 0#33) (.ok (.sext f.d f.a f.b))
  | _ => .illegalOpcode

/-- Checks 2 and 3 of R97 for the codes 0x030 to 0x03f (Table 3.8). -/
def decodeRow03 (f : Fields) : Nat → Decoded
  | 0x030 => zeros (f.low == 0#33) (.ok (.zext f.d f.a f.b))
  | 0x031 => zeros (f.b.extractLsb' 5 1 == 0#1 && f.low.extractLsb' 30 3 == 0#3 && f.low.extractLsb' 0 27 == 0#27) (.ok (.pfmt f.d f.a (f.b.extractLsb' 0 5) (f.low.extractLsb' 27 3)))
  | 0x032 => zeros (f.b == 0#6 && f.low == 0#33) (.ok (.pmeta f.d f.a))
  | 0x033 => zeros (f.d.extractLsb' 3 3 == 0#3 && f.b.extractLsb' 5 1 == 0#1 && f.low == 0#33) (.ok (.pchk (f.d.extractLsb' 0 3) f.a (f.b.extractLsb' 0 5)))
  | 0x034 => zeros (f.d.extractLsb' 3 3 == 0#3 && f.a.extractLsb' 3 3 == 0#3 && f.b.extractLsb' 3 3 == 0#3 && f.low == 0#33) (.ok (.pand (f.d.extractLsb' 0 3) (f.a.extractLsb' 0 3) (f.b.extractLsb' 0 3)))
  | 0x035 => zeros (f.d.extractLsb' 3 3 == 0#3 && f.a.extractLsb' 3 3 == 0#3 && f.b.extractLsb' 3 3 == 0#3 && f.low == 0#33) (.ok (.por (f.d.extractLsb' 0 3) (f.a.extractLsb' 0 3) (f.b.extractLsb' 0 3)))
  | 0x036 => zeros (f.d.extractLsb' 3 3 == 0#3 && f.a.extractLsb' 3 3 == 0#3 && f.b.extractLsb' 3 3 == 0#3 && f.low == 0#33) (.ok (.pxor (f.d.extractLsb' 0 3) (f.a.extractLsb' 0 3) (f.b.extractLsb' 0 3)))
  | 0x037 => zeros (f.d.extractLsb' 3 3 == 0#3 && f.a.extractLsb' 3 3 == 0#3 && f.b == 0#6 && f.low == 0#33) (.ok (.pnot (f.d.extractLsb' 0 3) (f.a.extractLsb' 0 3)))
  | 0x038 => zeros (f.low == 0#33) (.ok (.addW f.d f.a f.b))
  | 0x039 => zeros (f.b == 0#6 && f.low.extractLsb' 32 1 == 0#1) (.ok (.addWI f.d f.a (f.low.extractLsb' 0 32)))
  | 0x03a => zeros (f.low == 0#33) (.ok (.subW f.d f.a f.b))
  | 0x03b => zeros (f.low == 0#33) (.ok (.mulW f.d f.a f.b))
  | 0x03c => zeros (f.b == 0#6 && f.low.extractLsb' 32 1 == 0#1) (.ok (.mulWI f.d f.a (f.low.extractLsb' 0 32)))
  | 0x03d => zeros (f.low == 0#33) (.ok (.shlW f.d f.a f.b))
  | 0x03e => zeros (f.low == 0#33) (.ok (.shrW f.d f.a f.b))
  | 0x03f => zeros (f.low == 0#33) (.ok (.sarW f.d f.a f.b))
  | _ => .illegalOpcode

/-- Checks 2 and 3 of R97 for the codes 0x040 to 0x04f (Table 3.8). -/
def decodeRow04 (f : Fields) : Nat → Decoded
  | 0x040 => zeros (f.d == 0#6 && f.a == 0#6 && f.b == 0#6) (.ok (.br (f.low.getLsbD 32) (f.low.extractLsb' 0 32)))
  | 0x041 => zeros (f.d == 0#6 && f.a.extractLsb' 3 3 == 0#3 && f.b.extractLsb' 1 5 == 0#5) (.ok (.brp (f.a.extractLsb' 0 3) (f.b.getLsbD 0) (f.low.getLsbD 32) (f.low.extractLsb' 0 32)))
  | 0x042 => zeros (f.a == 0#6 && f.b == 0#6) (.ok (.call f.d (f.low.getLsbD 32) (f.low.extractLsb' 0 32)))
  | 0x043 => zeros (f.d == 0#6 && f.b == 0#6 && f.low == 0#33) (.ok (.ret f.a))
  | 0x044 => zeros (f.b == 0#6 && f.low == 0#33) (.ok (.jmpr f.d f.a))
  | 0x045 => zeros (f.d == 0#6 && f.a == 0#6 && f.b == 0#6 && f.low == 0#33) (.ok (.yield))
  | 0x046 => zeros (f.a == 0#6 && f.b == 0#6 && f.low.extractLsb' 32 1 == 0#1) (.ok (.waitany f.d (f.low.extractLsb' 0 32)))
  | 0x047 => zeros (f.d == 0#6 && f.a == 0#6 && f.b == 0#6 && f.low == 0#33) (.ok (.endfire))
  | 0x048 => zeros (f.low.extractLsb' 27 6 == 0#6 && f.low.extractLsb' 0 24 == 0#24) (withMod (Rnd.ofCode (f.low.extractLsb' 24 3)) (fun rnd => .ok (.faddF32 f.d f.a f.b rnd)))
  | 0x049 => zeros (f.b.extractLsb' 3 3 == 0#3 && f.low.extractLsb' 32 1 == 0#1) (withMod (Rnd.ofCode (f.b.extractLsb' 0 3)) (fun rnd => .ok (.faddF32I f.d f.a rnd (f.low.extractLsb' 0 32))))
  | 0x04a => zeros (f.low.extractLsb' 27 6 == 0#6 && f.low.extractLsb' 0 24 == 0#24) (withMod (Rnd.ofCode (f.low.extractLsb' 24 3)) (fun rnd => .ok (.fsubF32 f.d f.a f.b rnd)))
  | 0x04b => zeros (f.b.extractLsb' 3 3 == 0#3 && f.low.extractLsb' 32 1 == 0#1) (withMod (Rnd.ofCode (f.b.extractLsb' 0 3)) (fun rnd => .ok (.fsubF32I f.d f.a rnd (f.low.extractLsb' 0 32))))
  | 0x04c => zeros (f.low.extractLsb' 27 6 == 0#6 && f.low.extractLsb' 0 24 == 0#24) (withMod (Rnd.ofCode (f.low.extractLsb' 24 3)) (fun rnd => .ok (.fmulF32 f.d f.a f.b rnd)))
  | 0x04d => zeros (f.b.extractLsb' 3 3 == 0#3 && f.low.extractLsb' 32 1 == 0#1) (withMod (Rnd.ofCode (f.b.extractLsb' 0 3)) (fun rnd => .ok (.fmulF32I f.d f.a rnd (f.low.extractLsb' 0 32))))
  | 0x04e => zeros (f.low.extractLsb' 0 24 == 0#24) (withMod (Rnd.ofCode (f.low.extractLsb' 24 3)) (fun rnd => .ok (.ffmaF32 f.d f.a f.b (f.low.extractLsb' 27 6) rnd)))
  | 0x04f => zeros (f.low.extractLsb' 27 6 == 0#6 && f.low.extractLsb' 0 24 == 0#24) (withMod (Rnd.ofCode (f.low.extractLsb' 24 3)) (fun rnd => .ok (.fdivF32 f.d f.a f.b rnd)))
  | _ => .illegalOpcode

/-- Checks 2 and 3 of R97 for the codes 0x050 to 0x05f (Table 3.8). -/
def decodeRow05 (f : Fields) : Nat → Decoded
  | 0x050 => zeros (f.b == 0#6 && f.low.extractLsb' 27 6 == 0#6 && f.low.extractLsb' 0 24 == 0#24) (withMod (Rnd.ofCode (f.low.extractLsb' 24 3)) (fun rnd => .ok (.fsqrtF32 f.d f.a rnd)))
  | 0x051 => zeros (f.b == 0#6 && f.low == 0#33) (.ok (.frsqrtF32 f.d f.a))
  | 0x052 => zeros (f.b == 0#6 && f.low == 0#33) (.ok (.fexp2F32 f.d f.a))
  | 0x053 => zeros (f.b == 0#6 && f.low == 0#33) (.ok (.flog2F32 f.d f.a))
  | 0x054 => zeros (f.b == 0#6 && f.low == 0#33) (.ok (.fsinF32 f.d f.a))
  | 0x055 => zeros (f.b == 0#6 && f.low == 0#33) (.ok (.fcosF32 f.d f.a))
  | 0x056 => zeros (f.low == 0#33) (.ok (.fminF32 f.d f.a f.b))
  | 0x057 => zeros (f.b == 0#6 && f.low.extractLsb' 32 1 == 0#1) (.ok (.fminF32I f.d f.a (f.low.extractLsb' 0 32)))
  | 0x058 => zeros (f.low == 0#33) (.ok (.fmaxF32 f.d f.a f.b))
  | 0x059 => zeros (f.b == 0#6 && f.low.extractLsb' 32 1 == 0#1) (.ok (.fmaxF32I f.d f.a (f.low.extractLsb' 0 32)))
  | 0x05a => zeros (f.d.extractLsb' 3 3 == 0#3 && f.low.extractLsb' 24 9 == 0#9 && f.low.extractLsb' 0 20 == 0#20) (withMod (FCond.ofCode (f.low.extractLsb' 20 4)) (fun cond => .ok (.fcmpF32 (f.d.extractLsb' 0 3) f.a f.b cond)))
  | 0x05b => zeros (f.d.extractLsb' 3 3 == 0#3 && f.b.extractLsb' 4 2 == 0#2 && f.low.extractLsb' 32 1 == 0#1) (withMod (FCond.ofCode (f.b.extractLsb' 0 4)) (fun cond => .ok (.fcmpF32I (f.d.extractLsb' 0 3) f.a cond (f.low.extractLsb' 0 32))))
  | 0x05c => zeros (f.b == 0#6 && f.low == 0#33) (.ok (.fclassF32 f.d f.a))
  | 0x05d => zeros (f.b.extractLsb' 4 2 == 0#2 && f.low.extractLsb' 31 2 == 0#2 && f.low.extractLsb' 0 23 == 0#23 && cvtSatOk f) (withMod (CvtFmt.ofCode (f.b.extractLsb' 0 4)) (fun src => withMod (CvtFmt.ofCode (f.low.extractLsb' 27 4)) (fun dst => withMod (Rnd.ofCode (f.low.extractLsb' 24 3)) (fun rnd => .ok (.fcvt f.d f.a src dst (f.low.getLsbD 23) rnd)))))
  | 0x05e => zeros (f.b == 0#6 && f.low == 0#33) (.ok (.fabsF32 f.d f.a))
  | 0x05f => zeros (f.b == 0#6 && f.low == 0#33) (.ok (.fnegF32 f.d f.a))
  | _ => .illegalOpcode

/-- Checks 2 and 3 of R97 for the codes 0x060 to 0x06e (Table 3.8). -/
def decodeRow06 (f : Fields) : Nat → Decoded
  | 0x060 => zeros (f.low.extractLsb' 27 6 == 0#6 && f.low.extractLsb' 0 24 == 0#24) (withMod (Rnd.ofCode (f.low.extractLsb' 24 3)) (fun rnd => .ok (.faddF16 f.d f.a f.b rnd)))
  | 0x061 => zeros (f.low.extractLsb' 27 6 == 0#6 && f.low.extractLsb' 0 24 == 0#24) (withMod (Rnd.ofCode (f.low.extractLsb' 24 3)) (fun rnd => .ok (.fsubF16 f.d f.a f.b rnd)))
  | 0x062 => zeros (f.low.extractLsb' 27 6 == 0#6 && f.low.extractLsb' 0 24 == 0#24) (withMod (Rnd.ofCode (f.low.extractLsb' 24 3)) (fun rnd => .ok (.fmulF16 f.d f.a f.b rnd)))
  | 0x063 => zeros (f.low.extractLsb' 0 24 == 0#24) (withMod (Rnd.ofCode (f.low.extractLsb' 24 3)) (fun rnd => .ok (.ffmaF16 f.d f.a f.b (f.low.extractLsb' 27 6) rnd)))
  | 0x064 => zeros (f.low.extractLsb' 27 6 == 0#6 && f.low.extractLsb' 0 24 == 0#24) (withMod (Rnd.ofCode (f.low.extractLsb' 24 3)) (fun rnd => .ok (.fdivF16 f.d f.a f.b rnd)))
  | 0x065 => zeros (f.b == 0#6 && f.low.extractLsb' 27 6 == 0#6 && f.low.extractLsb' 0 24 == 0#24) (withMod (Rnd.ofCode (f.low.extractLsb' 24 3)) (fun rnd => .ok (.fsqrtF16 f.d f.a rnd)))
  | 0x066 => zeros (f.b == 0#6 && f.low.extractLsb' 27 6 == 0#6 && f.low.extractLsb' 0 24 == 0#24) (withMod (Rnd.ofCode (f.low.extractLsb' 24 3)) (fun rnd => .ok (.frsqrtF16 f.d f.a rnd)))
  | 0x067 => zeros (f.b == 0#6 && f.low.extractLsb' 27 6 == 0#6 && f.low.extractLsb' 0 24 == 0#24) (withMod (Rnd.ofCode (f.low.extractLsb' 24 3)) (fun rnd => .ok (.fexp2F16 f.d f.a rnd)))
  | 0x068 => zeros (f.b == 0#6 && f.low.extractLsb' 27 6 == 0#6 && f.low.extractLsb' 0 24 == 0#24) (withMod (Rnd.ofCode (f.low.extractLsb' 24 3)) (fun rnd => .ok (.flog2F16 f.d f.a rnd)))
  | 0x069 => zeros (f.b == 0#6 && f.low.extractLsb' 27 6 == 0#6 && f.low.extractLsb' 0 24 == 0#24) (withMod (Rnd.ofCode (f.low.extractLsb' 24 3)) (fun rnd => .ok (.fsinF16 f.d f.a rnd)))
  | 0x06a => zeros (f.b == 0#6 && f.low.extractLsb' 27 6 == 0#6 && f.low.extractLsb' 0 24 == 0#24) (withMod (Rnd.ofCode (f.low.extractLsb' 24 3)) (fun rnd => .ok (.fcosF16 f.d f.a rnd)))
  | 0x06b => zeros (f.low == 0#33) (.ok (.fminF16 f.d f.a f.b))
  | 0x06c => zeros (f.low == 0#33) (.ok (.fmaxF16 f.d f.a f.b))
  | 0x06d => zeros (f.d.extractLsb' 3 3 == 0#3 && f.low.extractLsb' 24 9 == 0#9 && f.low.extractLsb' 0 20 == 0#20) (withMod (FCond.ofCode (f.low.extractLsb' 20 4)) (fun cond => .ok (.fcmpF16 (f.d.extractLsb' 0 3) f.a f.b cond)))
  | 0x06e => zeros (f.b == 0#6 && f.low == 0#33) (.ok (.fclassF16 f.d f.a))
  | _ => .illegalOpcode

/-- Checks 2 and 3 of R97 for the codes 0x070 to 0x07e (Table 3.8). -/
def decodeRow07 (f : Fields) : Nat → Decoded
  | 0x070 => zeros (f.low.extractLsb' 27 6 == 0#6 && f.low.extractLsb' 0 24 == 0#24) (withMod (Rnd.ofCode (f.low.extractLsb' 24 3)) (fun rnd => .ok (.faddBf16 f.d f.a f.b rnd)))
  | 0x071 => zeros (f.low.extractLsb' 27 6 == 0#6 && f.low.extractLsb' 0 24 == 0#24) (withMod (Rnd.ofCode (f.low.extractLsb' 24 3)) (fun rnd => .ok (.fsubBf16 f.d f.a f.b rnd)))
  | 0x072 => zeros (f.low.extractLsb' 27 6 == 0#6 && f.low.extractLsb' 0 24 == 0#24) (withMod (Rnd.ofCode (f.low.extractLsb' 24 3)) (fun rnd => .ok (.fmulBf16 f.d f.a f.b rnd)))
  | 0x073 => zeros (f.low.extractLsb' 0 24 == 0#24) (withMod (Rnd.ofCode (f.low.extractLsb' 24 3)) (fun rnd => .ok (.ffmaBf16 f.d f.a f.b (f.low.extractLsb' 27 6) rnd)))
  | 0x074 => zeros (f.low.extractLsb' 27 6 == 0#6 && f.low.extractLsb' 0 24 == 0#24) (withMod (Rnd.ofCode (f.low.extractLsb' 24 3)) (fun rnd => .ok (.fdivBf16 f.d f.a f.b rnd)))
  | 0x075 => zeros (f.b == 0#6 && f.low.extractLsb' 27 6 == 0#6 && f.low.extractLsb' 0 24 == 0#24) (withMod (Rnd.ofCode (f.low.extractLsb' 24 3)) (fun rnd => .ok (.fsqrtBf16 f.d f.a rnd)))
  | 0x076 => zeros (f.b == 0#6 && f.low.extractLsb' 27 6 == 0#6 && f.low.extractLsb' 0 24 == 0#24) (withMod (Rnd.ofCode (f.low.extractLsb' 24 3)) (fun rnd => .ok (.frsqrtBf16 f.d f.a rnd)))
  | 0x077 => zeros (f.b == 0#6 && f.low.extractLsb' 27 6 == 0#6 && f.low.extractLsb' 0 24 == 0#24) (withMod (Rnd.ofCode (f.low.extractLsb' 24 3)) (fun rnd => .ok (.fexp2Bf16 f.d f.a rnd)))
  | 0x078 => zeros (f.b == 0#6 && f.low.extractLsb' 27 6 == 0#6 && f.low.extractLsb' 0 24 == 0#24) (withMod (Rnd.ofCode (f.low.extractLsb' 24 3)) (fun rnd => .ok (.flog2Bf16 f.d f.a rnd)))
  | 0x079 => zeros (f.b == 0#6 && f.low.extractLsb' 27 6 == 0#6 && f.low.extractLsb' 0 24 == 0#24) (withMod (Rnd.ofCode (f.low.extractLsb' 24 3)) (fun rnd => .ok (.fsinBf16 f.d f.a rnd)))
  | 0x07a => zeros (f.b == 0#6 && f.low.extractLsb' 27 6 == 0#6 && f.low.extractLsb' 0 24 == 0#24) (withMod (Rnd.ofCode (f.low.extractLsb' 24 3)) (fun rnd => .ok (.fcosBf16 f.d f.a rnd)))
  | 0x07b => zeros (f.low == 0#33) (.ok (.fminBf16 f.d f.a f.b))
  | 0x07c => zeros (f.low == 0#33) (.ok (.fmaxBf16 f.d f.a f.b))
  | 0x07d => zeros (f.d.extractLsb' 3 3 == 0#3 && f.low.extractLsb' 24 9 == 0#9 && f.low.extractLsb' 0 20 == 0#20) (withMod (FCond.ofCode (f.low.extractLsb' 20 4)) (fun cond => .ok (.fcmpBf16 (f.d.extractLsb' 0 3) f.a f.b cond)))
  | 0x07e => zeros (f.b == 0#6 && f.low == 0#33) (.ok (.fclassBf16 f.d f.a))
  | _ => .illegalOpcode

/-- Checks 2 and 3 of R97 for the codes 0x080 to 0x08f (Table 3.8) (LOG 44 DEDUCED). -/
noncomputable def decodeRow08 (f : Fields) : Nat → Decoded
  | 0x080 => zeros (f.low.extractLsb' 28 1 == 0#1) (withMod (Ord.ofCode (f.low.extractLsb' 24 2)) (fun ord => withMod (Scope.ofCode (f.low.extractLsb' 21 3)) (fun scope => .ok (.ld f.d f.a f.b (f.low.extractLsb' 30 3) (f.low.getLsbD 29) (f.low.extractLsb' 26 2) ord scope (f.low.extractLsb' 0 21)))))
  | 0x081 => zeros (f.low.extractLsb' 28 1 == 0#1) (needMod (!f.low.getLsbD 29) (withMod (Ord.ofCode (f.low.extractLsb' 24 2)) (fun ord => withMod (Scope.ofCode (f.low.extractLsb' 21 3)) (fun scope => .ok (.st f.d f.a f.b (f.low.extractLsb' 30 3) (f.low.extractLsb' 26 2) ord scope (f.low.extractLsb' 0 21))))))
  | 0x082 => withMod (CvtFmt.ofCode (f.low.extractLsb' 26 4)) (fun rf => withMod (Ord.ofCode (f.low.extractLsb' 24 2)) (fun ord => withMod (Scope.ofCode (f.low.extractLsb' 21 3)) (fun scope => .ok (.ldx f.d f.a f.b (f.low.extractLsb' 30 3) rf ord scope (f.low.extractLsb' 0 21)))))
  | 0x083 => withMod (CvtFmt.ofCode (f.low.extractLsb' 26 4)) (fun rf => withMod (Ord.ofCode (f.low.extractLsb' 24 2)) (fun ord => withMod (Scope.ofCode (f.low.extractLsb' 21 3)) (fun scope => .ok (.stx f.d f.a f.b (f.low.extractLsb' 30 3) rf ord scope (f.low.extractLsb' 0 21)))))
  | 0x084 => zeros (f.low.extractLsb' 28 1 == 0#1) (withMod (Ord.ofCode (f.low.extractLsb' 24 2)) (fun ord => withMod (Scope.ofCode (f.low.extractLsb' 21 3)) (fun scope => .ok (.lds f.d f.a f.b (f.low.extractLsb' 30 3) (f.low.getLsbD 29) (f.low.extractLsb' 26 2) ord scope (f.low.extractLsb' 0 21)))))
  | 0x085 => zeros (f.low.extractLsb' 28 1 == 0#1) (needMod (!f.low.getLsbD 29) (withMod (Ord.ofCode (f.low.extractLsb' 24 2)) (fun ord => withMod (Scope.ofCode (f.low.extractLsb' 21 3)) (fun scope => .ok (.sts f.d f.a f.b (f.low.extractLsb' 30 3) (f.low.extractLsb' 26 2) ord scope (f.low.extractLsb' 0 21))))))
  | 0x086 => zeros (f.d == 0#6 && f.low.extractLsb' 26 4 == 0#4) (needMod (f.low.extractLsb' 21 5 == 0#5) (.ok (.pref f.a f.b (f.low.extractLsb' 30 3) (f.low.extractLsb' 0 21))))
  | 0x087 => zeros (f.d == 0#6 && f.low.extractLsb' 26 4 == 0#4) (needMod (f.low.extractLsb' 21 5 == 0#5) (.ok (.clean f.a f.b (f.low.extractLsb' 30 3) (f.low.extractLsb' 0 21))))
  | 0x088 => zeros (f.d == 0#6 && f.low.extractLsb' 26 4 == 0#4) (needMod (f.low.extractLsb' 21 5 == 0#5) (.ok (.inval f.a f.b (f.low.extractLsb' 30 3) (f.low.extractLsb' 0 21))))
  | 0x089 => zeros (f.d == 0#6 && f.a == 0#6 && f.b == 0#6 && f.low.extractLsb' 26 7 == 0#7 && f.low.extractLsb' 0 21 == 0#21) (withMod (Ord.ofCode (f.low.extractLsb' 24 2)) (fun ord => withMod (Scope.ofCode (f.low.extractLsb' 21 3)) (fun scope => .ok (.fence ord scope))))
  | 0x08a => needMod (f.low.extractLsb' 21 5 == 0#5) (.ok (.spb f.d f.a f.b (f.low.extractLsb' 30 3) (f.low.extractLsb' 26 4) (f.low.extractLsb' 0 21)))
  | 0x08b => needMod (f.low.extractLsb' 21 5 == 0#5) (.ok (.fla f.d f.a f.b (f.low.extractLsb' 30 3) (f.low.extractLsb' 26 4) (f.low.extractLsb' 0 21)))
  | 0x08c => zeros (f.d == 0#6 && f.a == 0#6 && f.b == 0#6 && f.low == 0#33) (.ok (.spw))
  | 0x08d => zeros (f.low.extractLsb' 0 18 == 0#18) (withMod (Rnd.ofCode (f.low.extractLsb' 22 3)) (fun rnd => .ok (.copy f.d f.a f.b (f.low.extractLsb' 27 6) (f.low.getLsbD 26) (f.low.getLsbD 25) rnd (f.low.getLsbD 21) (f.low.extractLsb' 18 3))))
  | 0x08e => zeros (f.b == 0#6 && f.low == 0#33) (.ok (.ctest f.d f.a))
  | 0x08f => zeros (f.b == 0#6 && f.low == 0#33) (.ok (.cwait f.d f.a))
  | _ => .illegalOpcode

/-- Checks 2 and 3 of R97 for the codes 0x090 to 0x098 (Table 3.8). -/
noncomputable def decodeRow09 (f : Fields) : Nat → Decoded
  | 0x090 => zeros (f.low.extractLsb' 28 1 == 0#1) (needMod (!f.low.getLsbD 29) (withMod (Ord.ofCode (f.low.extractLsb' 24 2)) (fun ord => withMod (Scope.ofCode (f.low.extractLsb' 21 3)) (fun scope => .ok (.amoadd f.d f.a f.b (f.low.extractLsb' 30 3) (f.low.extractLsb' 26 2) ord scope (f.low.extractLsb' 0 21))))))
  | 0x091 => zeros (f.low.extractLsb' 28 1 == 0#1) (needMod (!f.low.getLsbD 29) (withMod (Ord.ofCode (f.low.extractLsb' 24 2)) (fun ord => withMod (Scope.ofCode (f.low.extractLsb' 21 3)) (fun scope => .ok (.amomin f.d f.a f.b (f.low.extractLsb' 30 3) (f.low.extractLsb' 26 2) ord scope (f.low.extractLsb' 0 21))))))
  | 0x092 => zeros (f.low.extractLsb' 28 1 == 0#1) (needMod (!f.low.getLsbD 29) (withMod (Ord.ofCode (f.low.extractLsb' 24 2)) (fun ord => withMod (Scope.ofCode (f.low.extractLsb' 21 3)) (fun scope => .ok (.amomax f.d f.a f.b (f.low.extractLsb' 30 3) (f.low.extractLsb' 26 2) ord scope (f.low.extractLsb' 0 21))))))
  | 0x093 => zeros (f.low.extractLsb' 28 1 == 0#1) (needMod (!f.low.getLsbD 29) (withMod (Ord.ofCode (f.low.extractLsb' 24 2)) (fun ord => withMod (Scope.ofCode (f.low.extractLsb' 21 3)) (fun scope => .ok (.amoand f.d f.a f.b (f.low.extractLsb' 30 3) (f.low.extractLsb' 26 2) ord scope (f.low.extractLsb' 0 21))))))
  | 0x094 => zeros (f.low.extractLsb' 28 1 == 0#1) (needMod (!f.low.getLsbD 29) (withMod (Ord.ofCode (f.low.extractLsb' 24 2)) (fun ord => withMod (Scope.ofCode (f.low.extractLsb' 21 3)) (fun scope => .ok (.amoor f.d f.a f.b (f.low.extractLsb' 30 3) (f.low.extractLsb' 26 2) ord scope (f.low.extractLsb' 0 21))))))
  | 0x095 => zeros (f.low.extractLsb' 28 1 == 0#1) (needMod (!f.low.getLsbD 29) (withMod (Ord.ofCode (f.low.extractLsb' 24 2)) (fun ord => withMod (Scope.ofCode (f.low.extractLsb' 21 3)) (fun scope => .ok (.amoxor f.d f.a f.b (f.low.extractLsb' 30 3) (f.low.extractLsb' 26 2) ord scope (f.low.extractLsb' 0 21))))))
  | 0x096 => zeros (f.low.extractLsb' 28 1 == 0#1) (needMod (!f.low.getLsbD 29) (withMod (Ord.ofCode (f.low.extractLsb' 24 2)) (fun ord => withMod (Scope.ofCode (f.low.extractLsb' 21 3)) (fun scope => .ok (.amoswap f.d f.a f.b (f.low.extractLsb' 30 3) (f.low.extractLsb' 26 2) ord scope (f.low.extractLsb' 0 21))))))
  | 0x097 => zeros (f.low.extractLsb' 28 1 == 0#1) (needMod (!f.low.getLsbD 29) (withMod (Ord.ofCode (f.low.extractLsb' 24 2)) (fun ord => withMod (Scope.ofCode (f.low.extractLsb' 21 3)) (fun scope => .ok (.cas f.d f.a f.b (f.low.extractLsb' 30 3) (f.low.extractLsb' 26 2) ord scope (f.low.extractLsb' 0 21))))))
  | 0x098 => zeros (f.low.extractLsb' 28 1 == 0#1) (needMod (!f.low.getLsbD 29) (needMod (f.low.extractLsb' 26 2 == 2#2) (withMod (Ord.ofCode (f.low.extractLsb' 24 2)) (fun ord => withMod (Scope.ofCode (f.low.extractLsb' 21 3)) (fun scope => .ok (.amofaddF32 f.d f.a f.b (f.low.extractLsb' 30 3) ord scope (f.low.extractLsb' 0 21)))))))
  | _ => .illegalOpcode

/-- Checks 2 and 3 of R97 for the codes 0x0a0 to 0x0a8 (Table 3.8). -/
noncomputable def decodeRow0A (f : Fields) : Nat → Decoded
  | 0x0a0 => zeros (f.low.extractLsb' 28 1 == 0#1) (needMod (!f.low.getLsbD 29) (withMod (Ord.ofCode (f.low.extractLsb' 24 2)) (fun ord => withMod (Scope.ofCode (f.low.extractLsb' 21 3)) (fun scope => .ok (.amoaddSpad f.d f.a f.b (f.low.extractLsb' 30 3) (f.low.extractLsb' 26 2) ord scope (f.low.extractLsb' 0 21))))))
  | 0x0a1 => zeros (f.low.extractLsb' 28 1 == 0#1) (needMod (!f.low.getLsbD 29) (withMod (Ord.ofCode (f.low.extractLsb' 24 2)) (fun ord => withMod (Scope.ofCode (f.low.extractLsb' 21 3)) (fun scope => .ok (.amominSpad f.d f.a f.b (f.low.extractLsb' 30 3) (f.low.extractLsb' 26 2) ord scope (f.low.extractLsb' 0 21))))))
  | 0x0a2 => zeros (f.low.extractLsb' 28 1 == 0#1) (needMod (!f.low.getLsbD 29) (withMod (Ord.ofCode (f.low.extractLsb' 24 2)) (fun ord => withMod (Scope.ofCode (f.low.extractLsb' 21 3)) (fun scope => .ok (.amomaxSpad f.d f.a f.b (f.low.extractLsb' 30 3) (f.low.extractLsb' 26 2) ord scope (f.low.extractLsb' 0 21))))))
  | 0x0a3 => zeros (f.low.extractLsb' 28 1 == 0#1) (needMod (!f.low.getLsbD 29) (withMod (Ord.ofCode (f.low.extractLsb' 24 2)) (fun ord => withMod (Scope.ofCode (f.low.extractLsb' 21 3)) (fun scope => .ok (.amoandSpad f.d f.a f.b (f.low.extractLsb' 30 3) (f.low.extractLsb' 26 2) ord scope (f.low.extractLsb' 0 21))))))
  | 0x0a4 => zeros (f.low.extractLsb' 28 1 == 0#1) (needMod (!f.low.getLsbD 29) (withMod (Ord.ofCode (f.low.extractLsb' 24 2)) (fun ord => withMod (Scope.ofCode (f.low.extractLsb' 21 3)) (fun scope => .ok (.amoorSpad f.d f.a f.b (f.low.extractLsb' 30 3) (f.low.extractLsb' 26 2) ord scope (f.low.extractLsb' 0 21))))))
  | 0x0a5 => zeros (f.low.extractLsb' 28 1 == 0#1) (needMod (!f.low.getLsbD 29) (withMod (Ord.ofCode (f.low.extractLsb' 24 2)) (fun ord => withMod (Scope.ofCode (f.low.extractLsb' 21 3)) (fun scope => .ok (.amoxorSpad f.d f.a f.b (f.low.extractLsb' 30 3) (f.low.extractLsb' 26 2) ord scope (f.low.extractLsb' 0 21))))))
  | 0x0a6 => zeros (f.low.extractLsb' 28 1 == 0#1) (needMod (!f.low.getLsbD 29) (withMod (Ord.ofCode (f.low.extractLsb' 24 2)) (fun ord => withMod (Scope.ofCode (f.low.extractLsb' 21 3)) (fun scope => .ok (.amoswapSpad f.d f.a f.b (f.low.extractLsb' 30 3) (f.low.extractLsb' 26 2) ord scope (f.low.extractLsb' 0 21))))))
  | 0x0a7 => zeros (f.low.extractLsb' 28 1 == 0#1) (needMod (!f.low.getLsbD 29) (withMod (Ord.ofCode (f.low.extractLsb' 24 2)) (fun ord => withMod (Scope.ofCode (f.low.extractLsb' 21 3)) (fun scope => .ok (.casSpad f.d f.a f.b (f.low.extractLsb' 30 3) (f.low.extractLsb' 26 2) ord scope (f.low.extractLsb' 0 21))))))
  | 0x0a8 => zeros (f.low.extractLsb' 28 1 == 0#1) (needMod (!f.low.getLsbD 29) (needMod (f.low.extractLsb' 26 2 == 2#2) (withMod (Ord.ofCode (f.low.extractLsb' 24 2)) (fun ord => withMod (Scope.ofCode (f.low.extractLsb' 21 3)) (fun scope => .ok (.amofaddF32Spad f.d f.a f.b (f.low.extractLsb' 30 3) ord scope (f.low.extractLsb' 0 21)))))))
  | _ => .illegalOpcode

/-- Checks 2 and 3 of R97 for the codes 0x0c0 to 0x0cf (Table 3.8). -/
noncomputable def decodeRow0C (f : Fields) : Nat → Decoded
  | 0x0c0 => zeros (f.d.extractLsb' 5 1 == 0#1 && f.b == 0#6 && f.low.extractLsb' 4 29 == 0#29) (.ok (.qpush (f.d.extractLsb' 0 5) f.a (f.low.extractLsb' 0 4)))
  | 0x0c1 => zeros (f.d.extractLsb' 5 1 == 0#1 && f.a == 0#6 && f.b == 0#6 && f.low.extractLsb' 32 1 == 0#1) (.ok (.qpushI (f.d.extractLsb' 0 5) (f.low.extractLsb' 0 32)))
  | 0x0c2 => zeros (f.d.extractLsb' 5 1 == 0#1 && f.b == 0#6 && f.low.extractLsb' 4 29 == 0#29) (.ok (.qpushs (f.d.extractLsb' 0 5) f.a (f.low.extractLsb' 0 4)))
  | 0x0c3 => zeros (f.d.extractLsb' 5 1 == 0#1 && f.a == 0#6 && f.b == 0#6 && f.low.extractLsb' 32 1 == 0#1) (.ok (.qpushsI (f.d.extractLsb' 0 5) (f.low.extractLsb' 0 32)))
  | 0x0c4 => zeros (f.a.extractLsb' 5 1 == 0#1 && f.b == 0#6 && f.low.extractLsb' 4 29 == 0#29) (.ok (.qpop f.d (f.a.extractLsb' 0 5) (f.low.extractLsb' 0 4)))
  | 0x0c5 => zeros (f.a.extractLsb' 5 1 == 0#1 && f.b == 0#6 && f.low.extractLsb' 4 29 == 0#29) (.ok (.qpeek f.d (f.a.extractLsb' 0 5) (f.low.extractLsb' 0 4)))
  | 0x0c6 => zeros (f.a.extractLsb' 5 1 == 0#1 && f.b.extractLsb' 3 3 == 0#3 && f.low.extractLsb' 4 29 == 0#29) (.ok (.qtry f.d (f.a.extractLsb' 0 5) (f.b.extractLsb' 0 3) (f.low.extractLsb' 0 4)))
  | 0x0c7 => zeros (f.a.extractLsb' 5 1 == 0#1 && f.b == 0#6 && f.low == 0#33) (.ok (.qstat f.d (f.a.extractLsb' 0 5)))
  | 0x0c8 => zeros (f.d.extractLsb' 5 1 == 0#1 && f.b == 0#6 && f.low.extractLsb' 4 29 == 0#29) (.ok (.chsend (f.d.extractLsb' 0 5) f.a (f.low.extractLsb' 0 4)))
  | 0x0c9 => zeros (f.d.extractLsb' 5 1 == 0#1 && f.a == 0#6 && f.b == 0#6 && f.low.extractLsb' 32 1 == 0#1) (.ok (.chsendI (f.d.extractLsb' 0 5) (f.low.extractLsb' 0 32)))
  | 0x0ca => zeros (f.a.extractLsb' 5 1 == 0#1 && f.b == 0#6 && f.low.extractLsb' 4 29 == 0#29) (.ok (.chrecv f.d (f.a.extractLsb' 0 5) (f.low.extractLsb' 0 4)))
  | 0x0cb => zeros (f.d == 0#6 && f.a.extractLsb' 4 2 == 0#2 && f.low == 0#33) (.ok (.cbwaitF (f.a.extractLsb' 0 4) f.b))
  | 0x0cc => zeros (f.d == 0#6 && f.a.extractLsb' 4 2 == 0#2 && f.b == 0#6 && f.low.extractLsb' 13 20 == 0#20) (.ok (.cbwaitFI (f.a.extractLsb' 0 4) (f.low.extractLsb' 0 13)))
  | 0x0cd => zeros (f.d == 0#6 && f.a.extractLsb' 4 2 == 0#2 && f.low == 0#33) (.ok (.cbwaitE (f.a.extractLsb' 0 4) f.b))
  | 0x0ce => zeros (f.d == 0#6 && f.a.extractLsb' 4 2 == 0#2 && f.b == 0#6 && f.low.extractLsb' 13 20 == 0#20) (.ok (.cbwaitEI (f.a.extractLsb' 0 4) (f.low.extractLsb' 0 13)))
  | 0x0cf => zeros (f.d == 0#6 && f.a.extractLsb' 4 2 == 0#2 && f.low == 0#33) (.ok (.cbadvP (f.a.extractLsb' 0 4) f.b))
  | _ => .illegalOpcode

/-- Checks 2 and 3 of R97 for the codes 0x0d0 to 0x0d4 (Table 3.8). -/
noncomputable def decodeRow0D (f : Fields) : Nat → Decoded
  | 0x0d0 => zeros (f.d == 0#6 && f.a.extractLsb' 4 2 == 0#2 && f.b == 0#6 && f.low.extractLsb' 13 20 == 0#20) (.ok (.cbadvPI (f.a.extractLsb' 0 4) (f.low.extractLsb' 0 13)))
  | 0x0d1 => zeros (f.d == 0#6 && f.a.extractLsb' 4 2 == 0#2 && f.low == 0#33) (.ok (.cbadvC (f.a.extractLsb' 0 4) f.b))
  | 0x0d2 => zeros (f.d == 0#6 && f.a.extractLsb' 4 2 == 0#2 && f.b == 0#6 && f.low.extractLsb' 13 20 == 0#20) (.ok (.cbadvCI (f.a.extractLsb' 0 4) (f.low.extractLsb' 0 13)))
  | 0x0d3 => zeros (f.d.extractLsb' 4 2 == 0#2 && f.low == 0#33) (.ok (.cbset (f.d.extractLsb' 0 4) f.a f.b))
  | 0x0d4 => zeros (f.a.extractLsb' 4 2 == 0#2 && f.b == 0#6 && f.low.extractLsb' 0 27 == 0#27) (.ok (.cbget f.d (f.a.extractLsb' 0 4) (f.low.extractLsb' 27 6)))
  | _ => .illegalOpcode

/-- Checks 2 and 3 of R97 for the codes 0x100 to 0x109 (Table 3.8). -/
noncomputable def decodeRow10 (f : Fields) : Nat → Decoded
  | 0x100 => zeros (f.d == 0#6 && f.a == 0#6 && f.low == 0#33) (.ok (.vcfg f.b))
  | 0x101 => zeros (f.d == 0#6 && f.a == 0#6 && f.b == 0#6 && f.low.extractLsb' 32 1 == 0#1) (.ok (.vcfgI (f.low.extractLsb' 0 32)))
  | 0x102 => zeros (f.d.extractLsb' 4 2 == 0#2 && f.a.extractLsb' 4 2 == 0#2 && RunLen.zeroOk f && f.low.extractLsb' 16 13 == 0#13) (.ok (.vrunHh (f.d.extractLsb' 0 4) (f.a.extractLsb' 0 4) (RunLen.ofFields f) (f.low.getLsbD 32) (f.low.extractLsb' 29 2)))
  | 0x103 => zeros (f.d.extractLsb' 5 1 == 0#1 && f.a.extractLsb' 4 2 == 0#2 && RunLen.zeroOk f && f.low.extractLsb' 16 13 == 0#13) (.ok (.vrunHq (f.d.extractLsb' 0 5) (f.a.extractLsb' 0 4) (RunLen.ofFields f) (f.low.getLsbD 32) (f.low.extractLsb' 29 2)))
  | 0x104 => zeros (f.d.extractLsb' 4 2 == 0#2 && f.a.extractLsb' 5 1 == 0#1 && RunLen.zeroOk f && f.low.extractLsb' 16 13 == 0#13) (.ok (.vrunQh (f.d.extractLsb' 0 4) (f.a.extractLsb' 0 5) (RunLen.ofFields f) (f.low.getLsbD 32) (f.low.extractLsb' 29 2)))
  | 0x105 => zeros (f.d.extractLsb' 5 1 == 0#1 && f.a.extractLsb' 5 1 == 0#1 && RunLen.zeroOk f && f.low.extractLsb' 16 13 == 0#13) (needMod (f.low.extractLsb' 29 2 == 0#2) (.ok (.vrunQq (f.d.extractLsb' 0 5) (f.a.extractLsb' 0 5) (RunLen.ofFields f) (f.low.getLsbD 32))))
  | 0x106 => zeros (f.d.extractLsb' 2 4 == 0#4 && f.a == 0#6 && f.low == 0#33) (.ok (.vloop (f.d.extractLsb' 0 2) f.b))
  | 0x107 => zeros (f.d.extractLsb' 2 4 == 0#4 && f.a == 0#6 && f.b == 0#6 && f.low.extractLsb' 32 1 == 0#1) (.ok (.vloopI (f.d.extractLsb' 0 2) (f.low.extractLsb' 0 32)))
  | 0x108 => zeros (f.d.extractLsb' 2 4 == 0#4 && f.a == 0#6 && f.b == 0#6 && f.low == 0#33) (.ok (.vend (f.d.extractLsb' 0 2)))
  | 0x109 => zeros (f.d == 0#6 && f.a == 0#6 && f.b == 0#6 && f.low == 0#33) (.ok (.vsync))
  | _ => .illegalOpcode

/-- Checks 2 and 3 of R97 for the codes 0x140 to 0x14d (Table 3.8). -/
def decodeRow14 (f : Fields) : Nat → Decoded
  | 0x140 => zeros (f.d == 0#6 && f.a.extractLsb' 2 4 == 0#4 && f.b == 0#6 && f.low.extractLsb' 0 26 == 0#26) (withMod (MFmt.ofCode (f.low.extractLsb' 29 4)) (fun mf => .ok (.mldsS (f.a.extractLsb' 0 2) mf (f.low.extractLsb' 26 3))))
  | 0x141 => zeros (f.d == 0#6 && f.a.extractLsb' 4 2 == 0#2 && f.b == 0#6 && f.low.extractLsb' 0 29 == 0#29) (withMod (MFmt.ofCode (f.low.extractLsb' 29 4)) (fun mf => .ok (.mldsH (f.a.extractLsb' 0 4) mf)))
  | 0x142 => zeros (f.d == 0#6 && f.a == 0#6 && f.b == 0#6 && f.low == 0#33) (.ok (.mswap))
  | 0x143 => zeros (f.d.extractLsb' 2 4 == 0#4 && f.a.extractLsb' 4 2 == 0#2 && f.b == 0#6 && f.low.extractLsb' 0 19 == 0#19) (withMod (MFmt.ofCode (f.low.extractLsb' 29 4)) (fun af => .ok (.maccNH (f.d.extractLsb' 0 2) (f.a.extractLsb' 0 4) af (f.low.extractLsb' 24 5) (f.low.extractLsb' 19 5))))
  | 0x144 => zeros (f.d.extractLsb' 2 4 == 0#4 && f.a.extractLsb' 5 1 == 0#1 && f.b == 0#6 && f.low.extractLsb' 0 19 == 0#19) (withMod (MFmt.ofCode (f.low.extractLsb' 29 4)) (fun af => .ok (.maccNQ (f.d.extractLsb' 0 2) (f.a.extractLsb' 0 5) af (f.low.extractLsb' 24 5) (f.low.extractLsb' 19 5))))
  | 0x145 => zeros (f.d.extractLsb' 2 4 == 0#4 && f.a.extractLsb' 4 2 == 0#2 && f.b == 0#6 && f.low.extractLsb' 0 19 == 0#19) (withMod (MFmt.ofCode (f.low.extractLsb' 29 4)) (fun af => .ok (.maccTH (f.d.extractLsb' 0 2) (f.a.extractLsb' 0 4) af (f.low.extractLsb' 24 5) (f.low.extractLsb' 19 5))))
  | 0x146 => zeros (f.d.extractLsb' 2 4 == 0#4 && f.a.extractLsb' 5 1 == 0#1 && f.b == 0#6 && f.low.extractLsb' 0 19 == 0#19) (withMod (MFmt.ofCode (f.low.extractLsb' 29 4)) (fun af => .ok (.maccTQ (f.d.extractLsb' 0 2) (f.a.extractLsb' 0 5) af (f.low.extractLsb' 24 5) (f.low.extractLsb' 19 5))))
  | 0x147 => zeros (f.d.extractLsb' 2 4 == 0#4 && f.a == 0#6 && f.b == 0#6 && f.low == 0#33) (.ok (.mzero (f.d.extractLsb' 0 2)))
  | 0x148 => zeros (f.d == 0#6 && f.b == 0#6 && f.low.extractLsb' 0 32 == 0#32) (.ok (.mscale f.a (f.low.getLsbD 32)))
  | 0x149 => zeros (f.d == 0#6 && f.a == 0#6 && f.b == 0#6 && f.low.extractLsb' 9 24 == 0#24) (.ok (.mscaleI (f.low.getLsbD 8) (f.low.extractLsb' 0 8)))
  | 0x14a => zeros (Dest.zeroOk f && f.a.extractLsb' 2 4 == 0#4 && f.b == 0#6 && f.low.extractLsb' 0 24 == 0#24) (withMod (DFmt.ofCode (f.low.extractLsb' 29 4)) (fun df => withMod (Rnd.ofCode (f.low.extractLsb' 26 3)) (fun rnd => .ok (.mdrain (Dest.ofFields f) (f.a.extractLsb' 0 2) df rnd (f.low.getLsbD 25)))))
  | 0x14b => zeros (f.d == 0#6 && f.a == 0#6 && f.b == 0#6 && f.low.extractLsb' 0 29 == 0#29) (.ok (.mgang (f.low.extractLsb' 29 4)))
  | 0x14c => zeros (f.d == 0#6 && f.b == 0#6 && f.low == 0#33) (.ok (.mperm f.a))
  | 0x14d => zeros (f.d.extractLsb' 2 4 == 0#4 && f.a.extractLsb' 2 4 == 0#4 && f.b == 0#6 && f.low == 0#33) (.ok (.mxchg (f.d.extractLsb' 0 2) (f.a.extractLsb' 0 2)))
  | _ => .illegalOpcode

/-- Checks 2 and 3 of R97 for the codes 0x150 to 0x155 (Table 3.8). -/
noncomputable def decodeRow15 (f : Fields) : Nat → Decoded
  | 0x150 => zeros (f.b == 0#6 && f.low == 0#33) (.ok (.iload f.d f.a))
  | 0x151 => zeros (f.d == 0#6 && f.a.extractLsb' 4 2 == 0#2 && f.b == 0#6 && f.low.extractLsb' 30 3 == 0#3 && f.low.extractLsb' 0 22 == 0#22) (.ok (.irunH (f.a.extractLsb' 0 4) (f.low.extractLsb' 28 2) (f.low.extractLsb' 22 6)))
  | 0x152 => zeros (f.d == 0#6 && f.a.extractLsb' 5 1 == 0#1 && f.b == 0#6 && f.low.extractLsb' 30 3 == 0#3 && f.low.extractLsb' 0 22 == 0#22) (.ok (.irunQ (f.a.extractLsb' 0 5) (f.low.extractLsb' 28 2) (f.low.extractLsb' 22 6)))
  | 0x153 => zeros (Dest.zeroOk f && f.a == 0#6 && f.b == 0#6 && f.low.extractLsb' 30 3 == 0#3 && f.low.extractLsb' 28 1 == 0#1 && f.low.extractLsb' 0 20 == 0#20) (withMod (NFmt.ofCode (f.low.extractLsb' 20 2)) (fun nf => .ok (.idrain (Dest.ofFields f) nf (f.low.extractLsb' 22 6))))
  | 0x154 => zeros (f.a == 0#6 && f.b == 0#6 && f.low.extractLsb' 0 30 == 0#30) (.ok (.istat f.d (f.low.extractLsb' 30 3)))
  | 0x155 => zeros (f.d == 0#6 && f.a == 0#6 && f.b == 0#6 && f.low.extractLsb' 30 3 == 0#3 && f.low.extractLsb' 0 28 == 0#28) (.ok (.iunload (f.low.extractLsb' 28 2)))
  | _ => .illegalOpcode

/-- Checks 2 and 3 of R97 for the codes 0x180 to 0x18f (Table 3.8). -/
noncomputable def decodeRow18 (f : Fields) : Nat → Decoded
  | 0x180 => zeros (f.d == 0#6 && f.b == 0#6 && f.low.extractLsb' 0 22 == 0#22) (.ok (.nsend f.a (f.low.extractLsb' 25 8) (f.low.extractLsb' 22 3)))
  | 0x181 => zeros (f.d == 0#6 && f.a.extractLsb' 4 2 == 0#2 && f.b == 0#6 && f.low.extractLsb' 22 3 == 0#3 && f.low.extractLsb' 0 9 == 0#9) (.ok (.nsendH (f.a.extractLsb' 0 4) (f.low.extractLsb' 25 8) (f.low.extractLsb' 9 13)))
  | 0x182 => zeros (f.a == 0#6 && f.b == 0#6 && f.low.extractLsb' 0 22 == 0#22) (.ok (.nrecv f.d (f.low.extractLsb' 25 8) (f.low.extractLsb' 22 3)))
  | 0x183 => zeros (f.d.extractLsb' 4 2 == 0#2 && f.a == 0#6 && f.b == 0#6 && f.low.extractLsb' 22 3 == 0#3 && f.low.extractLsb' 0 9 == 0#9) (.ok (.nrecvH (f.d.extractLsb' 0 4) (f.low.extractLsb' 25 8) (f.low.extractLsb' 9 13)))
  | 0x184 => zeros (f.d == 0#6 && f.b == 0#6 && f.low.extractLsb' 0 22 == 0#22) (.ok (.nred f.a (f.low.extractLsb' 25 8) (f.low.extractLsb' 22 3)))
  | 0x185 => zeros (f.d == 0#6 && f.a.extractLsb' 4 2 == 0#2 && f.b == 0#6 && f.low.extractLsb' 22 3 == 0#3 && f.low.extractLsb' 0 9 == 0#9) (.ok (.nredH (f.a.extractLsb' 0 4) (f.low.extractLsb' 25 8) (f.low.extractLsb' 9 13)))
  | 0x186 => zeros (f.d == 0#6 && f.b == 0#6 && f.low.extractLsb' 0 22 == 0#22) (.ok (.nbcast f.a (f.low.extractLsb' 25 8) (f.low.extractLsb' 22 3)))
  | 0x187 => zeros (f.d == 0#6 && f.a.extractLsb' 4 2 == 0#2 && f.b == 0#6 && f.low.extractLsb' 22 3 == 0#3 && f.low.extractLsb' 0 9 == 0#9) (.ok (.nbcastH (f.a.extractLsb' 0 4) (f.low.extractLsb' 25 8) (f.low.extractLsb' 9 13)))
  | 0x188 => zeros (f.d == 0#6 && f.b == 0#6 && f.low == 0#33) (.ok (.ntok f.a))
  | 0x189 => zeros (f.d == 0#6 && f.a == 0#6 && f.b == 0#6 && f.low.extractLsb' 32 1 == 0#1) (.ok (.ntokI (f.low.extractLsb' 0 32)))
  | 0x18a => zeros (f.low == 0#33) (.ok (.narm f.d f.a f.b))
  | 0x18b => zeros (f.a == 0#6 && f.b == 0#6 && f.low.extractLsb' 32 1 == 0#1) (.ok (.narmI f.d (f.low.extractLsb' 0 32)))
  | 0x18c => zeros (f.d == 0#6 && f.a == 0#6 && f.b == 0#6 && f.low == 0#33) (.ok (.nfence))
  | 0x18d => zeros (VnSel.zeroOk f && f.b == 0#6 && f.low.extractLsb' 0 28 == 0#28) (.ok (.vnwait f.d (VnSel.ofFields f) (f.low.extractLsb' 29 4)))
  | 0x18e => zeros (f.d == 0#6 && f.b == 0#6 && f.low == 0#33) (.ok (.vnrel f.a))
  | 0x18f => zeros (f.d == 0#6 && f.a == 0#6 && f.b == 0#6 && f.low.extractLsb' 32 1 == 0#1) (.ok (.vnrelI (f.low.extractLsb' 0 32)))
  | _ => .illegalOpcode

/-- Checks 2 and 3 of R97 for the codes 0x190 to 0x19c (Table 3.8). -/
noncomputable def decodeRow19 (f : Fields) : Nat → Decoded
  | 0x190 => zeros (f.b == 0#6 && f.low.extractLsb' 0 32 == 0#32) (.ok (.bar f.d f.a (f.low.getLsbD 32)))
  | 0x191 => zeros (f.a == 0#6 && f.b == 0#6 && f.low.extractLsb' 32 1 == 0#1 && f.low.extractLsb' 7 9 == 0#9) (.ok (.barI f.d (f.low.extractLsb' 0 6) (f.low.getLsbD 6) (f.low.extractLsb' 16 16)))
  | 0x192 => zeros (f.b == 0#6 && f.low == 0#33) (.ok (.pvget f.d f.a))
  | 0x193 => zeros (f.a == 0#6 && f.b == 0#6 && f.low.extractLsb' 32 1 == 0#1) (.ok (.pvgetI f.d (f.low.extractLsb' 0 32)))
  | 0x194 => zeros (f.b == 0#6 && f.low == 0#33) (.ok (.pvpin f.d f.a))
  | 0x195 => zeros (f.d == 0#6 && f.b == 0#6 && f.low == 0#33) (.ok (.pvunpin f.a))
  | 0x196 => if f.low.getLsbD 32 then zeros (f.b == 0#6 && f.low.extractLsb' 0 32 == 0#32) (.ok (.pvpubCom f.d f.a)) else zeros (f.b == 0#6 && f.low.extractLsb' 0 32 == 0#32) (.ok (.pvpubRes f.d f.a))
  | 0x197 => zeros (f.b == 0#6 && f.low == 0#33) (.ok (.pvswitch f.d f.a))
  | 0x198 => zeros (f.b == 0#6 && f.low == 0#33) (.ok (.pvtag f.d f.a))
  | 0x199 => zeros (f.d == 0#6 && f.low == 0#33) (.ok (.stash f.a f.b))
  | 0x19a => zeros (f.low == 0#33) (.ok (.unstash f.d f.a f.b))
  | 0x19b => zeros (f.d == 0#6 && f.b == 0#6 && f.low.extractLsb' 0 30 == 0#30) (.ok (.srseed f.a (f.low.extractLsb' 30 3)))
  | 0x19c => zeros (f.d == 0#6 && f.a == 0#6 && f.b == 0#6 && f.low.extractLsb' 0 27 == 0#27) (.ok (.gradarm (f.low.extractLsb' 27 6)))
  | _ => .illegalOpcode

/-- Checks 2 and 3 of R97 for the codes 0x1c0 to 0x1cf (Table 3.8). -/
noncomputable def decodeRow1C (f : Fields) : Nat → Decoded
  | 0x1c0 => zeros (f.d == 0#6 && f.b == 0#6 && f.low == 0#33) (.ok (.trap f.a))
  | 0x1c1 => zeros (f.d == 0#6 && f.a == 0#6 && f.b == 0#6 && f.low.extractLsb' 32 1 == 0#1) (.ok (.trapI (f.low.extractLsb' 0 32)))
  | 0x1c2 => zeros (f.d == 0#6 && f.a == 0#6 && f.b == 0#6 && f.low == 0#33) (.ok (.eret))
  | 0x1c3 => zeros (f.a == 0#6 && f.b == 0#6 && f.low.extractLsb' 0 23 == 0#23) (.ok (.krd f.d (f.low.extractLsb' 23 10)))
  | 0x1c4 => zeros (f.d == 0#6 && f.b == 0#6 && f.low.extractLsb' 0 23 == 0#23) (.ok (.kwr f.a (f.low.extractLsb' 23 10)))
  | 0x1c5 => zeros (f.d == 0#6 && f.b == 0#6 && f.low == 0#33) (.ok (.tlbinv f.a))
  | 0x1c6 => zeros (f.d == 0#6 && f.low == 0#33) (.ok (.tlbinvr f.a f.b))
  | 0x1c7 => zeros (f.low == 0#33) (.ok (.shoot f.d f.a f.b))
  | 0x1c8 => zeros (f.b == 0#6 && f.low == 0#33) (.ok (.freeze f.d f.a))
  | 0x1c9 => zeros (f.b == 0#6 && f.low == 0#33) (.ok (.thaw f.d f.a))
  | 0x1ca => zeros (f.b == 0#6 && f.low == 0#33) (.ok (.featrd f.d f.a))
  | 0x1cb => zeros (f.a == 0#6 && f.b == 0#6 && f.low.extractLsb' 32 1 == 0#1) (.ok (.featrdI f.d (f.low.extractLsb' 0 32)))
  | 0x1cc => zeros (f.d == 0#6 && f.a == 0#6 && f.b == 0#6 && f.low.extractLsb' 16 17 == 0#17) (.ok (.brk (f.low.extractLsb' 0 16)))
  | 0x1cd => zeros (f.d == 0#6 && f.b == 0#6 && f.low == 0#33) (.ok (.dhalt f.a))
  | 0x1ce => zeros (f.d == 0#6 && f.b == 0#6 && f.low == 0#33) (.ok (.dresume f.a))
  | 0x1cf => zeros (f.low.extractLsb' 23 10 == 0#10 && f.low.extractLsb' 0 17 == 0#17) (.ok (.bwdderive f.d f.a f.b (f.low.extractLsb' 17 6)))
  | _ => .illegalOpcode

/-- Checks 1 to 3 of R97 without the cross-field rules: the row of the opcode's upper five bits. -/
noncomputable def decodeFields (f : Fields) : Decoded :=
  match f.opc.toNat / 16 with
  | 0x00 => decodeRow00 f f.opc.toNat
  | 0x01 => decodeRow01 f f.opc.toNat
  | 0x02 => decodeRow02 f f.opc.toNat
  | 0x03 => decodeRow03 f f.opc.toNat
  | 0x04 => decodeRow04 f f.opc.toNat
  | 0x05 => decodeRow05 f f.opc.toNat
  | 0x06 => decodeRow06 f f.opc.toNat
  | 0x07 => decodeRow07 f f.opc.toNat
  | 0x08 => decodeRow08 f f.opc.toNat
  | 0x09 => decodeRow09 f f.opc.toNat
  | 0x0a => decodeRow0A f f.opc.toNat
  | 0x0c => decodeRow0C f f.opc.toNat
  | 0x0d => decodeRow0D f f.opc.toNat
  | 0x10 => decodeRow10 f f.opc.toNat
  | 0x14 => decodeRow14 f f.opc.toNat
  | 0x15 => decodeRow15 f f.opc.toNat
  | 0x18 => decodeRow18 f f.opc.toNat
  | 0x19 => decodeRow19 f f.opc.toNat
  | 0x1c => decodeRow1C f f.opc.toNat
  | _ => .illegalOpcode

/-- A word under checks 1 to 3 of R97, in that order (LOG 30 DESIGN CHOICE). -/
noncomputable def decode (w : BitVec 64) : Decoded :=
  match decodeFields (fieldsOf w) with
  | .ok i => if WellFormed i then .ok i else .illegalModifier
  | r => r

/-- A word of a matrix record under the same checks: its code lies in 0x140 to 0x14D (R223); 0x14E and 0x14F are no codes. -/
def decodeMatrix (w : BitVec 64) : Decoded :=
  match decodeRow14 (fieldsOf w) (fieldsOf w).opc.toNat with
  | .ok i => if WellFormed i then .ok i else .illegalModifier
  | r => r

/-- The instruction of a word, if it is one. -/
noncomputable def decodeWord (w : BitVec 64) : Option Instr :=
  match decode w with
  | .ok i => some i
  | _ => none

/-- A word from its eight little-endian bytes (R54, R85); none when there are fewer. -/
def wordOfBytes : List (BitVec 8) → Option (BitVec 64)
  | b0 :: b1 :: b2 :: b3 :: b4 :: b5 :: b6 :: b7 :: _ => some (b7 ++ b6 ++ b5 ++ b4 ++ b3 ++ b2 ++ b1 ++ b0)
  | _ => none

/-- The instruction that the decoder reads from an instruction whose bits are `w`, bit 0 the least significant bit of the
instruction's one word; every bit from `nbits` on is 0. -/
noncomputable def decodeTableWord (nbits w : Nat) : Option Instr :=
  decodeWord (BitVec.ofNat 64 (w % 2 ^ nbits))

end Sys2Proof
end

