-- ==== Sys2Proof/Config.lean ====
section
/-!
DEFINITION. What the spec leaves open and the model leaves free: constants without a value that anything could evaluate.
-/
namespace Sys2Proof

/-- Nanoseconds that pass in a step (LOG 5 DESIGN CHOICE). -/
opaque Config.stepNs : Nat → Nat

/-- Which line of a full L1 is evicted, by the step's number (LOG 20 DESIGN CHOICE). -/
opaque Config.l1Victim : Nat → Nat

/-- The value that a word of a matrix set-up record reads where it names a register of no strand: g[n] under n, p[n] under 64 + n
(LOG 28 DESIGN CHOICE). -/
opaque Config.recordReg : Nat → Word

/-- Word 3 of the context-error event of a lost dataflow token, by the chunk that it names (LOG 31 DESIGN CHOICE). -/
opaque Config.lostToken : Nat → Word

/-- The COL field of a fault record of the host faceplate's address generator, which serves no port (LOG 34 DESIGN CHOICE). -/
opaque Config.hostPlateCol : Nat

/-- What a debug READ of a queue register without an element returns, by the step's number (LOG 37 DESIGN CHOICE). -/
opaque Config.emptyQueue : Nat → Word

/-- Which pair of the losing direction's colours a split change moves, by the step's number (LOG 38 DESIGN CHOICE). -/
opaque Config.colourPair : Nat → Nat

/-- Whether the peer agrees to a split change that a register write starts, by the step's number (LOG 39 DESIGN CHOICE). -/
opaque Config.peerAgrees : Nat → Bool

/-- Whether the signature of a map with a digest verifies against the Osior root key (LOG 10 DESIGN CHOICE). -/
opaque Config.mapSigned : BitVec 256 → Bool

/-- Digest of an object that boot measures and whose bytes the spec does not lay out, by measurement register and two words
(LOG 40 DESIGN CHOICE). -/
opaque Config.objectDigest : Nat → Word → Word → BitVec 256

/-- Bytes of the device's serial number (LOG 41 DESIGN CHOICE). -/
opaque Config.serial : List Byte

/-- Hottest junction temperature that a power-cap step reports, by the step's number (LOG 42 DESIGN CHOICE). -/
opaque Config.junction : Nat → BitVec 16

/-- Byte of the attestation signature, by the digest signed and the byte's index (LOG 10 DESIGN CHOICE). -/
opaque Config.signature : BitVec 256 → Nat → Byte

/-- Which row or column of a MACC a second mismatch that the hardware's own error made is found in, by the step's number
(LOG 88 DESIGN CHOICE). -/
opaque Config.mismatchAt : Nat → Nat

/-- Byte of a save area whose layout the spec does not give, by the step's number and the byte's offset in the area (LOG 11 DESIGN CHOICE). -/
opaque Config.savedByte : Nat → Nat → Byte

/-- Length of the device key's certificate and its place in device ROM, and the bytes of device ROM (LOG 112 DESIGN CHOICE). -/
opaque Config.certLength : Word
opaque Config.certPointer : Word
opaque Config.deviceRom : Nat → Byte

/-- The Shaving stream that the link compressor tries for a payload (LOG 108 DESIGN CHOICE). -/
opaque Config.shaveStream : List Byte → List Byte

/-- Whether a packet of class LS is a request, by its payload, and the payload of the negative acknowledgement that answers it
(LOG 110 DESIGN CHOICE). -/
opaque Config.lsRequest : List Byte → Bool
opaque Config.nackPayload : List Byte → List Byte

/-- Whether another module of the domain holds a context, by the step's number (LOG 59 DEDUCED). -/
opaque Config.holdsContext : Nat → BitVec 16 → Nat → Bool

/-- The tile and the strand whose access a delivered payload of class LS answers negatively; none for any other payload (LOG 110 DESIGN CHOICE). -/
opaque Config.nackFor : List Byte → Option (Nat × Fin 4)

/-- What a read of a register returns that Table 13.2 gives for writing only, or whose layout the spec does not give, by offset and the
step's number (LOG 107 DESIGN CHOICE). -/
opaque Config.windowRead : Nat → Nat → Word

/-- Region tag that the distributor assigns to a region's packets, by the region's handle (LOG 101 DESIGN CHOICE). -/
opaque Config.regionTag : BitVec 32 → BitVec 16

/-- Flits that a lane of a link buffer holds beyond its first (LOG 102 DESIGN CHOICE). -/
opaque Config.laneDepth : Nat

end Sys2Proof
end

