-- ==== Sys2Proof/Machine/State.lean ====
section
/-!
DEFINITION. The state of the wafer as plain data: every piece of state that the spec gives the machine, the outcome types of a
step, and the state right after reset. INVENTORY.md lists every field with the rule that names it.

A `Table` is a list of keys and values in ascending key order that leaves out the default value, so equal tables are equal
lists (Machine/Table.lean). A memory is the table of its bytes.
-/
namespace Sys2Proof.Machine

/-- Sparse data by number. The default value of each use stands at the operation that reads it. -/
abbrev Table (α : Type) := List (Nat × α)

/-- Bytes by address (Host.Cell); an unlisted byte reads 0 (LOG 2 DESIGN CHOICE, LOG 3 DESIGN CHOICE). -/
abbrev Memory := List Host.Cell

/-- No step of the model ends in a fault: 00_scope.md R10 leaves no behaviour open. -/
inductive Fault where
deriving DecidableEq, Repr

/-- Why a step can have no meaning. -/
inductive Refusal where
  /-- Raised by an arm of exec whose instruction has no meaning yet; safe. -/
  | notModelled (mnemonic : String)
deriving DecidableEq, Repr

/-! ## Causes (Table 10.9) -/

/-- The trap and event causes of Table 10.9. -/
inductive Cause where
  | illegalOpcode | reservedField | illegalModifier | privilege | kregAccess | branchRange | firingState
  | softwareTrap | breakpoint | debugWatchdog | misaligned | pageFault | pageProtect | pageDenied | pteMalformed
  | memUncorrectable | moduleAbsent | spadRange | slotState | formatReserved | copyOperand | divZero | fpInvalid
  | fpDivZero | fpOverflow | fpSaturate | range | queueUnbound | queueDirection | channelRate | ringGeometry
  | ringOverflow | ringUnderflow | spindleState | laneConfig | laneRun | matrixFormat | matrixOperand
  | matrixGang | matrixCheckHard | inlayGraph | inlayCapacity | inlayWidth | inlayState | netRoute | netOperand
  | veneerGap | versionRetired | pvState | stashState | topoStale | barrierBroken | debugDenied | nestedTrap
  | fabricDenied | contextKilled | stateUncorrectable | gridRetired | hostFreeze | fabricFatal
deriving DecidableEq, Repr

/-! ## Strands (Table 1.4) -/

/-- A strand of the wafer: the physical number of its tile and its index in the tile. -/
structure StrandId where
  tile : Nat
  strand : Fin 4
deriving DecidableEq, Repr

/-- A spill (`fill` = false) or fill transfer of a strand's spill engine (05 R159, R160); word `next` is moved next. -/
structure Transfer where
  fill : Bool
  first : BitVec 6
  count : Nat
  ea : BitVec 56
  next : Nat
deriving DecidableEq, Repr

/-- A fault that waits for the strand's next instruction (R166, R197, R205). -/
structure DeferredFault where
  cause : Cause
  ktval : Word
deriving DecidableEq, Repr

/-- What a request mark or a held element has been told (R324, R326). -/
inductive Answer where
  | waiting | mapped | denied
deriving DecidableEq, Repr

/-- A request mark (R323): cluster, tag and the 16 KiB page of the miss; `owing` while the request has found the fault buffer full and
its access waits with it (R329). -/
structure Mark where
  cluster : Nat
  tag : Nat
  page : Nat
  answer : Answer
  owing : Bool
deriving DecidableEq, Repr

/-- A running firing (R18): actor index, sequence number, and how many tokens it has popped and pushed on each channel and
how many packets it has popped of each route. -/
structure Firing where
  actor : Nat
  seq : Nat
  popped : Table Nat
  pushed : Table Nat
  packets : Table Nat
deriving DecidableEq, Repr

/-- What a waiting instruction has done that outlives one try of it. -/
inductive Hold where
  /-- nothing -/
  | none
  /-- a BAR that has arrived at a generation of its barrier (R260) -/
  | arrived (gen : Nat)
  /-- a SHOOT that has been sent (R281) -/
  | shoot (id : Nat)
  /-- a FREEZE of a region that has been requested, with the number of saves that the region had completed (R282) -/
  | freezing (h : BitVec 32) (saves : Nat)
  /-- a THAW of a region that has been requested, with the number of thaws that the region had completed (R282) -/
  | thawing (h : BitVec 32) (thaws : Nat)
  /-- a STASH that has reported its wait (R373) -/
  | stashing
  /-- an access that waits for the answer to the request of a page (R324) -/
  | page (n : Nat)
deriving DecidableEq, Repr

/-- One strand (R26, Table 1.4). -/
structure Strand where
  g : Table Word
  p : BitVec 8
  pc : BitVec 13
  kstatus : Word
  kcause : Word
  ktval : Word
  kepc : Word
  kscratch : Table Word
  kspill : Word
  /-- scoreboard tokens, one bit for each g register (R159) -/
  tokens : BitVec 64
  spillq : List Transfer
  interrupted : Option Transfer
  deferred : List DeferredFault
  marks : List Mark
  /-- version tracker (R263) -/
  trackValid : Bool
  trackVer : BitVec 16
  trackMixed : Bool
  firing : Option Firing
  hold : Hold
  /-- the index and the hold of a waiting instruction at which a deferred fault was delivered (R166, R205) -/
  parked : Option (BitVec 13 × Hold)
  /-- consecutive tries that the instruction at PC has waited (R346) -/
  waited : Nat
  /-- a negative acknowledgement has come for the strand's access to another module (R429) -/
  nacked : Bool
deriving DecidableEq, Repr

/-! ## Tiles (Table 1.7) -/

/-- Where a tile is bound: region handle, row and column (R354, R45). -/
structure Binding where
  handle : BitVec 32
  row : Nat
  col : Nat
deriving DecidableEq, Repr

/-- A line of L1: its bytes and its dirty bytes (R289). -/
structure Line where
  data : BitVec 256
  dirty : BitVec 32
deriving DecidableEq, Repr

/-- A TLB entry (R316): the virtual page is VA >> z. -/
structure TlbEntry where
  ctx : BitVec 16
  gen : BitVec 16
  z : Nat
  vpage : Nat
  pa : BitVec 56
  w : Bool
  po : Bool
  d : Bool
deriving DecidableEq, Repr

/-- A circular-buffer handle (Table 1.8). -/
structure Handle where
  base : BitVec 20
  slotsz : BitVec 16
  countM1 : BitVec 12
  fill : BitVec 13
  drain : BitVec 13
deriving DecidableEq, Repr

/-- The binding of a queue register (Table 1.5, Table 3.11). -/
inductive QBind where
  | unbound
  | producer (ch : Nat)
  | consumer (ch : Nat)
  | input (port : Nat)
  | output (port : Nat)
  | arrive (stream : Nat)
deriving DecidableEq, Repr

/-- Who pushed a token (R193, SOURCE 5): tile coordinates, actor, sequence number, and the number of tokens that the firing or
the port pushed to the channel before it. A token that a port pushed has actor 255. -/
structure Origin where
  row : Nat
  col : Nat
  actor : Nat
  seq : Nat
  index : Nat
deriving DecidableEq, Repr

/-- A token (R21). -/
structure Token where
  payload : Word
  scale : Bool
  exc : Bool
  origin : Origin
deriving DecidableEq, Repr

/-- One slot of an actor entry: channel and rate; a slot of rate 0 is unused (Table 1.2). -/
structure Rate where
  ch : Nat
  rate : Nat
deriving DecidableEq, Repr

/-- An actor table entry with its running state (R17, R19, R20, R370). -/
structure Actor where
  valid : Bool
  cls : Nat
  target : Nat
  entry : BitVec 13
  substream : Nat
  ins : List Rate
  outs : List Rate
  seq : Nat
  pass : Nat
  running : Bool
  /-- the one launch-error event of R192, R223 or R236 has been posted -/
  reported : Bool
deriving DecidableEq, Repr

/-- A landing slot's state (R36). -/
inductive SlotState where
  | free | landing | full
deriving DecidableEq, Repr

/-- A landing slot (R36, Table 1.9); `loads` counts the MLDS·S issued and not yet executed (R211). -/
structure Slot where
  state : SlotState
  scale : Bool
  group : BitVec 12
  version : BitVec 16
  blockId : BitVec 32
  payload : Memory
  loads : Nat
  /-- CRC-32 of the payload, by the block's header (R398) -/
  crc : BitVec 32
deriving DecidableEq, Repr

/-- A drop-list entry (R255). -/
structure Drop where
  hdrBad : Bool
  group : BitVec 12
  blockId : BitVec 32
deriving DecidableEq, Repr

/-- A bank ownership token (R37). -/
structure BankToken where
  holder : BitVec 32
  next : BitVec 32
  handed : Bool
deriving DecidableEq, Repr

/-- A pin table entry (R50). -/
structure Pin where
  valid : Bool
  wset : Nat
  version : BitVec 16
deriving DecidableEq, Repr

/-! ### Lane row and Spindle -/

/-- A lane value with its exception bit and cause vector (R179). -/
structure LaneVal where
  val : Word
  exc : Bool
  cause : BitVec 5
deriving DecidableEq, Repr

/-- A source or destination of an engine operation: a ring, a queue register, or an engine port of a firing. -/
inductive Side where
  | ring (h : Nat)
  | queue (q : Nat)
  | port (k : Nat)
deriving DecidableEq, Repr

/-- A Spindle entry (Table 6.6). A VRUN carries the number of its issue, and the index of its instruction for KTVAL (R197). -/
inductive SpEntry where
  | cfg (s : Nat)
  | run (id : Nat) (src dst : Side) (n : Nat) (keep : Bool) (ew : Nat) (pc : Nat)
  | loop (k : Nat) (n : Nat)
  | back (k : Nat)
deriving DecidableEq, Repr

/-- A run that has begun to enter the row and whose last result is not yet written (R189, R195). -/
structure Run where
  id : Nat
  /-- number of the Spindle entry it executes -/
  entry : Nat
  src : Side
  dst : Side
  n : Nat
  keep : Bool
  ew : Nat
  pc : Nat
  /-- source tokens taken, data elements among them, and elements of the current source slot taken -/
  taken : Nat
  data : Nat
  srcPos : Nat
  /-- tokens that have left the row, and elements of the current destination slot written -/
  left : Nat
  dstPos : Nat
  /-- substream 6 counter at the run's start (R188) -/
  c0 : Nat
deriving DecidableEq, Repr

/-- An element in the row (R179, R182): its run, its number in the run, the pipeline stage at which it stands, counted through the lanes
from 0, the value that the last lane it entered has given it, the A operand of that lane, the element as it entered the row, the
position of its next draw (R188), whether the hold registers reload as it reaches them, and whether it is a scale token. -/
structure RowElem where
  run : Nat
  index : Nat
  place : Nat
  v : LaneVal
  tap : LaneVal
  rowin : LaneVal
  draw : BitVec 48
  reload : Bool
  scale : Bool
deriving DecidableEq, Repr

/-- Who owns the Spindle (R34, R192). -/
inductive SpOwner where
  | none
  | strand (k : Fin 4)
  | firing (actor : Nat)
deriving DecidableEq, Repr

/-- The Spindle and the lane row (R31, R195, R198). -/
structure Spindle where
  entries : List SpEntry
  /-- position of the next entry to execute -/
  pos : Nat
  counters : Table (BitVec 32)
  cslot : Nat
  owner : SpOwner
  /-- strands that wait for ownership, first placed first (R34) -/
  places : List (Fin 4)
  /-- counters of the loops that are open at issue, innermost first (R196) -/
  openLoops : List Nat
  /-- number of open loops whose body is discarded as it arrives (VLOOP with n = 0) -/
  discard : Nat
  /-- executing loops, innermost first: counter and position of the VLOOP -/
  loops : List (Nat × Nat)
  runs : List Run
  pipe : List RowElem
  /-- number of the next run, and of the next VRUN issued -/
  nextRun : Nat
  /-- sequence number and reserved counts of a lane-row firing -/
  firing : Option Firing
  /-- the firing's tokens have all been pushed (R192) -/
  finished : Bool
deriving DecidableEq, Repr

/-- One lane of the row: its hold register and scale latch (R180). -/
structure Lane where
  hold : LaneVal
  latch : BitVec 8
deriving DecidableEq, Repr

/-! ### Matrix slice and Inlay fabric -/

/-- An entry of the matrix queue with the register values it took at issue (R203, R210 to R222). Formats are the codes of R90,
`mode` a rounding code of R74. -/
inductive MxOp where
  | loadSlot (slot mf plane : Nat)
  | loadRing (h mf : Nat)
  | swap
  | scale (weight : Bool) (e : BitVec 8)
  | zero (acc : Nat)
  | macc (acc : Nat) (transposed : Bool) (src : Side) (af rowb n : Nat)
  | drain (acc : Nat) (dst : Side) (df mode : Nat) (zero : Bool)
  | gang (mask : BitVec 4)
  | perm (v : BitVec 8)
  | exchange (dst src : Nat)
deriving DecidableEq, Repr

/-- Who issued an engine entry: a strand with the actor and sequence number of its firing and the instruction's index, or a
firing of the engine itself. -/
structure Issuer where
  strand : Option (Fin 4)
  actor : Nat
  seq : Nat
  pc : Nat
deriving DecidableEq, Repr

/-- A matrix queue entry. -/
structure MxEntry where
  op : MxOp
  who : Issuer
deriving DecidableEq, Repr

/-- A streamed row as the replay copy keeps it (R209, R218): its 32 element codes, the EA that governs it and its exception bit. -/
structure MxRow where
  xs : List Nat
  ea : BitVec 8
  exc : Bool
deriving DecidableEq, Repr

/-- A stationary plane (Table 7.2): element codes by position 32k + j, format and scale. -/
structure Plane where
  w : Table Nat
  pf : Nat
  ew : BitVec 8
deriving DecidableEq, Repr

/-- An accumulator cell (Table 7.2). -/
structure AccCell where
  v : BitVec 32
  exc : Bool
deriving DecidableEq, Repr

/-- What the head entry of the matrix queue has done so far (R238). -/
structure MxProgress where
  rows : List MxRow
  /-- rows taken before a thaw that gave the accumulators their idle values: what they had added is lost (R238) -/
  lost : Nat
  /-- tokens of the row being taken, with the EA and bit so far -/
  part : List Token
  /-- EA that governs the row being taken, and the stream latch that the entry would leave, once a scale token has set it -/
  rowEa : BitVec 8
  ea : Option (BitVec 8)
  /-- rows of the current ring slot taken or written -/
  slotPos : Nat
  /-- rows or tokens drained -/
  done : Nat
  /-- the entry has arrived at its quartet join, and the join has completed or failed with a reason -/
  arrived : Bool
  joined : Option Nat
  /-- the MACC waits for its re-execution (R218) -/
  retry : Bool
deriving DecidableEq, Repr

/-- The matrix slice (Table 7.2). -/
structure Matrix where
  queue : List MxEntry
  prog : MxProgress
  active : Plane
  shadow : Plane
  acc : Table AccCell
  ea : BitVec 8
  perm : BitVec 8
  firing : Option Firing
  /-- set-up records, word 4e + j (R223) -/
  records : Table Word
  /-- records that never fire (R223) -/
  badRecords : List Nat
deriving DecidableEq, Repr

/-- A resident graph (R225, R233). -/
structure Graph where
  base : Nat
  nodes : Nat
  nin : Nat
  nout : Nat
  depth : Nat
  iw : Nat
deriving DecidableEq, Repr

/-- A vector of the output buffer: element and exception bit for each port (R234). -/
structure OutVec where
  vals : List (BitVec 32 × Bool)
deriving DecidableEq, Repr

/-- An entry of the Inlay queue (R234, R235). -/
inductive InOp where
  | run (src : Side) (slot n : Nat)
  | drain (dst : Side) (nf n : Nat)
deriving DecidableEq, Repr

/-- An Inlay queue entry. -/
structure InEntry where
  op : InOp
  who : Issuer
deriving DecidableEq, Repr

/-- The Inlay fabric (R225). -/
structure Inlay where
  queue : List InEntry
  /-- vectors taken or moved by the head entry, tokens of the vector being taken or pushed, and vectors of the current ring slot -/
  done : Nat
  part : List Token
  slotPos : Nat
  nodes : Table (BitVec 32)
  graphs : Table (Option Graph)
  out : List OutVec
  firing : Option Firing
deriving DecidableEq, Repr

/-! ### Mesh, Veneer, stash and copy engine of a tile -/

/-- A mesh packet (R241, R390). `sender` is the strand that issued it, `src` the logical number of the tile that injected it, `tag` its
region tag, and `outs` the output ports of the router it lies in that have still to take it. -/
structure Packet where
  route : Nat
  words : List Word
  last : Bool
  exc : Bool
  wide : Bool
  src : Nat
  sender : Option (Fin 4)
  vc : Nat
  tag : BitVec 16
  outs : List Nat
deriving DecidableEq, Repr

/-- A dataflow token on its way (R252): logical row and column of the owning tile, chunk and source. -/
structure FlowToken where
  row : Nat
  col : Nat
  chunk : Nat
  source : Nat
  sender : Option (Fin 4)
deriving DecidableEq, Repr

/-- What a packet carries between routers (Table 12.2): a route packet, or the result of a combine for an input port of the next combining
router (R389, R394); the tokens of one push of a channel (R390, R464); a return of free space (R464); a dataflow token (R252). -/
inductive Cargo where
  | packet (p : Packet)
  | combined (port : Nat) (p : Packet)
  | tokens (ch : Nat) (vs : List Token)
  | space (ch n : Nat)
  | flow (f : FlowToken)
deriving DecidableEq, Repr

/-- A packet of a region on its way between routers: the router in whose lane it lies, the input port through which it came there (0 where
it was injected), and the routers that it has still to pass, up to the one where it leaves the mesh (R384, R389). -/
structure Flight where
  handle : BitVec 32
  cargo : Cargo
  router : Nat
  port : Nat
  path : List Nat
deriving DecidableEq, Repr

/-- A ring-form entry of the network queue (R245): `recv` for NRECV·H. -/
structure NetEntry where
  recv : Bool
  route : Nat
  h : Nat
  n : Nat
  /-- slots done, words of the current slot's message moved, and that message's first word, exception bit and source -/
  done : Nat
  word : Nat
  first : Word
  exc : Bool
  src : Nat
  who : Issuer
deriving DecidableEq, Repr

/-- A reduce-scatter chunk (R250). -/
structure Chunk where
  stored : Bool
  va : BitVec 56
  route : Nat
  mask : BitVec 16
  count : Nat
  armed : Bool
  arms : BitVec 32
  fires : BitVec 32
  counters : Table Nat
  /-- the running firing: packets that are still to be read and injected, the address of the next one, the route, and packets done -/
  left : Nat
  runVa : BitVec 56
  runRoute : Nat
  runDone : Nat
  /-- a fabric fault that holds the firing (R326) -/
  fault : Option Mark
deriving DecidableEq, Repr

/-- A stash entry (R267): slot number when live in the tile, none when in the victim tier, in order of stashing. -/
structure StashEntry where
  header : Word
  slot : Option Nat
  /-- bytes of an entry in the victim tier -/
  data : Memory
  /-- victim frames of an entry in the victim tier -/
  frames : List Nat
deriving DecidableEq, Repr

/-- Stash state (R38). -/
structure Stash where
  handle : Handle
  capacity : Nat
  entries : List StashEntry
deriving DecidableEq, Repr

/-- A copy operation (R271, R273). -/
structure CopyOp where
  dst : Word
  src : Word
  dsp : Bool
  ssp : Bool
  count : Nat
  mode : Nat
  stream : Option Nat
  next : Nat
deriving DecidableEq, Repr

/-- The copy engine (R271 to R274). `wrote` lists the lines, PA / 32, that each ticket has written at their homes and that no join of it has
made visible through the tile's L1 (R275, R288). -/
structure CopyEngine where
  ops : List CopyOp
  issued : BitVec 32
  completed : BitVec 32
  fault : Option Mark
  wrote : List (BitVec 32 × Nat)
deriving DecidableEq, Repr

/-- A light block on its way to a cluster drop (R398): the four words of its header, and its payload. -/
structure Block where
  w0 : Word
  w1 : Word
  w2 : Word
  w3 : Word
  payload : List Byte
deriving DecidableEq, Repr

/-- A tile (Table 1.7). -/
structure Tile where
  bound : Option Binding
  strands : Vector Strand 4
  code : Table Word
  spad : Memory
  /-- bit n is 1 when bank n is scratchpad (Table 3.11) -/
  banks : BitVec 12
  l1 : Table Line
  dtlb : List TlbEntry
  itlb : List TlbEntry
  ktvec : Word
  handles : Table Handle
  queues : Table QBind
  /-- engine ports (R463) and copy-arrival streams 0x100 + s (R173): tokens, oldest first -/
  ports : Table (List Token)
  actors : Table Actor
  rr : Table Nat
  lastKind : Nat
  wave : Bool
  freezing : Bool
  armed : Option Nat
  spindle : Spindle
  lanes : Table Lane
  /-- lane entries by slot × 16 + lane (R183) -/
  laneCfg : Table (BitVec 256)
  /-- lane configuration slots that were not valid at configuration load (R192) -/
  deadSlots : List Nat
  matrix : Matrix
  inlay : Inlay
  slots : Table Slot
  drops : List Drop
  /-- VNRELs of each region-local group's blocks (R401) -/
  released : Table Nat
  bankTokens : Table BankToken
  stash : Stash
  kflags : Word
  draws : Table (BitVec 48)
  pins : Table Pin
  copy : CopyEngine
  netq : List NetEntry
  /-- injection buffers by virtual channel (R244), and of dataflow tokens on VC 3 -/
  inject : Table (List Packet)
  flow : List FlowToken
  /-- link buffers by the key of input port, virtual channel and lane (R389), combine inputs by route × 8 + port (R391), receive queues by
  route (R244) -/
  links : Table (List Packet)
  comb : Table (List Packet)
  recv : Table (List Packet)
  routes : Table Word
  chunks : Table Chunk
  transients : Nat
  failing : Option Cause
deriving DecidableEq, Repr

/-! ## Regions (R16, R348) -/

/-- What an end of a channel is bound to (R24). Tiles are logical tile numbers. -/
inductive End where
  | unbound
  | queue (tile q : Nat)
  | engine (tile port : Nat)
  | fport (n : Nat)
  | region
deriving DecidableEq, Repr

/-- A channel (R21, R22): the tokens in the consumer's buffer, oldest first; the two counters; the numbers of tokens of the commits that the
token counter has still to count, oldest first, and the tokens that have been placed in the buffer and not counted (R368). -/
structure Channel where
  depth : Nat
  prod : End
  cons : End
  fifo : List Token
  tokens : Nat
  space : Nat
  arriving : List Nat
  placed : Nat
deriving DecidableEq, Repr

/-- A finished barrier generation: its status and the waiters that have not resumed (R259, R260). -/
structure BarDone where
  status : Nat
  left : Nat
deriving DecidableEq, Repr

/-- A barrier (R259): the current generation, its COUNT and arrivals; generations whose pass is on its way; finished ones. -/
structure Barrier where
  gen : Nat
  count : Nat
  arrived : Nat
  passing : List (Nat × BarDone)
  done : Table BarDone
deriving DecidableEq, Repr

/-- A region's standing in one weight set (R49, R261, R265): whether it reads it, the bound version, the pending target, the
number of passes started, and whether a VERSIONED port has started one. -/
structure PvBind where
  reads : Bool
  bound : Nat
  pending : Option Nat
  passes : Nat
  started : Bool
deriving DecidableEq, Repr

/-- A group entry of the faceplate group table (R399): the wafer group, the sends (plane, channel, leaf mask, and the cluster
each set leaf bit stands for), SENT and MREL. -/
structure Group where
  lgroup : Nat
  wgroup : Nat
  allowance : Nat
  members : List Nat
  sends : List (Nat × Nat × Nat)
  sent : BitVec 32
  mrel : BitVec 32
deriving DecidableEq, Repr

/-- The state of a Shaving decoder (R411, R413 to R416): bit position in the stream, whether a frame is open, its element width
and exponent code, bytes it has still to produce, LAST, code lengths, previous exponent, history (newest byte first), bytes that
the stream has produced, and whether the stream has ended. -/
structure Shaver where
  bitpos : Nat
  inFrame : Bool
  wc : Nat
  em : Nat
  want : Nat
  last : Bool
  lens : List Nat
  prevExp : Nat
  hist : List Byte
  count : Nat
  ended : Bool
deriving DecidableEq, Repr

/-- An element that a port has fetched and converted: its code in the delivered format, its block's scale, and whether its
conversion raised NV, DZ, OF or SAT (R407). -/
structure PortElem where
  code : Nat
  scale : Nat
  exc : Bool
deriving DecidableEq, Repr

/-- A faceplate port of a region (R402 to R411). -/
structure FPort where
  words : Table Word
  /-- memory faceplate number and place (R402) -/
  plate : Nat
  place : Nat
  /-- current pattern, elements of it fetched, whether it has begun, and whether only its end is left (R410) -/
  pat : Nat
  elem : Nat
  begun : Bool
  ending : Bool
  finished : Bool
  shaver : Shaver
  /-- fetched elements of a transposition run that is not complete, and elements that wait to be delivered (R407) -/
  gather : List PortElem
  run : List PortElem
  /-- the payload being filled: its bits from bit 0 up, how many there are, and its scale byte (R408) -/
  buf : Nat
  bits : Nat
  bufScale : Nat
  /-- the scale token of the current block has been pushed (R409) -/
  scaleSent : Bool
  /-- scale latch (R69) -/
  latch : BitVec 8
  /-- whether a pass is in progress, its number, and the version that it carries (R408) -/
  inPass : Bool
  pass : Nat
  passVer : Nat
  /-- address of the slot set that the pass reads -/
  passBase : BitVec 56
  groups : List Group
  /-- a fabric fault that holds the port (R326) -/
  fault : Option Mark
  /-- translated page bases that the port's address generator has latched (R305) -/
  bases : List TlbEntry
  /-- tokens pushed so far, by channel -/
  moved : Table Nat
deriving DecidableEq, Repr

/-- A seed entry (R361). -/
structure SeedEntry where
  ch : Nat
  scale : Bool
  mbStart : Bool
  close : Bool
  payload : Word
deriving DecidableEq, Repr

/-- Where a region stands (R337 to R340, R354 to R358). -/
inductive Phase where
  | reserving | committed | loading | running | freezing | frozen | thawing
deriving DecidableEq, Repr

/-- The launch record as taken (Table 11.1), with what intake keeps of the image: its IMAGEID, its digest (R357), and the words of
the faceplate ports that it names (R402). -/
structure Launch where
  handle : BitVec 32
  ctx : BitVec 16
  rows : Nat
  cols : Nat
  prio : Nat
  chained : Bool
  imageVa : BitVec 56
  seed : Word
  gangTag : BitVec 22
  gangSize : Nat
  member : Nat
  chainFrom : BitVec 32
  wset : Nat
  maxLag : Nat
  resultBa : BitVec 64
  resultCap : Nat
  imageId : BitVec 32
  digest : BitVec 256
  ports : Table (Table Word)
  /-- frame number of each port payload, key port × 256 + INDEX (Table 11.3) -/
  portFrames : Table Nat
deriving DecidableEq, Repr

/-- A region. -/
structure Region where
  info : Launch
  gen : BitVec 16
  phase : Phase
  /-- freeze cause and inner cause (R337), and whether it is to be destroyed when frozen (R332) -/
  cause : Option Cause
  inner : Option Cause
  doomed : Bool
  originRow : Nat
  originCol : Nat
  /-- physical number of each logical tile (R354) -/
  tiles : List Nat
  /-- a chained launch waits for its producer's end (R367) -/
  awaiting : Bool
  /-- chained successor (R350, check 7) -/
  successor : Option (BitVec 32)
  /-- configuration load has ended (R108) -/
  loaded : Bool
  /-- a fabric fault that holds the load phase (R357) -/
  loadFault : Option Mark
  /-- LAUNCH_PLACED has been posted (R358, R363) -/
  posted : Bool
  /-- KFLAGS bits raised by the ports of a chained launch before its commit (R367, R407) -/
  early : Word
  defRm : Nat
  defDzt : Bool
  sinkVa : BitVec 56
  sinkCap : Nat
  saveMask : BitVec 30
  sinkCount : BitVec 32
  sinkLost : BitVec 16
  channels : Table Channel
  barriers : Table Barrier
  /-- barrier of the arm in force (R270) -/
  arm : Option Nat
  pv : Table PvBind
  ports : Table FPort
  seedq : List SeedEntry
  closing : Bool
  closed : Bool
  delivered : Nat
  results : Nat
  firings : Nat
  stashOpen : Bool
  versionOpen : Bool
  watchdog : Nat
  /-- packets sent on a route by a logical tile, key route × 65536 + tile (R391), and popped of them by a destination, key
  (route × 65536 + source) × 65536 + destination -/
  sent : Table Nat
  popped : Table Nat
  /-- tiles of a frozen region by logical number (R339) -/
  saved : Table Tile
  /-- where the region's save lies in its context's save area, and its length (R339) -/
  saveAt : Nat
  saveLen : Nat
  /-- saves and thaws that have completed (R282) -/
  saves : Nat
  thaws : Nat
  /-- the record of a denied answer that came while the region was frozen: it acts at thaw (R332) -/
  denied : Option (List Word)
deriving DecidableEq, Repr

/-! ## Module -/

/-- A fault record (Table 10.7) and where it stands (R329). -/
structure FaultRec where
  ctx : BitVec 16
  gen : BitVec 16
  kind : Nat
  write : Bool
  tag : Nat
  va : BitVec 56
  pcol : Nat
  prow : Nat
  row : Nat
  col : Nat
  elem : Nat
  flushGen : BitVec 32
  ready : Bool
deriving DecidableEq, Repr

/-- A membership entry of a cluster drop (R397). -/
structure Member where
  handle : BitVec 32
  wgroup : Nat
  lgroup : Nat
  mask : BitVec 16
deriving DecidableEq, Repr

/-- A cluster (R316, R329, R397). `outbox` holds flushed records that wait for host queue space (R433). -/
structure Cluster where
  l2tlb : List TlbEntry
  records : List FaultRec
  waiting : List FaultRec
  nextTag : Nat
  flushGen : BitVec 32
  outbox : List FaultRec
  members : List Member
  incoming : List Block
  drops : BitVec 32
deriving DecidableEq, Repr

/-- Where a page that the victim controller moved lies (R309): a victim frame, or host memory. -/
inductive Away where
  | frame (n : Nat)
  | host
deriving DecidableEq, Repr

/-- The controller's record of a moved page (R314): the entry it wrote and the page's bytes. -/
structure MovedPage where
  away : Away
  entry : Word
  data : Memory
deriving DecidableEq, Repr

/-- Seed entries refused for a handle since its last event, the first one's reason, and the time from which the next event may go out (R363). -/
structure Refusals where
  count : Nat
  reason : Nat
  next : Nat
deriving DecidableEq, Repr

/-- A pass entry of a router (R383): it passes packets of a region that go from one tile of it to a neighbour on to another router. -/
structure PassEntry where
  router : Nat
  handle : BitVec 32
  source : Nat
  dest : Nat
  next : Nat
deriving DecidableEq, Repr

/-- An eviction whose removal other modules have still to answer: the page, and its shoot (R304, R309). -/
structure Evicting where
  page : Nat
  shoot : Nat
deriving DecidableEq, Repr

/-- A context (R312, R332, R339, R341, R308). -/
structure Context where
  gen : BitVec 16
  root : BitVec 56
  quota : Nat
  savePa : BitVec 56
  saveBytes : Nat
  /-- SHA-256 digest of what each frozen region has saved there, by handle (R339) -/
  digests : Table (BitVec 256)
  debug : Bool
  hand : Nat
  moved : Table MovedPage
  evicting : Option Evicting
deriving DecidableEq, Repr

/-- A slot set of a weight set (R261); version 0: none. -/
structure SlotSet where
  placed : Bool
  ctx : BitVec 16
  va : BitVec 56
  bytes : Nat
  version : Nat
deriving DecidableEq, Repr

/-- A weight set of the registry (R48, R264). -/
structure WeightSet where
  published : Nat
  refs : Table Nat
  slots : Table SlotSet
  /-- region and slot set of an open reservation -/
  reserved : Option (BitVec 32 × Nat)
deriving DecidableEq, Repr

/-- A SHOOT in progress (R281, R333): modules that have not acknowledged, modules recorded as unreachable that await removal,
and the number recorded. -/
structure Shoot where
  range : ShootRange
  asked : List Nat
  removing : List Nat
  recorded : Nat
deriving DecidableEq, Repr

/-- The reservation of a region (R354): its origin in the enabled grid, its tiles in logical order, and its ports with their places
and group tables (R399, R402). -/
structure Reservation where
  handle : BitVec 32
  row : Nat
  col : Nat
  tiles : List Nat
  ports : Table FPort
deriving DecidableEq, Repr

/-- A job of the distributor (R352, R354): the regions that are not yet committed, in MEMBER order, its priority, the reservations of
those regions, whether it is in its commit phase, and whether it is a thaw (R356). -/
structure Job where
  members : List Launch
  prio : Nat
  reserved : List Reservation
  committing : Bool
  thaw : Bool
deriving DecidableEq, Repr

/-- The distributor (R347 to R357). -/
structure Distributor where
  window : Table Word
  seedWindow : Table Word
  answerWindow : Table Word
  command : Table Word
  intake : List (List Word)
  /-- chained launches, placed as regions, whose ports have still to be given places, the oldest first (R367) -/
  chainWait : List Launch
  gangs : List Launch
  queues : Table (List Job)
  placing : Option Job
  /-- jobs in their commit phase that a job of higher priority has interrupted (R355), the latest first -/
  interrupted : List Job
  /-- a fabric fault that holds intake (R350) -/
  fault : Option Mark
deriving DecidableEq, Repr

/-- An event source's buffer (R436 to R438): next SEQ, events that wait for queue space, dropped count. -/
structure EventSource where
  seq : BitVec 32
  buffer : List (List Word)
  dropped : BitVec 32
deriving DecidableEq, Repr

/-- A circuit lease (R425 to R427), times in nanoseconds. -/
inductive LeasePhase where
  | localOnly | peerOnly | opened | draining | closed
deriving DecidableEq, Repr

/-- A lease of a port. -/
structure Lease where
  port : Nat
  peer : BitVec 16
  durationUs : Nat
  expiry : Nat
  phase : LeasePhase
  rejected : Nat
  /-- this end has sent its final token, and has received its peer's (R427) -/
  sentFinal : Bool
  gotFinal : Bool
deriving DecidableEq, Repr

/-- A link packet that is held or queued: its two header words and its payload (R424). -/
structure LinkPacket where
  w0 : Word
  w1 : Word
  payload : List Byte
deriving DecidableEq, Repr

/-- A packet in a transmit queue (R423, R424, R427): its class, the lease it was issued under, its destination and route class, its
payload, and whether its message had begun when its circuit began to drain. -/
structure TxPacket where
  bulk : Bool
  lease : BitVec 16
  dest : BitVec 16
  routeClass : BitVec 2
  payload : List Byte
  begun : Bool
deriving DecidableEq, Repr

/-- A packet that has left a port: its sequence number, itself, and its CRC-32 (R421, R424). -/
structure SentPacket where
  seq : Nat
  packet : LinkPacket
  crc : BitVec 32
deriving DecidableEq, Repr

/-- A topology change in progress at a port (R428): the change and its route table, if this module has requested it, the word 7 of the
command that asked for it while COMMAND_DONE is due, the version granted, whether the shadow table is loaded and acknowledged, and the
timeouts of the current message. -/
structure TopoChange where
  change : Option Word
  routes : List Byte
  command : Option Word
  version : BitVec 16
  granted : Bool
  timeouts : Nat
deriving DecidableEq, Repr

/-- State of an optical port (R420 to R430). -/
structure OptPort where
  /-- 0 down, 1 training, 2 up (R439) -/
  state : Nat
  /-- node identity of the end that the link has trained with (R420) -/
  peer : BitVec 16
  tx : BitVec 16
  rx : BitVec 16
  retired : BitVec 16
  /-- consecutive CRC failures by colour (R422) -/
  fails : Table Nat
  /-- stale packets rejected, those since the last TOPO_REJECT, TOPOVER of the last one, and the time from which the next event may go
  out (R429) -/
  stale : BitVec 32
  staleNew : BitVec 32
  staleVer : BitVec 16
  staleNext : Nat
  held : List LinkPacket
  delivered : List LinkPacket
  txq : List TxPacket
  /-- sequence number of the next flit sent and of the next one delivered, and packets that arrived before their turn (R421) -/
  txSeq : Nat
  rxSeq : Nat
  rxWait : List (Nat × LinkPacket)
  sent : List SentPacket
  /-- the port compresses (R430) -/
  compressing : Bool
  /-- CRC failures whose retry succeeded, up to 255 (R385, R422) -/
  transients : Nat
  topo : Option TopoChange
deriving DecidableEq, Repr

/-- The whole machine. The last fields are the model's own: `agenda` holds the steps that agents other than strands take next,
`cur` names the strand that issues next, and `evTurn` says whose turn it is (LOG 4 DESIGN CHOICE); `steps` counts steps (LOG 5 DESIGN CHOICE, LOG 20 DESIGN CHOICE). -/
structure State where
  mem : Memory
  hostMem : Memory
  uncorr : List Nat
  /-- addresses whose next burst meets an error that ECC corrects, and such errors by stack, up to 255 (R385) -/
  correctable : List Nat
  stackTransients : Table Nat
  tiles : Table Tile
  regions : Table Region
  clusters : Table Cluster
  contexts : Table (Option Context)
  registry : Table WeightSet
  frames : Table Bool
  pendingShoot : Table (List ShootRange)
  shoots : Table (Option Shoot)
  nextShoot : Nat
  dist : Distributor
  /-- EQBASE, EQCAP, EQHEAD, FQBASE, FQCAP, FQHEAD by register offset (Table 13.2) -/
  hostRegs : Table Word
  eqTail : Nat
  fqTail : Nat
  events : Table EventSource
  time : Nat
  powered : Bool
  bootstat : Word
  surplus : Bool
  moduleNumber : BitVec 8
  /-- node identity in scale-out (R420) -/
  fabricAddr : BitVec 16
  domain : List Nat
  unreachable : List Nat
  measure : Table (BitVec 256)
  offered : BitVec 256
  accepted : BitVec 256
  acceptWritten : BitVec 8
  ktopo : Word
  /-- modules that the shadow table does not reach (R428) -/
  shadowRemoved : List Nat
  /-- the routing table in force and the shadow table, as the switch gave them (R428) -/
  topoRoutes : List Byte
  shadowRoutes : List Byte
  lateAns : BitVec 64
  defects : Table Nat
  /-- disabled physical columns and rows, key die × 64 + index (R379) -/
  offCols : List Nat
  offRows : List Nat
  colCount : Table Nat
  rowCount : Table Nat
  gridVersion : BitVec 16
  retirements : List Retirement
  /-- the two stored copies of the field-retirement list, 0 and 1 (R448) -/
  retireCopies : Table (List Retirement)
  mapGood : BitVec 2
  fusedMap : BitVec 256
  /-- columns and rows raised for retirement: physical tile and cause (R386) -/
  toRetire : List (Nat × Cause)
  /-- the regions that the retirement in progress has frozen (R387) -/
  retireFrozen : List (BitVec 32)
  links : Table OptPort
  /-- place of the LIGHT port of each memory faceplate that sent a block last (R400) -/
  lightLast : Table Nat
  /-- stack frames that evictions have freed and no recall has taken, the latest first (R309) -/
  freeStack : List Nat
  /-- the pass entries of the routers (R383) -/
  passEntries : List PassEntry
  /-- packets between routers, in the order in which they entered the lane that they lie in (R384, R389, R464) -/
  flying : List Flight
  /-- the virtual channel that each output port of a router served last among 0 to 2, key router × 8 + port (R392) -/
  served : Table Nat
  /-- the port of each port place as the last region that left it had it, by 4 × memory faceplate + place (R462) -/
  leftPorts : Table FPort
  /-- refused seed entries by the handle that they name, whether a region of it is live or not (R363) -/
  refused : Table Refusals
  leases : Table (Option Lease)
  /-- debug window: status of the last operation (0 done, 0x71 DEBUG_DENIED) and the data it read -/
  debugStatus : Nat
  debugData : Word
  /-- the strand and code of the latest BRK that halted (R284) -/
  debugBreak : Option (StrandId × BitVec 16)
  attest : Table Byte
  attestState : Word
  attestAgain : Bool
  /-- the digest that the signature in progress signs (R442) -/
  attestDigest : BitVec 256
  /-- posted writes of each host link that have not reached their homes: address and bytes, in the order of the link (R432) -/
  posted : Table (List (Nat × List Byte))
  /-- the value that the latest register read returned (R431) -/
  hostRead : Word
  /-- the map copies in module flash, 0 for A and 1 for B (R446, R447) -/
  flash : Table (List Byte)
  clockMHz : Nat
  laneRetired : List Nat
  laneTransients : Table Nat
  cur : StrandId
  agenda : List Instr
  evTurn : Bool
  steps : Nat
deriving DecidableEq, Repr

/-! ## Idle values and reset -/

/-- A strand that has run nothing; STRAND reads its index (Table 1.6). Registers without a reset value hold 0 (LOG 1 DESIGN CHOICE). -/
def Strand.idle (k : Fin 4) : Strand where
  g := []
  p := 0
  pc := 0
  kstatus := BitVec.ofNat 64 (k.val * 2048)
  kcause := 0
  ktval := 0
  kepc := 0
  kscratch := []
  kspill := 0
  tokens := 0
  spillq := []
  interrupted := none
  deferred := []
  marks := []
  trackValid := false
  trackVer := 0
  trackMixed := false
  firing := none
  hold := .none
  parked := none
  waited := 0
  nacked := false

/-- The handle of R108: one slot at offset 0. -/
def Handle.idle : Handle := ⟨0, 0, 0, 0, 0⟩

/-- An actor entry that never fires (R108). -/
def Actor.idle : Actor where
  valid := false
  cls := 0
  target := 0
  entry := 0
  substream := 0
  ins := []
  outs := []
  seq := 0
  pass := 0
  running := false
  reported := false

/-- A FREE landing slot (R36). -/
def Slot.idle : Slot := ⟨.free, false, 0, 0, 0, [], 0, 0⟩

/-- A bank token that no configuration has loaded (LOG 1 DESIGN CHOICE). -/
def BankToken.idle : BankToken := ⟨0, 0, false⟩

/-- An invalid pin entry (R50). -/
def Pin.idle : Pin := ⟨false, 0, 0⟩

/-- A lane at configuration load: hold register 0 and scale 1.0 (R69, R183). -/
def Lane.idle : Lane := ⟨⟨0, false, 0⟩, 127⟩

/-- The empty Spindle without owner (R34). -/
def Spindle.idle : Spindle where
  entries := []
  pos := 0
  counters := []
  cslot := 0
  owner := .none
  places := []
  openLoops := []
  discard := 0
  loops := []
  runs := []
  pipe := []
  nextRun := 0
  firing := none
  finished := false

/-- The idle plane (Table 7.2). -/
def Plane.idle : Plane := ⟨[], 0, 127⟩

/-- The idle accumulator cell (Table 7.2). -/
def AccCell.idle : AccCell := ⟨0, false⟩

/-- A head entry that has done nothing. -/
def MxProgress.idle : MxProgress := ⟨[], 0, [], 127, none, 0, 0, false, none, false⟩

/-- The idle matrix slice (Table 7.2); the permutation table holds P[m] = m. -/
def Matrix.idle : Matrix where
  queue := []
  prog := MxProgress.idle
  active := Plane.idle
  shadow := Plane.idle
  acc := []
  ea := 127
  perm := 0xE4
  firing := none
  records := []
  badRecords := []

/-- The empty Inlay fabric (R225). -/
def Inlay.idle : Inlay where
  queue := []
  done := 0
  part := []
  slotPos := 0
  nodes := []
  graphs := []
  out := []
  firing := none

/-- A chunk with no descriptor (R250). -/
def Chunk.idle : Chunk := ⟨false, 0, 0, 0, 0, false, 0, 0, [], 0, 0, 0, 0, none⟩

/-- A stash of capacity 0 (R108). -/
def Stash.idle : Stash := ⟨Handle.idle, 0, []⟩

/-- A copy engine without operations. -/
def CopyEngine.idle : CopyEngine := ⟨[], 0, 0, none, []⟩

/-- A tile that no region binds: every element at the value of R108, registers without a reset value 0 (LOG 1 DESIGN CHOICE, LOG 3 DESIGN CHOICE)
(LOG 13 DESIGN CHOICE). -/
def Tile.idle : Tile where
  bound := none
  strands := Vector.ofFn Strand.idle
  code := []
  spad := []
  banks := 0xFFF
  l1 := []
  dtlb := []
  itlb := []
  ktvec := 0
  handles := []
  queues := []
  ports := []
  actors := []
  rr := []
  lastKind := 3
  wave := false
  freezing := false
  armed := none
  spindle := Spindle.idle
  lanes := []
  laneCfg := []
  deadSlots := []
  matrix := Matrix.idle
  inlay := Inlay.idle
  slots := []
  drops := []
  released := []
  bankTokens := []
  stash := Stash.idle
  kflags := 0
  draws := []
  pins := []
  copy := CopyEngine.idle
  netq := []
  inject := []
  flow := []
  links := []
  comb := []
  recv := []
  routes := []
  chunks := []
  transients := 0
  failing := none

/-- A channel that no record declares. -/
def Channel.idle : Channel := ⟨1, .unbound, .unbound, [], 0, 0, [], 0⟩

/-- An empty barrier (R259). -/
def Barrier.idle : Barrier := ⟨0, 0, 0, [], []⟩

/-- A weight set that a region does not read. -/
def PvBind.idle : PvBind := ⟨false, 0, none, 0, false⟩

/-- A Shaving decoder at the start of a stream (R413). -/
def Shaver.idle : Shaver := ⟨0, false, 0, 0, 0, false, [], 0, [], 0, false⟩

/-- An idle faceplate port (R404). -/
def FPort.idle : FPort where
  words := []
  plate := 0
  place := 0
  pat := 0
  elem := 0
  begun := false
  ending := false
  finished := false
  shaver := Shaver.idle
  gather := []
  run := []
  buf := 0
  bits := 0
  bufScale := 127
  scaleSent := false
  latch := 127
  inPass := false
  pass := 0
  passVer := 0
  passBase := 0
  groups := []
  fault := none
  bases := []
  moved := []

/-- The launch record of no region. -/
def Launch.idle : Launch where
  handle := 0
  ctx := 0
  rows := 0
  cols := 0
  prio := 0
  chained := false
  imageVa := 0
  seed := 0
  gangTag := 0
  gangSize := 0
  member := 0
  chainFrom := 0
  wset := 0
  maxLag := 0
  resultBa := 0
  resultCap := 0
  imageId := 0
  digest := 0
  ports := []
  portFrames := []

/-- The region of no handle. -/
def Region.idle : Region where
  info := Launch.idle
  gen := 0
  phase := .reserving
  cause := none
  inner := none
  doomed := false
  originRow := 0
  originCol := 0
  tiles := []
  awaiting := false
  successor := none
  loaded := false
  loadFault := none
  posted := false
  early := 0
  defRm := 0
  defDzt := false
  sinkVa := 0
  sinkCap := 0
  saveMask := 0
  sinkCount := 0
  sinkLost := 0
  channels := []
  barriers := []
  arm := none
  pv := []
  ports := []
  seedq := []
  closing := false
  closed := false
  delivered := 0
  results := 0
  firings := 0
  stashOpen := true
  versionOpen := true
  watchdog := 0
  sent := []
  popped := []
  saved := []
  saveAt := 0
  saveLen := 0
  saves := 0
  thaws := 0
  denied := none

/-- An idle cluster. -/
def Cluster.idle : Cluster := ⟨[], [], [], 0, 0, [], [], [], 0⟩

/-- A weight set with nothing published (R48). -/
def WeightSet.idle : WeightSet := ⟨0, [], [], none⟩

/-- A slot set that no command has placed. -/
def SlotSet.idle : SlotSet := ⟨false, 0, 0, 0, 0⟩

/-- The distributor with empty windows and queues (LOG 1 DESIGN CHOICE). -/
def Distributor.idle : Distributor where
  window := []
  seedWindow := []
  answerWindow := []
  command := []
  intake := []
  gangs := []
  queues := []
  placing := none
  interrupted := []
  chainWait := []
  fault := none

/-- A handle without a refused seed entry. -/
def Refusals.idle : Refusals := ⟨0, 0, 0⟩

/-- An event source that has posted nothing (R436). -/
def EventSource.idle : EventSource := ⟨0, [], 0⟩

/-- A port whose link is down, at the 8/8 split of R420 (LOG 1 DESIGN CHOICE: the even colours transmit until bring-up). -/
def OptPort.idle : OptPort where
  state := 0
  peer := 0
  tx := 0x5555
  rx := 0xAAAA
  retired := 0
  fails := []
  stale := 0
  staleNew := 0
  staleVer := 0
  staleNext := 0
  held := []
  delivered := []
  txq := []
  txSeq := 0
  rxSeq := 0
  rxWait := []
  sent := []
  compressing := false
  transients := 0
  topo := none

/-- The feature bits that the Ebcel-1 offers before BOOT: bits 1 to 8 of Table 1.12 (R52, R445). -/
def baseOffer : BitVec 256 := 0x1FE

/-- The machine right after reset: no region, no context, every tile idle, boot not yet run. -/
def State.reset : State where
  mem := []
  hostMem := []
  uncorr := []
  correctable := []
  stackTransients := []
  tiles := []
  regions := []
  clusters := []
  contexts := []
  registry := []
  frames := []
  pendingShoot := []
  shoots := []
  nextShoot := 0
  dist := Distributor.idle
  hostRegs := []
  eqTail := 0
  fqTail := 0
  events := []
  time := 0
  powered := true
  bootstat := 0
  surplus := false
  moduleNumber := 0
  fabricAddr := 0
  domain := []
  unreachable := []
  measure := []
  offered := baseOffer
  accepted := 0
  acceptWritten := 0
  ktopo := 0
  shadowRemoved := []
  topoRoutes := []
  shadowRoutes := []
  lateAns := 0
  defects := []
  offCols := []
  offRows := []
  colCount := []
  rowCount := []
  gridVersion := 0
  retirements := []
  retireCopies := []
  mapGood := 0
  fusedMap := 0
  toRetire := []
  retireFrozen := []
  links := []
  lightLast := []
  freeStack := []
  passEntries := []
  flying := []
  served := []
  leftPorts := []
  refused := []
  leases := []
  debugStatus := 0
  debugData := 0
  debugBreak := none
  attest := []
  attestState := 0
  attestAgain := false
  attestDigest := 0
  posted := []
  hostRead := 0
  flash := []
  clockMHz := 1200
  laneRetired := []
  laneTransients := []
  cur := ⟨0, 0⟩
  agenda := []
  evTurn := false
  steps := 0

end Sys2Proof.Machine
end

