-- ==== Sys2Proof/Machine/Table.lean ====
section
/-!
DEFINITION. Reading and writing tables and memories in their canonical form: keys strictly rising, no entry equal to the
default. Multi-byte values are little-endian (02_number_formats.md R54).
-/
namespace Sys2Proof.Machine

/-- The value at a key; the default when no entry names the key. -/
def tabGet {α : Type} (dflt : α) : Table α → Nat → α
  | [], _ => dflt
  | (k, v) :: r, n => if k = n then v else tabGet dflt r n

/-- A table without the entry of a key. -/
def tabErase {α : Type} : Table α → Nat → Table α
  | [], _ => []
  | (k, v) :: r, n => if k = n then tabErase r n else (k, v) :: tabErase r n

/-- A table with an entry put before the first larger key. -/
def tabInsert {α : Type} : Table α → Nat → α → Table α
  | [], n, v => [(n, v)]
  | (k, x) :: r, n, v => if n < k then (n, v) :: (k, x) :: r else (k, x) :: tabInsert r n v

/-- A table with a key set to a value; setting the default removes the entry. -/
def tabSet {α : Type} [DecidableEq α] (dflt : α) (t : Table α) (n : Nat) (v : α) : Table α :=
  if v = dflt then tabErase t n else tabInsert (tabErase t n) n v

/-- Keys strictly rise from a bound on, and no entry holds the default. -/
def tabWfFrom {α : Type} [DecidableEq α] (dflt : α) : Nat → Table α → Bool
  | _, [] => true
  | lo, (k, v) :: r => decide (lo ≤ k) && decide (v ≠ dflt) && tabWfFrom dflt (k + 1) r

/-- The canonical form of a table. -/
def tabWf {α : Type} [DecidableEq α] (dflt : α) (t : Table α) : Bool := tabWfFrom dflt 0 t

/-- The canonical form of a memory. -/
def Memory.wf (m : Memory) : Bool := tabWf (0 : Byte) m

/-- One byte of a memory. -/
def readByte (m : Memory) (a : Nat) : Byte := tabGet (0 : Byte) m a

/-- A memory with one byte written. -/
def writeByte (m : Memory) (a : Nat) (b : Byte) : Memory := tabSet (0 : Byte) m a b

/-- `n` bytes from an address, lowest address first. -/
def readBytes (m : Memory) (a : Nat) : Nat → List Byte
  | 0 => []
  | n + 1 => readByte m a :: readBytes m (a + 1) n

/-- Bytes written from an address up. -/
def writeBytes (m : Memory) (a : Nat) : List Byte → Memory
  | [] => m
  | b :: bs => writeBytes (writeByte m a b) (a + 1) bs

/-- The number that bytes hold, little-endian. -/
def leNat : List Byte → Nat
  | [] => 0
  | b :: bs => b.toNat + 256 * leNat bs

/-- The `n` low bytes of a number, little-endian. -/
def natLe : Nat → Nat → List Byte
  | 0, _ => []
  | n + 1, v => BitVec.ofNat 8 v :: natLe n (v / 256)

/-- `n` bytes read as a number. -/
def readNat (m : Memory) (a n : Nat) : Nat := leNat (readBytes m a n)

/-- The `n` low bytes of a number written. -/
def writeNat (m : Memory) (a n v : Nat) : Memory := writeBytes m a (natLe n v)

/-- An 8-byte word read. -/
def readWord (m : Memory) (a : Nat) : Word := BitVec.ofNat 64 (readNat m a 8)

/-- A list's element by number, with a default. -/
def nth {α : Type} (dflt : α) : List α → Nat → α
  | [], _ => dflt
  | x :: _, 0 => x
  | _ :: r, n + 1 => nth dflt r n

/-- A list with one element replaced; unchanged past its end. -/
def setNth {α : Type} : List α → Nat → α → List α
  | [], _, _ => []
  | _ :: r, 0, v => v :: r
  | x :: r, n + 1, v => x :: setNth r n v

/-- The numbers from `a` up to, not including, `a + n`. -/
def upFrom (a : Nat) : Nat → List Nat
  | 0 => []
  | n + 1 => a :: upFrom (a + 1) n

/-- A word with one bit set or cleared. -/
def setBit (w : Word) (i : Nat) (b : Bool) : Word :=
  if b then w ||| (1#64 <<< i) else w &&& ~~~(1#64 <<< i)

/-- Bits `lo + n - 1` to `lo` of a number. -/
def natBits (v lo n : Nat) : Nat := v / 2 ^ lo % 2 ^ n

/-- A field of a word as a number. -/
def field (w : Word) (lo n : Nat) : Nat := natBits w.toNat lo n

end Sys2Proof.Machine
end

