-- ==== Sys2Proof/Machine/Ops.lean ====
section
/-!
DEFINITION. The named operations over the state that every meaning uses: the strand that issues, its registers, how an
instruction retires, waits or traps (01_machine_state.md R26 to R30, 10_translation_and_traps.md R320), taking an exception and
returning from one, events to the host (13_links_and_host.md R436 to R438), and the request that a region freeze (R337).
-/
namespace Sys2Proof.Machine

/-- Code of a cause (Table 10.9). -/
def Cause.code : Cause → Nat
  | .illegalOpcode => 0
  | .reservedField => 1
  | .illegalModifier => 2
  | .privilege => 3
  | .kregAccess => 4
  | .branchRange => 5
  | .firingState => 6
  | .softwareTrap => 7
  | .breakpoint => 8
  | .debugWatchdog => 9
  | .misaligned => 0x10
  | .pageFault => 0x11
  | .pageProtect => 0x12
  | .pageDenied => 0x13
  | .pteMalformed => 0x14
  | .memUncorrectable => 0x15
  | .moduleAbsent => 0x16
  | .spadRange => 0x17
  | .slotState => 0x18
  | .formatReserved => 0x19
  | .copyOperand => 0x1A
  | .divZero => 0x30
  | .fpInvalid => 0x31
  | .fpDivZero => 0x32
  | .fpOverflow => 0x33
  | .fpSaturate => 0x34
  | .range => 0x35
  | .queueUnbound => 0x40
  | .queueDirection => 0x41
  | .channelRate => 0x42
  | .ringGeometry => 0x43
  | .ringOverflow => 0x44
  | .ringUnderflow => 0x45
  | .spindleState => 0x46
  | .laneConfig => 0x47
  | .laneRun => 0x48
  | .matrixFormat => 0x50
  | .matrixOperand => 0x51
  | .matrixGang => 0x52
  | .matrixCheckHard => 0x53
  | .inlayGraph => 0x54
  | .inlayCapacity => 0x55
  | .inlayWidth => 0x56
  | .inlayState => 0x57
  | .netRoute => 0x60
  | .netOperand => 0x61
  | .veneerGap => 0x62
  | .versionRetired => 0x63
  | .pvState => 0x64
  | .stashState => 0x65
  | .topoStale => 0x66
  | .barrierBroken => 0x70
  | .debugDenied => 0x71
  | .nestedTrap => 0x72
  | .fabricDenied => 0x73
  | .contextKilled => 0x74
  | .stateUncorrectable => 0x75
  | .gridRetired => 0x76
  | .hostFreeze => 0x77
  | .fabricFatal => 0x78

/-! ## Tiles, regions and the issuing strand -/

/-- A tile by physical number. -/
def State.tile (s : State) (t : Nat) : Tile := tabGet Tile.idle s.tiles t

/-- The state with a tile replaced. -/
def State.setTile (s : State) (t : Nat) (x : Tile) : State := { s with tiles := tabSet Tile.idle s.tiles t x }

/-- A region by handle. -/
def State.region (s : State) (h : BitVec 32) : Region := tabGet Region.idle s.regions h.toNat

/-- The state with a region replaced. -/
def State.setRegion (s : State) (h : BitVec 32) (r : Region) : State :=
  { s with regions := tabSet Region.idle s.regions h.toNat r }

/-- A handle names a live region: one that has been bound and not destroyed. -/
def State.live (s : State) (h : BitVec 32) : Bool := (s.region h).info.handle == h && h != 0

/-- A cluster by number (R291). -/
def State.cluster (s : State) (c : Nat) : Cluster := tabGet Cluster.idle s.clusters c

/-- The state with a cluster replaced. -/
def State.setCluster (s : State) (c : Nat) (x : Cluster) : State :=
  { s with clusters := tabSet Cluster.idle s.clusters c x }

/-- A context, if it exists (R434). -/
def State.context (s : State) (c : BitVec 16) : Option Context := tabGet none s.contexts c.toNat

/-- The state with a context replaced. -/
def State.setContext (s : State) (c : BitVec 16) (x : Context) : State :=
  { s with contexts := tabSet none s.contexts c.toNat (some x) }

/-- A weight set of the registry (R48). -/
def State.weights (s : State) (w : Nat) : WeightSet := tabGet WeightSet.idle s.registry w

/-- The state with a weight set replaced. -/
def State.setWeights (s : State) (w : Nat) (x : WeightSet) : State :=
  { s with registry := tabSet WeightSet.idle s.registry w x }

/-- Physical column of a tile number PROW × 192 + PCOL (R377). -/
def pcolOf (t : Nat) : Nat := t % 192

/-- Physical row of a tile number (R377). -/
def prowOf (t : Nat) : Nat := t / 192

/-- The cluster of a tile (R377, R291). -/
def clusterOf (t : Nat) : Nat := prowOf t / 4 * 48 + pcolOf t / 4

/-- The tile of the strand that issues. -/
def State.curTile (s : State) : Tile := s.tile s.cur.tile

/-- The strand that issues. -/
def State.curStrand (s : State) : Strand := s.curTile.strands[s.cur.strand]

/-- A strand of a tile. -/
def Tile.strand (t : Tile) (k : Fin 4) : Strand := t.strands[k]

/-- A tile with a strand replaced. -/
def Tile.setStrand (t : Tile) (k : Fin 4) (x : Strand) : Tile := { t with strands := t.strands.set k x }

/-- The state with the issuing strand's tile replaced. -/
def State.setCurTile (s : State) (t : Tile) : State := s.setTile s.cur.tile t

/-- The state with the issuing strand replaced. -/
def State.setCur (s : State) (x : Strand) : State := s.setCurTile (s.curTile.setStrand s.cur.strand x)

/-- Handle of the region that binds a tile; 0 when none does. -/
def Tile.handle (t : Tile) : BitVec 32 :=
  match t.bound with
  | some b => b.handle
  | none => 0

/-- Row of a tile within its region (R45). -/
def Tile.row (t : Tile) : Nat :=
  match t.bound with
  | some b => b.row
  | none => 0

/-- Column of a tile within its region (R45). -/
def Tile.col (t : Tile) : Nat :=
  match t.bound with
  | some b => b.col
  | none => 0

/-- The region of a tile. -/
def State.regionOf (s : State) (t : Nat) : Region := s.region (s.tile t).handle

/-- The region of the issuing strand. -/
def State.curRegion (s : State) : Region := s.regionOf s.cur.tile

/-- The state with the issuing strand's region replaced. -/
def State.setCurRegion (s : State) (r : Region) : State := s.setRegion s.curTile.handle r

/-- Logical tile number (R45). -/
def logicalOf (r : Region) (t : Tile) : Nat := t.row * r.info.cols + t.col

/-- Physical number of a logical tile of a region (R354). -/
def Region.physical (r : Region) (n : Nat) : Nat := nth 0 r.tiles n

/-- Whether a feature bit is accepted (R51). -/
def State.feature (s : State) (n : Nat) : Bool := s.accepted.getLsbD n

/-! ## Registers (R26, R27) -/

/-- g[n]; g0 reads 0. -/
def Strand.rg (x : Strand) (n : BitVec 6) : Word := if n = 0 then 0 else tabGet 0 x.g n.toNat

/-- g[n] written; g0 discards. -/
def Strand.wg (x : Strand) (n : BitVec 6) (v : Word) : Strand :=
  if n = 0 then x else { x with g := tabSet 0 x.g n.toNat v }

/-- p[n]; p0 reads 1. -/
def Strand.rp (x : Strand) (n : BitVec 3) : Bool := n == 0 || x.p.getLsbD n.toNat

/-- p[n] written; p0 discards. -/
def Strand.wp (x : Strand) (n : BitVec 3) (b : Bool) : Strand :=
  if n = 0 then x
  else { x with p := if b then x.p ||| (1#8 <<< n.toNat) else x.p &&& ~~~(1#8 <<< n.toNat) }

/-- Consecutive registers written, the first at g[n] (R172). -/
def Strand.wgs (x : Strand) (n : Nat) : List Word → Strand
  | [] => x
  | v :: vs => (x.wg (BitVec.ofNat 6 n) v).wgs (n + 1) vs

/-- `k` consecutive registers read from g[n] on. -/
def Strand.rgs (x : Strand) (n : Nat) : Nat → List Word
  | 0 => []
  | k + 1 => x.rg (BitVec.ofNat 6 n) :: x.rgs (n + 1) k

/-- Whether one of some registers holds a scoreboard token (R161). -/
def Strand.holdsAny (x : Strand) (rs : List (BitVec 6)) : Bool := rs.any fun r => x.tokens.getLsbD r.toNat

/-- The registers of a range of `k` that starts at g[n]. -/
def gRange (n : BitVec 6) (k : Nat) : List (BitVec 6) := (upFrom n.toNat k).map (BitVec.ofNat 6)

/-- KSTATUS.PRIV (Table 1.6). -/
def Strand.priv (x : Strand) : Bool := x.kstatus.getLsbD 0

/-- KSTATUS.DZT. -/
def Strand.dzt (x : Strand) : Bool := x.kstatus.getLsbD 1

/-- KSTATUS.FXT. -/
def Strand.fxt (x : Strand) : Bool := x.kstatus.getLsbD 3

/-- KSTATUS.RM. -/
def Strand.rm (x : Strand) : Nat := field x.kstatus 4 3

/-- KSTATUS.SRT. -/
def Strand.srt (x : Strand) : Bool := x.kstatus.getLsbD 7

/-- KSTATUS.FIRING. -/
def Strand.isFiring (x : Strand) : Bool := x.kstatus.getLsbD 13

/-- KSTATUS.SSTEP. -/
def Strand.sstep (x : Strand) : Bool := x.kstatus.getLsbD 14

/-- KSTATUS.HALTED. -/
def Strand.halted (x : Strand) : Bool := x.kstatus.getLsbD 15

/-- A strand with one KSTATUS bit set or cleared. -/
def Strand.setStatus (x : Strand) (i : Nat) (b : Bool) : Strand := { x with kstatus := setBit x.kstatus i b }

/-! ## Events to the host (R436 to R438) -/

/-- A host register of Table 13.2. -/
def State.hostReg (s : State) (off : Nat) : Word := tabGet 0 s.hostRegs off

/-- Whether the host event queue has space for one more entry (R436). -/
def State.eventSpace (s : State) : Bool := decide (s.eqTail - (s.hostReg 0xD0).toNat < (s.hostReg 0xC8).toNat)

/-- Eight words written to host memory. -/
def writeWords (m : Memory) (a : Nat) : List Word → Memory
  | [] => m
  | w :: ws => writeWords (writeNat m a 8 w.toNat) (a + 8) ws

/-- The next entry of the host event queue written (R436). -/
def State.writeEvent (s : State) (ws : List Word) : State :=
  let a := (s.hostReg 0xC0).toNat + 64 * (s.eqTail % (s.hostReg 0xC8).toNat)
  { s with hostMem := writeWords s.hostMem a ws, eqTail := s.eqTail + 1 }

/-- An event of a source posted: it takes the source's next SEQ, and is written at once when nothing of the source waits and the
queue has space; otherwise it waits, or is dropped and counted when 32 events of the source wait (R436, R438). -/
def State.post (s : State) (source type : Nat) (body : List Word) : State :=
  let e := tabGet EventSource.idle s.events source
  let w0 := BitVec.ofNat 64 (type * 2 ^ 48 + source * 2 ^ 32 + e.seq.toNat)
  let ws := [w0, BitVec.ofNat 64 s.time] ++ (body ++ List.replicate 6 0).take 6
  let e' := { e with seq := e.seq + 1 }
  let put (x : EventSource) : State := { s with events := tabSet EventSource.idle s.events source x }
  if e.buffer.isEmpty && s.eventSpace then (put e').writeEvent ws
  else if e.buffer.length < 32 then put { e' with buffer := e.buffer ++ [ws] }
  else put { e' with dropped := e.dropped + 1 }

/-- HANDLE in [63:32] and CTXID in [15:0], word 2 of many events (Table 11.2). -/
def handleWord (r : Region) : Word := BitVec.ofNat 64 (r.info.handle.toNat * 2 ^ 32 + r.info.ctx.toNat)

/-- A CONTEXT_ERROR event (R437). -/
def State.contextError (s : State) (r : Region) (c : Cause) (inner : Option Cause) (record : List Word) : State :=
  let i := match inner with
    | some x => x.code
    | none => 0
  s.post 3 0x0301 ([handleWord r, BitVec.ofNat 64 (i * 256 + c.code)] ++ record)

/-! ## Steps of other agents that follow -/

/-- A tile whose region runs and that no freeze has stopped (R338). -/
def State.active (s : State) (t : Nat) : Bool :=
  (s.tile t).bound.isSome && s.live (s.tile t).handle && (s.regionOf t).phase == .running && !(s.tile t).freezing

/-- A step of another agent put at the end of the agenda (LOG 4 DESIGN CHOICE). -/
def State.push (s : State) (e : Instr) : State := { s with agenda := s.agenda ++ [e] }

/-- A step of another agent put at the end of the agenda unless it stands there. -/
def State.ask (s : State) (e : Instr) : State := if s.agenda.contains e then s else s.push e

/-! ## Freezing a region (R337) -/

/-- The tiles of a list changed by a function. -/
def State.mapTiles (s : State) (ts : List Nat) (f : Tile → Tile) : State :=
  ts.foldl (fun s t => s.setTile t (f (s.tile t))) s

/-- The tiles that a region holds itself: none for a chained region that waits for its producer (R367), or a frozen one (R340). -/
def Region.ownTiles (r : Region) : List Nat := if r.awaiting || r.phase == .frozen then [] else r.tiles

/-- A region told to freeze with a cause: its tiles stop, the event of the cause is posted unless a FREEZE instruction asked, and
the freeze runs as the step REGION_FREEZE. A freeze of a region that is freezing or frozen joins it (R337). -/
def State.freezeRegion (s : State) (h : BitVec 32) (c : Option Cause) (inner : Option Cause) (record : List Word) : State :=
  let r := s.region h
  if s.live h && (r.phase == .running || r.phase == .loading || r.phase == .committed || r.phase == .thawing) then
    let s1 := s.setRegion h { r with phase := .freezing, cause := c, inner := inner }
    let s2 := s1.mapTiles r.ownTiles fun t => { t with freezing := true }
    let s3 := match c with
      | some c => s2.contextError r c inner record
      | none => s2
    s3.push (.regionFreeze h)
  else s

/-! ## Taking an exception and returning from one (R30, R278, R320) -/

/-- Trap entry of the issuing strand: KCAUSE, KTVAL and KEPC are written, PRIV is set, and the strand goes on at KTVEC. With
PRIV = 1 already, the trap does not nest: the region freezes and NESTED_TRAP is posted with the inner cause (R30). A strand that
single-steps halts before the handler's first instruction (R342) (LOG 12 DEDUCED). -/
def takeTrap (s : State) (c : Cause) (tval : Word) (epc : BitVec 13) : State :=
  let x := s.curStrand
  if x.priv then
    (s.setCur { x with pc := epc, waited := 0 }).freezeRegion s.curTile.handle (some .nestedTrap) (some c) []
  else
    let y := { x with
      kcause := BitVec.ofNat 64 c.code
      ktval := tval
      kepc := epc.zeroExtend 64
      pc := s.curTile.ktvec.truncate 13
      hold := .none
      waited := 0 }
    let z := y.setStatus 0 true
    s.setCur (if x.sstep then z.setStatus 15 true else z)

/-- What a waiting instruction keeps when a deferred fault is delivered at it: what it has performed stays performed (R166, R205; LOG 45
DEDUCED). A wait that has performed nothing starts anew. -/
def Strand.park (x : Strand) : Option (BitVec 13 × Hold) :=
  match x.hold with
  | .none | .stashing | .page _ => none
  | h => some (x.pc, h)

/-- The hold with which the instruction at an index goes on after a trap. -/
def Strand.unpark (x : Strand) (pc : BitVec 13) : Hold :=
  match x.parked with
  | some (n, h) => if n = pc then h else .none
  | none => .none

/-- Return from a trap: PRIV is cleared and the strand goes on at KEPC (R278, steps 2 and 3); an instruction that was waiting there when
the trap was delivered goes on waiting, with what it has performed (LOG 45 DEDUCED). -/
def Strand.returnFromTrap (x : Strand) : Strand :=
  { x.setStatus 0 false with pc := x.kepc.truncate 13, hold := x.unpark (x.kepc.truncate 13), parked := none, waited := 0 }

/-- A strand as a halt or a save leaves it: an instruction that waits without having performed anything is abandoned, and reissues (R338,
step 2; R342). -/
def Strand.settle (x : Strand) : Strand := if x.hold = .stashing then { x with hold := .none } else x

/-! ## How an instruction ends -/

/-- How the instruction of the issuing strand ends, with the state it leaves. -/
inductive Eff where
  /-- it retires, and the next instruction follows -/
  | done (s : State)
  /-- it retires and transfers to an index -/
  | jump (s : State) (target : BitVec 13)
  /-- it retires, and the state says where the strand goes on, and with what hold (R278) -/
  | resume (s : State)
  /-- it retires and then traps; KEPC is the next index (ERET-to-next) -/
  | after (s : State) (c : Cause) (tval : Word)
  /-- it traps at the instruction -/
  | trap (s : State) (c : Cause) (tval : Word)
  /-- it waits, and is tried again -/
  | wait (s : State)
  /-- it waits on a condition that the watchdog never ends (R346) -/
  | stall (s : State)
deriving DecidableEq, Repr

/-- A single-stepping strand halts when an instruction has retired (R342). -/
def Strand.stepHalt (x : Strand) : Strand := if x.sstep then x.setStatus 15 true else x

/-- The issuing strand goes on at an index; what a wait left behind is cleared. -/
def State.goTo (s : State) (pc : BitVec 13) : State :=
  let x := s.curStrand
  s.setCur ({ x with pc := pc, hold := .none, waited := 0 }).stepHalt

/-- The instruction retires. Sequential flow past index 8,191 takes BRANCH_RANGE with KEPC 8,191 and KTVAL 8,192 (R94). -/
def retire (s : State) : State :=
  let pc := s.curStrand.pc
  if pc = 8191 then takeTrap s .branchRange 8192 8191 else s.goTo (pc + 1)

/-- The instruction waits: it has performed nothing more than its hold says, and is tried again. From the try on at which the wait has
lasted as many tries as the region's watchdog limit, the step WATCHDOG_EXPIRE follows (R346). -/
def waitHere (s : State) : State :=
  let x := s.curStrand
  let s1 := s.setCur { x with waited := x.waited + 1 }
  let l := s.curRegion.watchdog
  if l ≠ 0 ∧ l ≤ x.waited + 1 then s1.ask (.watchdogExpire s.cur.tile s.cur.strand) else s1

/-- The state after an instruction that ends in an effect. -/
def finish : Eff → State
  | .done s => retire s
  | .jump s t => s.goTo t
  | .resume s => s.setCur s.curStrand.stepHalt
  | .after s c v => takeTrap (s.setCur { s.curStrand with hold := .none }) c v (s.curStrand.pc + 1)
  | .trap s c v => takeTrap s c v s.curStrand.pc
  | .wait s => waitHere s
  | .stall s => s

/-- A computation that may end the instruction early. -/
abbrev M (α : Type) := Except Eff α

/-- The effect of a computation that ends the instruction on every path. -/
def runM (m : M Eff) : Eff :=
  match m with
  | .ok e => e
  | .error e => e

/-- The issuing strand executes an instruction that names some g registers: it waits while one of them holds a scoreboard token
(R161), and otherwise ends in the effect. -/
def issue (s : State) (regs : List (BitVec 6)) (e : Eff) : Host.Outcome State Fault Refusal :=
  .next (if s.curStrand.holdsAny regs then waitHere s else finish e)

/-- An instruction that computes its effect in `M`. -/
def issueM (s : State) (regs : List (BitVec 6)) (m : M Eff) : Host.Outcome State Fault Refusal := issue s regs (runM m)

/-- An instruction that replaces the issuing strand and retires. -/
def issueStrand (s : State) (regs : List (BitVec 6)) (x : Strand) : Host.Outcome State Fault Refusal :=
  issue s regs (.done (s.setCur x))

/-- A trap at the instruction, in `M`. -/
def trapM {α : Type} (s : State) (c : Cause) (tval : Word) : M α := .error (.trap s c tval)

/-- A wait, in `M`. -/
def waitM {α : Type} (s : State) : M α := .error (.wait s)

/-- A wait that the watchdog never ends (R346), in `M`. -/
def stallM {α : Type} (s : State) : M α := .error (.stall s)

/-- Trap at the instruction unless a condition holds. -/
def demand (b : Bool) (s : State) (c : Cause) (tval : Word) : M Unit := if b then .ok () else trapM s c tval

/-- Wait unless a condition holds. -/
def await (b : Bool) (s : State) : M Unit := if b then .ok () else waitM s

/-- Wait, out of the watchdog's reach, unless a condition holds. -/
def awaitStall (b : Bool) (s : State) : M Unit := if b then .ok () else stallM s

/-- KTVAL of a decode trap that a meaning finds: the whole instruction word that stands at PC (R97). -/
def State.word (s : State) : Word := tabGet 0 s.curTile.code s.curStrand.pc.toNat

end Sys2Proof.Machine
end

