-- ==== Sys2Proof/Machine/Flags.lean ====
section
/-!
DEFINITION. KFLAGS (Table 1.10): the exception flags of Table 2.3, how an element of a tile raises them, and the trap that
KSTATUS.FXT asks for (04_scalar_and_control.md R118, R119).
-/
namespace Sys2Proof.Machine

/-- A set of KFLAGS bits. -/
abbrev FlagSet := BitVec 16

/-- Invalid (Table 2.3). -/
def fNV : FlagSet := 1
/-- Divide by zero. -/
def fDZ : FlagSet := 2
/-- Overflow. -/
def fOF : FlagSet := 4
/-- Underflow. -/
def fUF : FlagSet := 8
/-- Inexact. -/
def fNX : FlagSet := 16
/-- Saturation. -/
def fSAT : FlagSet := 32
/-- Range. -/
def fRANGE : FlagSet := 64
/-- Source: a scalar instruction (Table 1.10). -/
def fSRCSCAL : FlagSet := 0x100
/-- Source: the lane row. -/
def fSRCLANE : FlagSet := 0x200
/-- Source: the matrix slice. -/
def fSRCMAT : FlagSet := 0x400
/-- Source: the Inlay fabric. -/
def fSRCINL : FlagSet := 0x800
/-- A flagged result reached a sink. -/
def fSINK : FlagSet := 0x1000
/-- A sink-log record was lost. -/
def fLOGLOST : FlagSet := 0x8000

/-- Whether a flag of `b` is among `a`. -/
def FlagSet.has (a b : FlagSet) : Bool := a &&& b != 0

/-- NV, DZ, OF, SAT and RANGE: the exceptions that set the exception bit (Table 2.3). -/
def excFlags : FlagSet := 0x67

/-- Whether flags set the exception bit (R82). -/
def FlagSet.exc (f : FlagSet) : Bool := FlagSet.has f excFlags

/-- The cause vector of flags: NV, DZ, OF, SAT, RANGE from bit 0 (R179, Table 6.5). -/
def FlagSet.cause (f : FlagSet) : BitVec 5 :=
  bit (FlagSet.has f fRANGE) ++ bit (FlagSet.has f fSAT) ++ bit (FlagSet.has f fOF) ++ bit (FlagSet.has f fDZ) ++ bit (FlagSet.has f fNV)

/-- KFLAGS with bits set (R39). -/
def Tile.setFlags (t : Tile) (f : FlagSet) : Tile := { t with kflags := t.kflags ||| f.zeroExtend 64 }

/-- Flags raised by an element of a tile; when there are any, its source bit is set too (R82, R118). -/
def Tile.raise (t : Tile) (f src : FlagSet) : Tile := if f = 0 then t else t.setFlags (f ||| src)

/-- The cause that a scalar instruction traps with under FXT, by the priority of R119. -/
def fxtCause (f : FlagSet) : Option Cause :=
  if FlagSet.has f fRANGE then some .range
  else if FlagSet.has f fNV then some .fpInvalid
  else if FlagSet.has f fDZ then some .fpDivZero
  else if FlagSet.has f fOF then some .fpOverflow
  else if FlagSet.has f fSAT then some .fpSaturate
  else none

/-- A scalar floating-point step ends: its flags are set with SRCSCAL, and under FXT a raised exception traps after it, KTVAL the
result, or the argument for RANGE (R118, R119). The state already holds the result. -/
def endFp (s : State) (f : FlagSet) (result arg : Word) : Eff :=
  let s1 := s.setCurTile (s.curTile.raise f fSRCSCAL)
  match fxtCause f with
  | some c =>
    if s.curStrand.fxt then .after s1 c (if c = .range then arg else result) else .done s1
  | none => .done s1

end Sys2Proof.Machine
end

