-- ==== Sys2Proof/Machine/Float.lean ====
section
/-!
DEFINITION. Floating-point values and their exact arithmetic with one rounding (02_number_formats.md R58 to R61, R74 to R76,
04_scalar_and_control.md R136, R139 to R142). A finite value is an exact dyadic number, sign, mantissa and exponent; an
operation computes exactly and rounds once at the end.
-/
namespace Sys2Proof.Machine

/-- A binary format: exponent and fraction widths (Table 2.2). -/
structure FFmt where
  eb : Nat
  mb : Nat
deriving DecidableEq, Repr

/-- FP32. -/
def f32 : FFmt := ⟨8, 23⟩
/-- FP16. -/
def f16 : FFmt := ⟨5, 10⟩
/-- BF16. -/
def b16 : FFmt := ⟨8, 7⟩

/-- Exponent bias. -/
def FFmt.bias (f : FFmt) : Nat := 2 ^ (f.eb - 1) - 1

/-- The magnitude pattern of infinity. -/
def FFmt.infBits (f : FFmt) : Nat := (2 ^ f.eb - 1) * 2 ^ f.mb

/-- The canonical quiet NaN (R59). -/
def FFmt.nan (f : FFmt) : Nat := f.infBits + 2 ^ (f.mb - 1)

/-- The sign bit in place. -/
def FFmt.sign (f : FFmt) (neg : Bool) : Nat := if neg then 2 ^ (f.eb + f.mb) else 0

/-- A value: a NaN, an infinity, or a finite number (-1)^neg × m × 2^e. -/
inductive FpNum where
  | nan (signalling : Bool)
  | inf (neg : Bool)
  | fin (neg : Bool) (m : Nat) (e : Int)
deriving DecidableEq, Repr

/-- Rounding modes (Table 2.7). -/
inductive RMode where
  | rne | rtz | rup | rdn | sr
deriving DecidableEq, Repr

/-- Rounding mode of a code of Table 2.7; reserved codes are never held. -/
def RMode.ofCode (c : Nat) : RMode :=
  match c with
  | 0 => .rne | 1 => .rtz | 2 => .rup | 3 => .rdn | 4 => .sr
  | _ => .rne

/-- A result in a format with the flags raised. -/
structure FRes where
  bits : Nat
  fl : FlagSet
deriving DecidableEq, Repr

/-- The value of a bit pattern (R58). -/
def unpack (f : FFmt) (b : Nat) : FpNum :=
  let neg := natBits b (f.eb + f.mb) 1 == 1
  let ex := natBits b f.mb f.eb
  let fr := natBits b 0 f.mb
  if ex = 2 ^ f.eb - 1 then
    if fr = 0 then .inf neg else .nan (decide (fr < 2 ^ (f.mb - 1)))
  else if ex = 0 then .fin neg fr (1 - (f.bias : Int) - f.mb)
  else .fin neg (2 ^ f.mb + fr) ((ex : Int) - f.bias - f.mb)

/-- A magnitude m / 2^s rounded to an integer (Table 2.7, R76). -/
def roundShift (mode : RMode) (draw : Nat) (neg : Bool) (m s : Nat) : Nat :=
  let q := m / 2 ^ s
  let r := m % 2 ^ s
  if r = 0 then q
  else match mode with
    | .rne => if 2 * r > 2 ^ s ∨ (2 * r = 2 ^ s ∧ q % 2 = 1) then q + 1 else q
    | .rtz => q
    | .rup => if neg then q else q + 1
    | .rdn => if neg then q + 1 else q
    | .sr => if draw < r * 65536 / 2 ^ s then q + 1 else q

/-- A magnitude m × 2^e rounded to a multiple of 2^q, as that multiple. -/
def roundAt (mode : RMode) (draw : Nat) (neg : Bool) (m : Nat) (e q : Int) : Nat :=
  if q ≤ e then m * 2 ^ (e - q).toNat else roundShift mode draw neg m (q - e).toNat

/-- Whether m × 2^e is no multiple of 2^q. -/
def inexactAt (m : Nat) (e q : Int) : Bool := decide (e < q) && decide (m % 2 ^ (q - e).toNat ≠ 0)

/-- What an overflow delivers (R74): infinity or the largest finite value. -/
def overflowBits (f : FFmt) (mode : RMode) (neg : Bool) : Nat :=
  let toInf := match mode with
    | .rne => true
    | .rtz => false
    | .rup => !neg
    | .rdn => neg
    | .sr => true
  f.sign neg + (if toInf then f.infBits else f.infBits - 1)

/-- A finite value rounded to a format. Tininess is detected after rounding, with an unbounded exponent (R60)
(LOG 54 DEDUCED). -/
def roundFin (f : FFmt) (mode : RMode) (draw : Nat) (neg : Bool) (m : Nat) (e : Int) : FRes :=
  if m = 0 then ⟨f.sign neg, 0⟩
  else
    let top : Int := e + Nat.log2 m
    let emin : Int := 1 - (f.bias : Int)
    let q : Int := max top emin - f.mb
    let mant := roundAt mode draw neg m e q
    let inex := inexactAt m e q
    let bits := (q - (emin - f.mb)).toNat * 2 ^ f.mb + mant
    if bits ≥ f.infBits then ⟨overflowBits f mode neg, fOF ||| fNX⟩
    else
      let free := roundAt mode draw neg m e (top - f.mb)
      let tiny := decide (top < emin) && !(decide (top = emin - 1) && decide (free = 2 ^ (f.mb + 1)))
      ⟨f.sign neg + bits, (if inex then fNX else 0) ||| (if inex && tiny then fUF else 0)⟩

/-- The canonical NaN, with NV when the operation is invalid. -/
def nanRes (f : FFmt) (invalid : Bool) : FRes := ⟨f.nan, if invalid then fNV else 0⟩

/-- Infinity without a flag. -/
def infRes (f : FFmt) (neg : Bool) : FRes := ⟨f.sign neg + f.infBits, 0⟩

/-- A value rounded to a format: the conversion between floating-point formats (R74, R78). -/
def roundNum (f : FFmt) (mode : RMode) (draw : Nat) : FpNum → FRes
  | .nan sig => nanRes f sig
  | .inf neg => infRes f neg
  | .fin neg m e => roundFin f mode draw neg m e

/-- A value is a signalling NaN. -/
def FpNum.isSig : FpNum → Bool
  | .nan s => s
  | _ => false

/-- A value is a NaN. -/
def FpNum.isNan : FpNum → Bool
  | .nan _ => true
  | _ => false

/-- The signed mantissa of a finite value at an exponent not above its own. -/
def scaled (neg : Bool) (m : Nat) (e base : Int) : Int :=
  let v : Int := ((m * 2 ^ (e - base).toNat : Nat) : Int)
  if neg then -v else v

/-- The exact sum of two finite values. An exact zero is +0, or -0 under RDN, unless both are zeros of one sign (R136). -/
def sumFin (mode : RMode) (n1 : Bool) (m1 : Nat) (e1 : Int) (n2 : Bool) (m2 : Nat) (e2 : Int) : FpNum :=
  let base := min e1 e2
  let v := scaled n1 m1 e1 base + scaled n2 m2 e2 base
  if v = 0 then
    if m1 = 0 ∧ m2 = 0 ∧ n1 = n2 then .fin n1 0 0 else .fin (decide (mode = .rdn)) 0 0
  else .fin (decide (v < 0)) v.natAbs base

/-- The exact sum of two values; Inf - Inf is invalid and gives none (R136). -/
def addNum (mode : RMode) : FpNum → FpNum → Option FpNum
  | .inf a, .inf b => if a = b then some (.inf a) else none
  | .inf a, _ => some (.inf a)
  | _, .inf b => some (.inf b)
  | .fin n1 m1 e1, .fin n2 m2 e2 => some (sumFin mode n1 m1 e1 n2 m2 e2)
  | _, _ => none

/-- The exact product of two values that are no NaN; 0 × Inf is invalid and gives none. -/
def mulNum : FpNum → FpNum → Option FpNum
  | .inf a, .inf b => some (.inf (a != b))
  | .inf a, .fin b m _ => if m = 0 then none else some (.inf (a != b))
  | .fin a m _, .inf b => if m = 0 then none else some (.inf (a != b))
  | .fin a m1 e1, .fin b m2 e2 => some (.fin (a != b) (m1 * m2) (e1 + e2))
  | _, _ => none

/-- A value with the sign inverted. -/
def FpNum.neg : FpNum → FpNum
  | .nan s => .nan s
  | .inf a => .inf (!a)
  | .fin a m e => .fin (!a) m e

/-- Round an exact result, or deliver the canonical NaN with NV. -/
def roundOr (f : FFmt) (mode : RMode) : Option FpNum → FRes
  | some v => roundNum f mode 0 v
  | none => nanRes f true

/-- a + b of values (R136). -/
def fAdd (f : FFmt) (mode : RMode) (a b : FpNum) : FRes :=
  if a.isNan || b.isNan then nanRes f (a.isSig || b.isSig) else roundOr f mode (addNum mode a b)

/-- a - b of values; a NaN operand keeps no sign. -/
def fSub (f : FFmt) (mode : RMode) (a b : FpNum) : FRes := fAdd f mode a b.neg

/-- a × b of values (R136). -/
def fMul (f : FFmt) (mode : RMode) (a b : FpNum) : FRes :=
  if a.isNan || b.isNan then nanRes f (a.isSig || b.isSig) else roundOr f mode (mulNum a b)

/-- a × b + c with one rounding; 0 × Inf is invalid whatever c is (R136). -/
def fFma (f : FFmt) (mode : RMode) (a b c : FpNum) : FRes :=
  if a.isNan || b.isNan then nanRes f (a.isSig || b.isSig || c.isSig)
  else match mulNum a b with
    | none => nanRes f true
    | some p => if c.isNan then nanRes f c.isSig else roundOr f mode (addNum mode p c)

/-- The quotient of two finite non-zero magnitudes as a dyadic number with a sticky lowest bit, precise enough for a format. -/
def divFin (f : FFmt) (m1 : Nat) (e1 : Int) (m2 : Nat) (e2 : Int) : Nat × Int :=
  let k := f.mb + 4 + Nat.log2 m2
  let q := m1 * 2 ^ k / m2
  let st := if m1 * 2 ^ k % m2 = 0 then 0 else 1
  (2 * q + st, e1 - e2 - k - 1)

/-- a ÷ b of values (R136). -/
def fDiv (f : FFmt) (mode : RMode) (a b : FpNum) : FRes :=
  match a, b with
  | .nan s, .nan t => nanRes f (s || t)
  | .nan s, _ => nanRes f s
  | _, .nan t => nanRes f t
  | .inf _, .inf _ => nanRes f true
  | .inf n1, .fin n2 _ _ => infRes f (n1 != n2)
  | .fin n1 _ _, .inf n2 => ⟨f.sign (n1 != n2), 0⟩
  | .fin n1 m1 e1, .fin n2 m2 e2 =>
    if m2 = 0 then
      if m1 = 0 then nanRes f true else ⟨f.sign (n1 != n2) + f.infBits, fDZ⟩
    else if m1 = 0 then ⟨f.sign (n1 != n2), 0⟩
    else
      let (m, e) := divFin f m1 e1 m2 e2
      roundFin f mode 0 (n1 != n2) m e

/-- The integer square root, bit by bit from bit `b` - 1 down. -/
def isqrtFrom (x : Nat) : Nat → Nat → Nat
  | 0, r => r
  | b + 1, r => isqrtFrom x b (if (r + 2 ^ b) * (r + 2 ^ b) ≤ x then r + 2 ^ b else r)

/-- The largest integer whose square is not above a number. -/
def isqrt (x : Nat) : Nat := isqrtFrom x (Nat.log2 x / 2 + 1) 0

/-- √a of a value (R136). -/
def fSqrt (f : FFmt) (mode : RMode) : FpNum → FRes
  | .nan s => nanRes f s
  | .inf neg => if neg then nanRes f true else infRes f false
  | .fin neg m e =>
    if m = 0 then ⟨f.sign neg, 0⟩
    else if neg then nanRes f true
    else
      let k0 := 2 * (f.mb + 3)
      let k := if (e - k0) % 2 = 0 then k0 else k0 + 1
      let r := isqrt (m * 2 ^ k)
      let st := if r * r = m * 2 ^ k then 0 else 1
      roundFin f mode 0 false (2 * r + st) ((e - k) / 2 - 1)

/-- The order of two values that are no NaN; zeros compare equal. -/
def cmpNum : FpNum → FpNum → Ordering
  | .inf a, .inf b => if a = b then .eq else if a then .lt else .gt
  | .inf a, _ => if a then .lt else .gt
  | _, .inf b => if b then .gt else .lt
  | .fin n1 m1 e1, .fin n2 m2 e2 =>
    let base := min e1 e2
    compare (scaled n1 m1 e1 base) (scaled n2 m2 e2 base)
  | _, _ => .eq

/-- Sign of a value. -/
def FpNum.isNeg : FpNum → Bool
  | .nan _ => false
  | .inf a => a
  | .fin a _ _ => a

/-- Whether `a` is the smaller operand; -0 is smaller than +0 (R139). -/
def minFirst (a b : FpNum) : Bool :=
  match cmpNum a b with
  | .lt => true
  | .eq => a.isNeg || !b.isNeg
  | .gt => false

/-- Minimum (R139). -/
def fMin (f : FFmt) (a b : Nat) : FRes :=
  let x := unpack f a
  let y := unpack f b
  if x.isNan || y.isNan then nanRes f (x.isSig || y.isSig) else ⟨if minFirst x y then a else b, 0⟩

/-- Maximum (R139). -/
def fMax (f : FFmt) (a b : Nat) : FRes :=
  let x := unpack f a
  let y := unpack f b
  if x.isNan || y.isNan then nanRes f (x.isSig || y.isSig) else ⟨if minFirst x y then b else a, 0⟩

/-- A comparison and its flags (R140). -/
def fCmp (c : FCond) (a b : FpNum) : Bool × FlagSet :=
  let un := a.isNan || b.isNan
  let sig := if a.isSig || b.isSig then fNV else 0
  let anyNan := if un then fNV else 0
  let o := cmpNum a b
  match c with
  | .eq => (!un && o == .eq, sig)
  | .ne => (un || o != .eq, sig)
  | .lt => (!un && o == .lt, anyNan)
  | .le => (!un && o != .gt, anyNan)
  | .gt => (!un && o == .gt, anyNan)
  | .ge => (!un && o != .lt, anyNan)
  | .un => (un, sig)
  | .or => (!un, sig)

/-- The class mask of a bit pattern (R141). -/
def fClass (f : FFmt) (b : Nat) : Nat :=
  let ex := natBits b f.mb f.eb
  match unpack f b with
  | .nan s => if s then 0x100 else 0x200
  | .inf neg => if neg then 1 else 0x80
  | .fin neg m _ =>
    if m = 0 then (if neg then 8 else 0x10)
    else if ex = 0 then (if neg then 4 else 0x20)
    else (if neg then 2 else 0x40)

/-- |a|, or the canonical NaN (R142). -/
def fAbs (f : FFmt) (b : Nat) : FRes :=
  match unpack f b with
  | .nan s => nanRes f s
  | _ => ⟨b % 2 ^ (f.eb + f.mb), 0⟩

/-- -a, or the canonical NaN (R142). -/
def fNeg (f : FFmt) (b : Nat) : FRes :=
  match unpack f b with
  | .nan s => nanRes f s
  | .inf neg => ⟨f.sign (!neg) + f.infBits, 0⟩
  | .fin neg _ _ => ⟨f.sign (!neg) + b % 2 ^ (f.eb + f.mb), 0⟩

/-- A value times 2^k. -/
def FpNum.scale (k : Int) : FpNum → FpNum
  | .fin n m e => .fin n m (e + k)
  | v => v

end Sys2Proof.Machine
end

