-- ==== Sys2Proof/Machine/Convert.lean ====
section
/-!
DEFINITION. Conversion between the number formats, LOG6 among them (02_number_formats.md R62, R63, R73 to R78,
04_scalar_and_control.md R143, R144), and the stochastic-rounding draw function (R77).
-/
namespace Sys2Proof

/-- The binary format of a conversion format, if it is one. -/
def CvtFmt.float : CvtFmt → Option Machine.FFmt
  | .fp32 => some Machine.f32
  | .fp16 => some Machine.f16
  | .bf16 => some Machine.b16
  | _ => none

/-- Width of a format in bits (R143). -/
def CvtFmt.width : CvtFmt → Nat
  | .fp32 => 32 | .fp16 => 16 | .bf16 => 16 | .log6 => 6 | .int4 => 4 | .int8 => 8 | .int16 => 16 | .int32 => 32
  | .int64 => 64

/-- The format is an integer format. -/
def CvtFmt.isInt : CvtFmt → Bool
  | .int4 | .int8 | .int16 | .int32 | .int64 => true
  | _ => false

end Sys2Proof

namespace Sys2Proof.Machine

/-- Significand fraction fields T[0] to T[3] of the LOG6 images (R63). -/
def log6Frac (f : Nat) : Nat := nth 0 [0, 0x1837F0, 0x3504F3, 0x5744FD] f

/-- The image of LOG6 magnitude code `m` as a multiple of 2^-27 (R63, Table 2.5). -/
def log6Image (m : Nat) : Nat := if m = 0 then 0 else (2 ^ 23 + log6Frac (m % 4)) * 2 ^ (m / 4)

/-- The value of a LOG6 code (R62). -/
def log6Num (c : Nat) : FpNum :=
  let m := natBits c 0 5
  let s := natBits c 5 1 == 1
  if m = 0 then (if s then .nan false else .fin false 0 0) else .fin s (log6Image m) (-27)

/-- The value of a two's complement pattern of `n` bits. -/
def intNum (n v : Nat) : FpNum :=
  let x := v % 2 ^ n
  if x < 2 ^ (n - 1) then .fin false x 0 else .fin true (2 ^ n - x) 0

/-- The value of a bit pattern of a format; bits above its width are ignored (R143, R144). -/
def cvtNum (f : CvtFmt) (v : Nat) : FpNum :=
  match f.float with
  | some g => unpack g (v % 2 ^ f.width)
  | none => if f.isInt then intNum f.width v else log6Num (v % 64)

/-- A bit pattern of a format as a register value: integers sign-extended, all others zero-extended (Table 4.11). -/
def cvtPlace (f : CvtFmt) (v : Nat) : Word :=
  if f.isInt && decide (2 ^ (f.width - 1) ≤ v % 2 ^ f.width) then
    BitVec.ofNat 64 (2 ^ 64 - 2 ^ f.width + v % 2 ^ f.width)
  else BitVec.ofNat 64 (v % 2 ^ f.width)

/-- How many magnitude codes from 1 to `n` have an image, scaled by `k`, not above `x`. -/
def log6Below (x k : Nat) : Nat → Nat
  | 0 => 0
  | n + 1 => log6Below x k n + (if log6Image (n + 1) * k ≤ x then 1 else 0)

/-- Whether rounding chooses the upper of two neighbours in magnitude; `odd` says that the lower one is odd (Table 2.7, R76). -/
def roundUpward (mode : RMode) (draw : Nat) (neg odd : Bool) (x lo hi : Nat) : Bool :=
  match mode with
  | .rne => decide (2 * x > lo + hi) || (decide (2 * x = lo + hi) && odd)
  | .rtz => false
  | .rup => !neg
  | .rdn => neg
  | .sr => decide (draw < (x - lo) * 65536 / (hi - lo))

/-- A finite value rounded to LOG6 (R73). -/
def log6Round (mode : RMode) (draw : Nat) (neg : Bool) (m : Nat) (e : Int) : FRes :=
  let base := min e (-27)
  let x := m * 2 ^ (e - base).toNat
  let k := 2 ^ (-27 - base).toNat
  let sg := if neg then 32 else 0
  if log6Image 31 * k < x then ⟨sg + 31, fSAT ||| fNX⟩
  else
    let lo := log6Below x k 31
    if log6Image lo * k = x then ⟨if lo = 0 then 0 else sg + lo, 0⟩
    else
      let r := if roundUpward mode draw neg (lo % 2 == 1) x (log6Image lo * k) (log6Image (lo + 1) * k) then lo + 1 else lo
      if r = 0 then ⟨0, fUF ||| fNX⟩ else ⟨sg + r, fNX⟩

/-- A signed number as a pattern of `n` bits, clamped to the range of the format; the flag says that it was clamped. -/
def clampInt (n : Nat) (neg : Bool) (mag : Nat) : Nat × Bool :=
  if neg then
    if mag > 2 ^ (n - 1) then (2 ^ (n - 1), true) else ((2 ^ n - mag) % 2 ^ n, false)
  else if mag ≥ 2 ^ (n - 1) then (2 ^ (n - 1) - 1, true) else (mag, false)

/-- A floating-point or LOG6 value converted to an integer of `n` bits (R78). -/
def toInt (n : Nat) (mode : RMode) (draw : Nat) : FpNum → FRes
  | .nan _ => ⟨0, fNV⟩
  | .inf neg => ⟨if neg then 2 ^ (n - 1) else 2 ^ (n - 1) - 1, fNV⟩
  | .fin neg m e =>
    let r := clampInt n neg (roundAt mode draw neg m e 0)
    ⟨r.1, if r.2 then fSAT ||| fNX else if inexactAt m e 0 then fNX else 0⟩

/-- A value converted to LOG6 (R73). -/
def toLog6 (mode : RMode) (draw : Nat) : FpNum → FRes
  | .nan sig => ⟨0x20, if sig then fNV else 0⟩
  | .inf _ => ⟨0x20, fNV⟩
  | .fin neg m e => log6Round mode draw neg m e

/-- A value converted to a format, rounded under a mode (R73, R74, R78). -/
def convertNum (dst : CvtFmt) (mode : RMode) (draw : Nat) (v : FpNum) : FRes :=
  match dst.float with
  | some f => roundNum f mode draw v
  | none => if dst.isInt then toInt dst.width mode draw v else toLog6 mode draw v

/-- An integer converted to a narrower or wider integer: saturating forms clamp and set SAT, truncating forms keep the low bits
(R78). -/
def convertInt (src dst : CvtFmt) (sat : Bool) (v : Nat) : FRes :=
  match intNum src.width v with
  | .fin neg mag _ =>
    if sat then
      let r := clampInt dst.width neg mag
      ⟨r.1, if r.2 then fSAT else 0⟩
    else ⟨if neg then (2 ^ 64 - mag) % 2 ^ dst.width else mag % 2 ^ dst.width, 0⟩
  | _ => ⟨0, 0⟩

/-- A bit pattern converted from a format to a format (R144). -/
def convert (src dst : CvtFmt) (sat : Bool) (mode : RMode) (draw : Nat) (v : Nat) : FRes :=
  if src = dst then
    match src.float with
    | some f => if (unpack f (v % 2 ^ src.width)).isNan then nanRes f (unpack f (v % 2 ^ src.width)).isSig else ⟨v % 2 ^ src.width, 0⟩
    | none => ⟨v % 2 ^ src.width, 0⟩
  else if src.isInt && dst.isInt then convertInt src dst sat v
  else convertNum dst mode draw (cvtNum src v)

/-- One mixing step of the draw function. -/
def drawMix (z : Word) (sh : Nat) (k : Word) : Word := (z ^^^ (z >>> sh)) * k

/-- Draw `n` of a substream (R77). -/
def drawOf (seed : Word) (t s : Nat) (n : BitVec 48) : Nat :=
  let c := BitVec.ofNat 64 (n.toNat / 4)
  let z0 := seed ^^^ (BitVec.ofNat 64 t <<< 24) ^^^ (BitVec.ofNat 64 s <<< 61)
  let z1 := drawMix (z0 + c * 0x9E3779B97F4A7C15#64) 30 0xBF58476D1CE4E5B9#64
  let z2 := drawMix z1 27 0x94D049BB133111EB#64
  field (z2 ^^^ (z2 >>> 31)) (16 * (n.toNat % 4)) 16

/-- The next draw of a substream of a tile, whose counter rises by 1 (R41, R77). -/
def State.draw (s : State) (t sub : Nat) : Nat × State :=
  let x := s.tile t
  let r := s.region x.handle
  let n := tabGet (0#48) x.draws sub
  (drawOf r.info.seed (logicalOf r x) sub n, s.setTile t { x with draws := tabSet (0#48) x.draws sub (n + 1) })

end Sys2Proof.Machine
end

