-- ==== Sys2Proof/Machine/Transcend.lean ====
section
/-!
DEFINITION. FRSQRT, FEXP2, FLOG2, FSIN and FCOS: the exact value rounded toward zero (04_scalar_and_control.md R137, R138,
Table 4.9; 02_number_formats.md R84). An irrational value is computed in fixed point with far more bits than a result keeps, and
stands as the dyadic number in the middle between two neighbouring fixed-point values (LOG 21 DEDUCED).
-/
namespace Sys2Proof.Machine

/-- The largest integer not above ln 2 × 2^256. -/
def ln2Fixed : Nat := 0xb17217f7d1cf79abc9e3b39803f2f6af40f343267298b62d8a0d175b8baafa2b

/-- The largest integer not above π × 2^400. -/
def piFixed : Nat :=
  0x3243f6a8885a308d313198a2e03707344a4093822299f31d0082efa98ec4e6c89452821e638d01377be5466cf34e90c6cc0ac

/-- A signed fixed-point product with `p` fraction bits. -/
def fixMul (p : Nat) (a b : Int) : Int := a * b / (2 ^ p : Nat)

/-- The series 1 + y + y²/2 + y³/6 + …, from the term after `k` on; `t` is the term of index `k`. -/
def expSeries (p : Nat) (y : Int) : Nat → Nat → Int → Int
  | 0, _, t => t
  | n + 1, k, t => t + expSeries p y n (k + 1) (fixMul p t y / (k + 1 : Nat))

/-- The alternating series whose term of index `k` + 2 is the term of index `k` times -r² / ((k + 1)(k + 2)). -/
def circSeries (p : Nat) (r2 : Int) : Nat → Nat → Int → Int
  | 0, _, t => t
  | n + 1, k, t => t + circSeries p r2 n (k + 2) (-(fixMul p t r2 / ((k + 1) * (k + 2) : Nat)))

/-- The series z + z³/3 + z⁵/5 + …; `t` is the power z^k. -/
def atanhSeries (p : Nat) (z2 : Int) : Nat → Nat → Int → Int
  | 0, k, t => t / (k : Nat)
  | n + 1, k, t => t / (k : Nat) + atanhSeries p z2 n (k + 2) (fixMul p t z2)

/-- A fixed-point value with `p` fraction bits that lies strictly between `v` and `v` + 1 units, times 2^e, rounded to FP32
toward zero. -/
def roundBetween (p : Nat) (v e : Int) : FRes :=
  if v < 0 then roundFin f32 .rtz 0 true (2 * v + 1).natAbs (e - p - 1)
  else roundFin f32 .rtz 0 false (2 * v + 1).natAbs (e - p - 1)

/-- 2^x of a finite value (R137). -/
def exp2Fin (neg : Bool) (m : Nat) (e : Int) : FRes :=
  let x := FpNum.fin neg m e
  if m = 0 then roundFin f32 .rtz 0 false 1 0
  else if e + Nat.log2 m < -40 then roundFin f32 .rtz 0 false (if neg then 2 ^ 64 - 1 else 2 ^ 64 + 1) (-64)
  else if cmpNum x (.fin false 128 0) != .lt then ⟨f32.infBits, fOF ||| fNX⟩
  else if cmpNum x (.fin true 149 0) == .lt then ⟨0, fUF ||| fNX⟩
  else
    let v := scaled neg m (e + 256) 0
    let n := v / (2 ^ 256 : Nat)
    let f := v % (2 ^ 256 : Nat)
    if f = 0 then roundFin f32 .rtz 0 false 1 n
    else roundBetween 256 (expSeries 256 (fixMul 256 f ln2Fixed) 64 0 (2 ^ 256 : Nat)) n

/-- log2 x of a finite positive value (R137). -/
def log2Fin (m : Nat) (e : Int) : FRes :=
  let j := Nat.log2 m
  let k : Int := e + j
  if m = 2 ^ j then roundFin f32 .rtz 0 (decide (k < 0)) k.natAbs 0
  else
    let z : Int := ((m - 2 ^ j) * 2 ^ 256 / (m + 2 ^ j) : Nat)
    let ln := 2 * atanhSeries 256 (fixMul 256 z z) 84 1 z
    let frac := ln * (2 ^ 256 : Nat) / (ln2Fixed : Nat)
    roundBetween 256 (k * (2 ^ 256 : Nat) + frac) 0

/-- 1 / √x of a finite positive value (R137). -/
def rsqrtFin (m : Nat) (e : Int) : FRes :=
  let odd := e % 2 ≠ 0
  let m1 := if odd then 2 * m else m
  let e1 := if odd then e - 1 else e
  let k := 40 + Nat.log2 m1
  let r := isqrt (2 ^ (2 * k) / m1)
  if r * r * m1 = 2 ^ (2 * k) then roundFin f32 .rtz 0 false r (-(e1 / 2) - k)
  else roundFin f32 .rtz 0 false (2 * r + 1) (-(e1 / 2) - k - 1)

/-- sin or cos of a finite value below 2^20 in magnitude, reduced exactly by multiples of π/2 (R84, R138). -/
def circFin (cosine neg : Bool) (m : Nat) (e : Int) : FRes :=
  if m = 0 then (if cosine then roundFin f32 .rtz 0 false 1 0 else ⟨f32.sign neg, 0⟩)
  else if e + Nat.log2 m < -40 then
    if cosine then roundFin f32 .rtz 0 false (2 ^ 64 - 1) (-64) else roundFin f32 .rtz 0 neg (m * 2 ^ 64 - 1) (e - 64)
  else
    let x : Int := (m * 2 ^ (e + 400).toNat : Nat)
    let half : Int := (piFixed / 2 : Nat)
    let q := (2 * x + half) / (2 * half)
    let r := x - q * (piFixed : Nat) / 2
    let r2 := fixMul 400 r r
    let sn := circSeries 400 r2 48 1 r
    let cs := circSeries 400 r2 48 0 (2 ^ 400 : Nat)
    let quad := (q + (if cosine then 1 else 0)) % 4
    let v := if quad = 0 then sn else if quad = 1 then cs else if quad = 2 then -sn else -cs
    roundBetween 400 (if neg && !cosine then -v else v) 0

/-- The functions of R137. -/
inductive Fn where
  | rsqrt | exp2 | log2 | sin | cos
deriving DecidableEq, Repr

/-- A function of R137 in FP32 of an exact argument: result bits and flags. -/
def fnF32 (f : Fn) (x : FpNum) : FRes :=
  match f, x with
  | .sin, .nan _ | .cos, .nan _ | .sin, .inf _ | .cos, .inf _ => ⟨f32.nan, fNV ||| fRANGE⟩
  | _, .nan s => nanRes f32 s
  | .rsqrt, .inf neg => if neg then nanRes f32 true else ⟨0, 0⟩
  | .exp2, .inf neg => if neg then ⟨0, 0⟩ else infRes f32 false
  | .log2, .inf neg => if neg then nanRes f32 true else infRes f32 false
  | .rsqrt, .fin neg m e =>
    if m = 0 then ⟨f32.sign neg + f32.infBits, fDZ⟩ else if neg then nanRes f32 true else rsqrtFin m e
  | .exp2, .fin neg m e => exp2Fin neg m e
  | .log2, .fin neg m e =>
    if m = 0 then ⟨f32.sign true + f32.infBits, fDZ⟩ else if neg then nanRes f32 true else log2Fin m e
  | .sin, .fin neg m e =>
    if cmpNum (.fin false m e) (.fin false 1 20) == .lt then circFin false neg m e else ⟨f32.nan, fNV ||| fRANGE⟩
  | .cos, .fin neg m e =>
    if cmpNum (.fin false m e) (.fin false 1 20) == .lt then circFin true neg m e else ⟨f32.nan, fNV ||| fRANGE⟩

/-- A function of R137 in a narrower format: the FP32 result of the widened argument, narrowed under a mode; the flags of both
steps are ORed. -/
def fnNarrow (g : FFmt) (f : Fn) (mode : RMode) (x : FpNum) : FRes :=
  let a := fnF32 f x
  let b := roundNum g mode 0 (unpack f32 a.bits)
  ⟨b.bits, a.fl ||| b.fl⟩

end Sys2Proof.Machine
end

