-- ==== Sys2Proof/Machine/Operands.lean ====
section
/-!
DEFINITION. The operand forms that meanings share: immediates (03_encoding_and_assembly.md R91), the effective address of shape M
(R92), and the rounding mode that an instruction runs under (R89, R74, R75).
-/
namespace Sys2Proof.Machine

/-- IMM32 sign-extended (R91). -/
def sx32 (i : BitVec 32) : Word := i.signExtend 64

/-- IMM32 zero-extended, as AND·I, OR·I, XOR·I and ANDN·I take it (R91). -/
def zx32 (i : BitVec 32) : Word := i.zeroExtend 64

/-- A word's low `n` bits as a number. -/
def low (w : Word) (n : Nat) : Nat := w.toNat % 2 ^ n

/-- a[n:0] sign-extended from bit n. -/
def signFrom (a : Word) (n : Nat) : Word := (a <<< (63 - n)).sshiftRight (63 - n)

/-- The result of a 32-bit form: bits [31:0] sign-extended (R123). -/
def wide32 (w : BitVec 32) : Word := w.signExtend 64

/-- The effective address of shape M (R92). -/
def effAddr (base index : Word) (scale : BitVec 3) (off : BitVec 21) : BitVec 56 :=
  base.truncate 56 + (index <<< scale.toNat).truncate 56 + off.signExtend 56

/-- The mode of an arithmetic instruction: DYN takes KSTATUS.RM, and SR there rounds RNE (R75). -/
def arithMode (r : Rnd) (x : Strand) : RMode :=
  match r with
  | .rne => .rne
  | .rtz => .rtz
  | .rup => .rup
  | .rdn => .rdn
  | .sr => .rne
  | .dyn => if x.rm = 4 then .rne else RMode.ofCode x.rm

/-- The mode of a conversion. SR needs feature bit 6 (R239); under DYN, SR needs KSTATUS.SRT when the conversion is narrowing
(R75), and rounds RNE when it is not. -/
def convMode (r : Rnd) (narrowing : Bool) (s : State) : M RMode :=
  let x := s.curStrand
  match r with
  | .sr => if s.feature 6 then .ok .sr else trapM s .illegalModifier s.word
  | .dyn =>
    if x.rm = 4 ∧ narrowing then (if x.srt then .ok .sr else trapM s .illegalModifier s.word)
    else .ok (arithMode .dyn x)
  | r => .ok (arithMode r x)

/-- The substream that the running firing's actor entry names (R41). -/
def State.substream (s : State) : Nat :=
  match s.curStrand.firing with
  | some f => (tabGet Actor.idle s.curTile.actors f.actor).substream
  | none => 0

/-- A draw of the issuing strand when the mode is SR; no draw otherwise. -/
def State.drawFor (s : State) (mode : RMode) : Nat × State :=
  if mode = .sr then s.draw s.cur.tile s.substream else (0, s)

/-- Element width in bytes of a SIZE code (R92). -/
def sizeBytes (size : BitVec 2) : Nat := 2 ^ size.toNat

end Sys2Proof.Machine
end

