-- ==== Sys2Proof/Machine/Integer.lean ====
section
/-!
DEFINITION. Integer arithmetic and logic, moves, bit fields, pointer metadata, predicates, compare and select
(04_scalar_and_control.md R116, R121 to R129).
-/
namespace Sys2Proof.Machine

/-- g[d] := f a b, of two registers. -/
def alu3 (f : Word → Word → Word) (d a b : BitVec 6) (s : State) : Host.Outcome State Fault Refusal :=
  issueStrand s [d, a, b] (s.curStrand.wg d (f (s.curStrand.rg a) (s.curStrand.rg b)))

/-- g[d] := f a v, of a register and an immediate value. -/
def aluImm (f : Word → Word → Word) (d a : BitVec 6) (v : Word) (s : State) : Host.Outcome State Fault Refusal :=
  issueStrand s [d, a] (s.curStrand.wg d (f (s.curStrand.rg a) v))

/-- g[d] := f a, of one register. -/
def alu1 (f : Word → Word) (d a : BitVec 6) (s : State) : Host.Outcome State Fault Refusal :=
  issueStrand s [d, a] (s.curStrand.wg d (f (s.curStrand.rg a)))

/-- p[d] := f a v, of a register and a value. -/
def test2 (regs : List (BitVec 6)) (d : BitVec 3) (r : Bool) (s : State) : Host.Outcome State Fault Refusal :=
  issueStrand s regs (s.curStrand.wp d r)

/-! ## Operations (R121 to R123) -/

/-- High 64 bits of the 128-bit product, signed or unsigned. -/
def mulHigh (sg : Bool) (a b : Word) : Word :=
  if sg then (a.signExtend 128 * b.signExtend 128).extractLsb' 64 64
  else (a.zeroExtend 128 * b.zeroExtend 128).extractLsb' 64 64

/-- Quotient truncated toward zero; all ones for b = 0 (R122). -/
def quotient (sg : Bool) (a b : Word) : Word :=
  if b = 0 then BitVec.allOnes 64 else if sg then a.sdiv b else a / b

/-- Remainder with the sign of the dividend; the dividend for b = 0 (R122). -/
def remainder (sg : Bool) (a b : Word) : Word := if b = 0 then a else if sg then a.srem b else a % b

/-- a rotated left by n. -/
def rotl (a : Word) (n : Nat) : Word := a <<< n ||| a >>> (64 - n)

/-- a ≤ b, signed or unsigned. -/
def leq (sg : Bool) (a b : Word) : Bool := if sg then a.sle b else a.ule b

/-- The smaller of a and b. -/
def minW (sg : Bool) (a b : Word) : Word := if leq sg a b then a else b

/-- The larger of a and b. -/
def maxW (sg : Bool) (a b : Word) : Word := if leq sg b a then a else b

/-- A division ends: its result is written, and under DZT a division by zero traps after it (R122). -/
def endDiv (d : BitVec 6) (regs : List (BitVec 6)) (r a b : Word) (s : State) : Host.Outcome State Fault Refusal :=
  let t := s.setCur (s.curStrand.wg d r)
  issue s regs (if b = 0 ∧ s.curStrand.dzt then .after t .divZero a else .done t)

/-- A comparison of CMP (R127, Table 3.4). -/
def holds (c : Cond) (a b : Word) : Bool :=
  match c with
  | .eq => a == b
  | .ne => a != b
  | .lt => a.slt b
  | .le => a.sle b
  | .gt => b.slt a
  | .ge => b.sle a
  | .ltu => a.ult b
  | .leu => a.ule b
  | .gtu => b.ult a
  | .geu => b.ule a

/-- Leading zero bits; 64 for 0 (Table 4.4). -/
def leadingZeros (a : Word) : Word := if a = 0 then 64 else BitVec.ofNat 64 (63 - Nat.log2 a.toNat)

/-- Number of one bits. -/
def ones (a : Word) : Word := BitVec.ofNat 64 ((upFrom 0 64).filter a.getLsbD).length

/-- Bits pos to pos + len of a word, zero-extended; `len` is the length less 1 (EXTB). -/
def extract (a : Word) (pos len : Nat) : Word := (a >>> pos) &&& BitVec.ofNat 64 (2 ^ (len + 1) - 1)

/-- A word with bits pos to pos + len replaced by the low bits of another (INSB). -/
def insertBits (old a : Word) (pos len : Nat) : Word :=
  let m := BitVec.ofNat 64 (2 ^ (len + 1) - 1)
  (old &&& ~~~(m <<< pos)) ||| ((a &&& m) <<< pos)

/-- a[n:0] zero-extended. -/
def zeroFrom (a : Word) (n : Nat) : Word := a &&& BitVec.ofNat 64 (2 ^ (n + 1) - 1)

/-- A pointer with its address field replaced (R71, R125). -/
def withAddr (p : Word) (v : BitVec 56) : Word := p.extractLsb' 56 8 ++ v

/-- PADD (R125). -/
def ptrAdd (p b : Word) : Word := withAddr p (p.truncate 56 + b.truncate 56)

/-- PSUB (R125). -/
def ptrSub (p b : Word) : Word := withAddr p (p.truncate 56 - b.truncate 56)

/-- The condition of PCHK (R126). -/
def ptrCheck (p : Word) (fmt : BitVec 5) : Bool :=
  let unit := match fmt.toNat with
    | 2 | 4 | 5 => 2
    | 3 | 6 => 4
    | _ => 1
  p.extractLsb' 59 5 == fmt && decide (fmt.toNat ≤ 9) && decide (low p 56 % unit = 0)

/-! ## Meanings -/

/-- ADD: a + b (R121). -/
def execAdd (d a b : BitVec 6) (s : State) : Host.Outcome State Fault Refusal :=
  alu3 (fun a b => a + b) d a b s

/-- ADD with an immediate (R121). -/
def execAddI (d a : BitVec 6) (imm : BitVec 32) (s : State) : Host.Outcome State Fault Refusal :=
  aluImm (fun a b => a + b) d a (sx32 imm) s

/-- SUB: a - b (R121). -/
def execSub (d a b : BitVec 6) (s : State) : Host.Outcome State Fault Refusal :=
  alu3 (fun a b => a - b) d a b s

/-- SUB with an immediate (R121). -/
def execSubI (d a : BitVec 6) (imm : BitVec 32) (s : State) : Host.Outcome State Fault Refusal :=
  aluImm (fun a b => a - b) d a (sx32 imm) s

/-- MUL: low 64 bits of a × b (R121). -/
def execMul (d a b : BitVec 6) (s : State) : Host.Outcome State Fault Refusal :=
  alu3 (fun a b => a * b) d a b s

/-- MUL with an immediate (R121). -/
def execMulI (d a : BitVec 6) (imm : BitVec 32) (s : State) : Host.Outcome State Fault Refusal :=
  aluImm (fun a b => a * b) d a (sx32 imm) s

/-- MULH: high 64 bits of a × b (R121). -/
def execMulh (d a b : BitVec 6) (sg : Bool) (s : State) : Host.Outcome State Fault Refusal :=
  alu3 (mulHigh sg) d a b s

/-- MULH with an immediate (R121). -/
def execMulhI (d a : BitVec 6) (sg : Bool) (imm : BitVec 32) (s : State) : Host.Outcome State Fault Refusal :=
  aluImm (mulHigh sg) d a (sx32 imm) s

/-- DIV (R122). -/
def execDiv (d a b : BitVec 6) (sg : Bool) (s : State) : Host.Outcome State Fault Refusal :=
  endDiv d [d, a, b] (quotient sg (s.curStrand.rg a) (s.curStrand.rg b)) (s.curStrand.rg a) (s.curStrand.rg b) s

/-- DIV with an immediate (R122). -/
def execDivI (d a : BitVec 6) (sg : Bool) (imm : BitVec 32) (s : State) : Host.Outcome State Fault Refusal :=
  endDiv d [d, a] (quotient sg (s.curStrand.rg a) (sx32 imm)) (s.curStrand.rg a) (sx32 imm) s

/-- REM (R122). -/
def execRem (d a b : BitVec 6) (sg : Bool) (s : State) : Host.Outcome State Fault Refusal :=
  endDiv d [d, a, b] (remainder sg (s.curStrand.rg a) (s.curStrand.rg b)) (s.curStrand.rg a) (s.curStrand.rg b) s

/-- REM with an immediate (R122). -/
def execRemI (d a : BitVec 6) (sg : Bool) (imm : BitVec 32) (s : State) : Host.Outcome State Fault Refusal :=
  endDiv d [d, a] (remainder sg (s.curStrand.rg a) (sx32 imm)) (s.curStrand.rg a) (sx32 imm) s

/-- AND: a AND b (R121). -/
def execAnd (d a b : BitVec 6) (s : State) : Host.Outcome State Fault Refusal :=
  alu3 (fun a b => a &&& b) d a b s

/-- AND with an immediate (R121). -/
def execAndI (d a : BitVec 6) (imm : BitVec 32) (s : State) : Host.Outcome State Fault Refusal :=
  aluImm (fun a b => a &&& b) d a (zx32 imm) s

/-- OR: a OR b (R121). -/
def execOr (d a b : BitVec 6) (s : State) : Host.Outcome State Fault Refusal :=
  alu3 (fun a b => a ||| b) d a b s

/-- OR with an immediate (R121). -/
def execOrI (d a : BitVec 6) (imm : BitVec 32) (s : State) : Host.Outcome State Fault Refusal :=
  aluImm (fun a b => a ||| b) d a (zx32 imm) s

/-- XOR: a XOR b (R121). -/
def execXor (d a b : BitVec 6) (s : State) : Host.Outcome State Fault Refusal :=
  alu3 (fun a b => a ^^^ b) d a b s

/-- XOR with an immediate (R121). -/
def execXorI (d a : BitVec 6) (imm : BitVec 32) (s : State) : Host.Outcome State Fault Refusal :=
  aluImm (fun a b => a ^^^ b) d a (zx32 imm) s

/-- ANDN: a AND NOT b (R121). -/
def execAndn (d a b : BitVec 6) (s : State) : Host.Outcome State Fault Refusal :=
  alu3 (fun a b => a &&& ~~~b) d a b s

/-- ANDN with an immediate (R121). -/
def execAndnI (d a : BitVec 6) (imm : BitVec 32) (s : State) : Host.Outcome State Fault Refusal :=
  aluImm (fun a b => a &&& ~~~b) d a (zx32 imm) s

/-- SHL: a shifted left by b[5:0] (R121). -/
def execShl (d a b : BitVec 6) (s : State) : Host.Outcome State Fault Refusal :=
  alu3 (fun a b => a <<< low b 6) d a b s

/-- SHL with an immediate (R121). -/
def execShlI (d a : BitVec 6) (imm : BitVec 32) (s : State) : Host.Outcome State Fault Refusal :=
  aluImm (fun a b => a <<< low b 6) d a (sx32 imm) s

/-- SHR: a shifted right by b[5:0] (R121). -/
def execShr (d a b : BitVec 6) (s : State) : Host.Outcome State Fault Refusal :=
  alu3 (fun a b => a >>> low b 6) d a b s

/-- SHR with an immediate (R121). -/
def execShrI (d a : BitVec 6) (imm : BitVec 32) (s : State) : Host.Outcome State Fault Refusal :=
  aluImm (fun a b => a >>> low b 6) d a (sx32 imm) s

/-- SAR: a shifted right by b[5:0], sign fill (R121). -/
def execSar (d a b : BitVec 6) (s : State) : Host.Outcome State Fault Refusal :=
  alu3 (fun a b => a.sshiftRight (low b 6)) d a b s

/-- SAR with an immediate (R121). -/
def execSarI (d a : BitVec 6) (imm : BitVec 32) (s : State) : Host.Outcome State Fault Refusal :=
  aluImm (fun a b => a.sshiftRight (low b 6)) d a (sx32 imm) s

/-- ROT: a rotated left by b[5:0] (R121). -/
def execRot (d a b : BitVec 6) (s : State) : Host.Outcome State Fault Refusal :=
  alu3 (fun a b => rotl a (low b 6)) d a b s

/-- ROT with an immediate (R121). -/
def execRotI (d a : BitVec 6) (imm : BitVec 32) (s : State) : Host.Outcome State Fault Refusal :=
  aluImm (fun a b => rotl a (low b 6)) d a (sx32 imm) s

/-- MIN: smaller of a and b (R121). -/
def execMin (d a b : BitVec 6) (sg : Bool) (s : State) : Host.Outcome State Fault Refusal :=
  alu3 (minW sg) d a b s

/-- MIN with an immediate (R121). -/
def execMinI (d a : BitVec 6) (sg : Bool) (imm : BitVec 32) (s : State) : Host.Outcome State Fault Refusal :=
  aluImm (minW sg) d a (sx32 imm) s

/-- MAX: larger of a and b (R121). -/
def execMax (d a b : BitVec 6) (sg : Bool) (s : State) : Host.Outcome State Fault Refusal :=
  alu3 (maxW sg) d a b s

/-- MAX with an immediate (R121). -/
def execMaxI (d a : BitVec 6) (sg : Bool) (imm : BitVec 32) (s : State) : Host.Outcome State Fault Refusal :=
  aluImm (maxW sg) d a (sx32 imm) s

/-- CMP (R127). -/
def execCmp (d : BitVec 3) (a b : BitVec 6) (cond : Cond) (s : State) : Host.Outcome State Fault Refusal :=
  test2 [a, b] d (holds cond (s.curStrand.rg a) (s.curStrand.rg b)) s

/-- CMP with an immediate (R127). -/
def execCmpI (d : BitVec 3) (a : BitVec 6) (cond : Cond) (imm : BitVec 32) (s : State) : Host.Outcome State Fault Refusal :=
  test2 [a] d (holds cond (s.curStrand.rg a) (sx32 imm)) s

/-- SEL (R128). -/
def execSel (d a b : BitVec 6) (neg : Bool) (k : BitVec 3) (s : State) : Host.Outcome State Fault Refusal :=
  alu3 (fun a b => if s.curStrand.rp k != neg then a else b) d a b s

/-- SEL with an immediate (R128). -/
def execSelI (d a : BitVec 6) (neg : Bool) (k : BitVec 3) (imm : BitVec 32) (s : State) : Host.Outcome State Fault Refusal :=
  aluImm (fun a b => if s.curStrand.rp k != neg then a else b) d a (sx32 imm) s

/-- PADD (R125). -/
def execPadd (d a b : BitVec 6) (s : State) : Host.Outcome State Fault Refusal :=
  alu3 ptrAdd d a b s

/-- PADD with an immediate (R125). -/
def execPaddI (d a : BitVec 6) (imm : BitVec 32) (s : State) : Host.Outcome State Fault Refusal :=
  aluImm ptrAdd d a (sx32 imm) s

/-- PSUB (R125). -/
def execPsub (d a b : BitVec 6) (s : State) : Host.Outcome State Fault Refusal :=
  alu3 ptrSub d a b s

/-- PSUB with an immediate (R125). -/
def execPsubI (d a : BitVec 6) (imm : BitVec 32) (s : State) : Host.Outcome State Fault Refusal :=
  aluImm ptrSub d a (sx32 imm) s

/-- CLZ (R124). -/
def execClz (d a : BitVec 6) (s : State) : Host.Outcome State Fault Refusal :=
  alu1 leadingZeros d a s

/-- POPC (R124). -/
def execPopc (d a : BitVec 6) (s : State) : Host.Outcome State Fault Refusal :=
  alu1 ones d a s

/-- MOV (R124). -/
def execMov (d a : BitVec 6) (s : State) : Host.Outcome State Fault Refusal :=
  alu1 (fun a => a) d a s

/-- MOVI (R124). -/
def execMovi (d : BitVec 6) (imm : BitVec 32) (s : State) : Host.Outcome State Fault Refusal :=
  issueStrand s [d] (s.curStrand.wg d (sx32 imm))

/-- MOVHI (R124). -/
def execMovhi (d a : BitVec 6) (imm : BitVec 32) (s : State) : Host.Outcome State Fault Refusal :=
  alu1 (fun a => imm ++ a.extractLsb' 0 32) d a s

/-- EXTB (R124). -/
def execExtb (d a pos len : BitVec 6) (s : State) : Host.Outcome State Fault Refusal :=
  alu1 (fun a => extract a pos.toNat len.toNat) d a s

/-- INSB (R124); g[d] is a source too. -/
def execInsb (d a pos len : BitVec 6) (s : State) : Host.Outcome State Fault Refusal :=
  alu1 (fun a => insertBits (s.curStrand.rg d) a pos.toNat len.toNat) d a s

/-- SEXT (R124). -/
def execSext (d a n : BitVec 6) (s : State) : Host.Outcome State Fault Refusal :=
  alu1 (fun a => signFrom a n.toNat) d a s

/-- ZEXT (R124). -/
def execZext (d a n : BitVec 6) (s : State) : Host.Outcome State Fault Refusal :=
  alu1 (fun a => zeroFrom a n.toNat) d a s

/-- PFMT (R126). -/
def execPfmt (d a : BitVec 6) (fmt : BitVec 5) (blk : BitVec 3) (s : State) : Host.Outcome State Fault Refusal :=
  alu1 (fun a => fmt ++ blk ++ a.extractLsb' 0 56) d a s

/-- PMETA (R126). -/
def execPmeta (d a : BitVec 6) (s : State) : Host.Outcome State Fault Refusal :=
  alu1 (fun a => a >>> 56) d a s

/-- PCHK (R126). -/
def execPchk (d : BitVec 3) (a : BitVec 6) (fmt : BitVec 5) (s : State) : Host.Outcome State Fault Refusal :=
  test2 [a] d (ptrCheck (s.curStrand.rg a) fmt) s

/-- PAND (R129). -/
def execPand (d a b : BitVec 3) (s : State) : Host.Outcome State Fault Refusal :=
  test2 [] d (s.curStrand.rp a && s.curStrand.rp b) s

/-- POR (R129). -/
def execPor (d a b : BitVec 3) (s : State) : Host.Outcome State Fault Refusal :=
  test2 [] d (s.curStrand.rp a || s.curStrand.rp b) s

/-- PXOR (R129). -/
def execPxor (d a b : BitVec 3) (s : State) : Host.Outcome State Fault Refusal :=
  test2 [] d (s.curStrand.rp a != s.curStrand.rp b) s

/-- PNOT (R129). -/
def execPnot (d a : BitVec 3) (s : State) : Host.Outcome State Fault Refusal :=
  test2 [] d (!s.curStrand.rp a) s

/-- ADD.W (R123). -/
def execAddW (d a b : BitVec 6) (s : State) : Host.Outcome State Fault Refusal :=
  alu3 (fun a b => wide32 (a.extractLsb' 0 32 + b.extractLsb' 0 32)) d a b s

/-- ADD.W with an immediate (R123). -/
def execAddWI (d a : BitVec 6) (imm : BitVec 32) (s : State) : Host.Outcome State Fault Refusal :=
  aluImm (fun a b => wide32 (a.extractLsb' 0 32 + b.extractLsb' 0 32)) d a (sx32 imm) s

/-- SUB.W (R123). -/
def execSubW (d a b : BitVec 6) (s : State) : Host.Outcome State Fault Refusal :=
  alu3 (fun a b => wide32 (a.extractLsb' 0 32 - b.extractLsb' 0 32)) d a b s

/-- MUL.W (R123). -/
def execMulW (d a b : BitVec 6) (s : State) : Host.Outcome State Fault Refusal :=
  alu3 (fun a b => wide32 (a.extractLsb' 0 32 * b.extractLsb' 0 32)) d a b s

/-- MUL.W with an immediate (R123). -/
def execMulWI (d a : BitVec 6) (imm : BitVec 32) (s : State) : Host.Outcome State Fault Refusal :=
  aluImm (fun a b => wide32 (a.extractLsb' 0 32 * b.extractLsb' 0 32)) d a (sx32 imm) s

/-- SHL.W (R123). -/
def execShlW (d a b : BitVec 6) (s : State) : Host.Outcome State Fault Refusal :=
  alu3 (fun a b => wide32 ((a.extractLsb' 0 32) <<< low b 5)) d a b s

/-- SHR.W (R123). -/
def execShrW (d a b : BitVec 6) (s : State) : Host.Outcome State Fault Refusal :=
  alu3 (fun a b => wide32 ((a.extractLsb' 0 32) >>> low b 5)) d a b s

/-- SAR.W (R123). -/
def execSarW (d a b : BitVec 6) (s : State) : Host.Outcome State Fault Refusal :=
  alu3 (fun a b => wide32 ((a.extractLsb' 0 32).sshiftRight (low b 5))) d a b s

end Sys2Proof.Machine
end

