-- ==== Sys2Proof/Machine/Translate.lean ====
section
/-!
DEFINITION. Page tables, TLBs, the walker, page requests and the fault buffer (10_translation_and_traps.md R312 to R331): the
translation that every access to memory makes, for a strand (R323 to R325) and for a fabric element (R326 to R328).
-/
namespace Sys2Proof.Machine

/-! ## Page-table entries (R312 to R314) -/

/-- V of an entry. -/
def pteV (e : Word) : Bool := e.getLsbD 0
/-- L of an entry: 1 for a leaf. -/
def pteL (e : Word) : Bool := e.getLsbD 1
/-- W of a leaf. -/
def pteW (e : Word) : Bool := e.getLsbD 2
/-- D of a leaf. -/
def pteD (e : Word) : Bool := e.getLsbD 4
/-- FORM of a leaf. -/
def pteForm (e : Word) : Nat := field e 6 2
/-- PO of a leaf. -/
def ptePO (e : Word) : Bool := e.getLsbD 8
/-- Bits [55:14] of an entry, in place. -/
def ptePa (e : Word) : Nat := field e 14 42 * 16384

/-- log2 of the leaf size of a level (Table 10.1). -/
def leafBits (level : Nat) : Nat := if level = 1 then 36 else if level = 2 then 25 else 14

/-- Index of a level in a virtual address (Table 10.1). -/
def walkIndex (va : BitVec 56) (level : Nat) : Nat :=
  if level = 0 then natBits va.toNat 47 9 else natBits va.toNat (leafBits level) 11

/-- The module offset of a physical address, in granules of 256 bytes (R291). -/
def granuleOf (pa : Nat) : Nat := natBits pa 8 40

/-- The home cluster of a stack address (R291). -/
def homeCluster (pa : Nat) : Nat := granuleOf pa % 2304

/-- The stack of a stack address (R291). -/
def stackOf (pa : Nat) : Nat := granuleOf pa % 40

/-- The byte address of a stack address within its stack (R291). -/
def stackByte (pa : Nat) : Nat := granuleOf pa / 40 * 256 + pa % 256

/-- An extent stays within stack memory of its module (R291). -/
def inStack (pa size : Nat) : Bool := decide (pa % 2 ^ 48 + size ≤ 0x50000000000)

/-- Whether a valid entry is malformed (R314). `moved` is the controller's record of the page, if it moved it. -/
def pteMalformed (level : Nat) (e : Word) (moved : Option Word) : Bool :=
  let leaf := pteL e
  let form := pteForm e
  field e 56 4 != 0 || field e 9 5 != 0
    || (leaf && level == 0) || (!leaf && level == 3)
    || (!leaf && field e 2 7 != 0)
    || (leaf && level == 2 && field e 14 11 != 0) || (leaf && level == 1 && field e 14 22 != 0)
    || (leaf && form == 3)
    || (!leaf && !inStack (ptePa e) 16384)
    || (leaf && form == 0 && !inStack (ptePa e) (2 ^ leafBits level))
    || (leaf && (form == 1 || form == 2) && moved != some e)

/-! ## Walking (R317, R318) -/

/-- Where a physical address leads: this module, another module that the switches reach, one that they reject, or none in the
domain (R145, R239, R291). -/
inductive Where where
  | ok | stale | absent
deriving DecidableEq, Repr

/-- Where a physical address leads. -/
def State.reach (s : State) (pa : Nat) : Where :=
  let m := natBits pa 48 8
  if m = s.moduleNumber.toNat then .ok
  else if !s.feature 7 || !s.domain.contains m then .absent
  else if s.unreachable.contains m then .stale
  else .ok

/-- Whether some bytes of memory hold an uncorrectable error (R150). -/
def State.anyUncorr (s : State) (pa n : Nat) : Bool := s.uncorr.any fun a => decide (pa ≤ a ∧ a < pa + n)

/-- Bursts over some bytes, of 256 bytes each (Table 9.1): the errors that ECC corrects in line count at their stack, up to 255, and are gone
(R385) (LOG 111 DESIGN CHOICE). -/
def State.burst (s : State) (pas : List Nat) : State :=
  let hit := s.correctable.filter fun a => pas.any fun p => p / 256 == a / 256
  { s with
    correctable := s.correctable.filter fun a => !hit.contains a
    stackTransients := hit.foldl (fun (t : Table Nat) a => tabSet 0 t (stackOf a) (min (tabGet 0 t (stackOf a) + 1) 255)) s.stackTransients }

/-- How a walk ends. -/
inductive Walked where
  /-- a resident leaf: where it lies, its value and the log2 of its size -/
  | leaf (ea : Nat) (e : Word) (z : Nat)
  /-- a leaf that the victim controller moved -/
  | away
  | invalid
  | fail (c : Cause)
deriving DecidableEq, Repr

/-- The cause that a place gives, if it gives one. -/
def Where.cause : Where → Option Cause
  | .ok => none
  | .stale => some .topoStale
  | .absent => some .moduleAbsent

/-- A walk from a table on; `fuel` levels are left. -/
def walkFrom (s : State) (moved : Option Word) (va : BitVec 56) (table : Nat) : Nat → Walked
  | 0 => .invalid
  | fuel + 1 =>
    let level := 3 - fuel
    let ea := table + 8 * walkIndex va level
    match (s.reach ea).cause with
    | some c => .fail c
    | none =>
      if s.anyUncorr ea 8 then .fail .memUncorrectable
      else
        let e := readWord s.mem ea
        if !pteV e then .invalid
        else if pteMalformed level e moved then .fail .pteMalformed
        else if !pteL e then walkFrom s moved va (ptePa e) fuel
        else if pteForm e = 0 then .leaf ea e (leafBits level) else .away

/-- The entries that a walk reads. -/
def walkReads (s : State) (moved : Option Word) (va : BitVec 56) (table : Nat) : Nat → List Nat
  | 0 => []
  | fuel + 1 =>
    let level := 3 - fuel
    let ea := table + 8 * walkIndex va level
    if (s.reach ea).cause.isSome then []
    else
      let e := readWord s.mem ea
      if s.anyUncorr ea 8 || !pteV e || pteMalformed level e moved || pteL e then [ea] else ea :: walkReads s moved va (ptePa e) fuel

/-- The page of an address: VA / 16 KiB. -/
def pageOf (va : BitVec 56) : Nat := va.toNat / 16384

/-- A page stands between its removal and its return (R310): no access is performed there. -/
def Context.evictingPage (c : Context) (page : Nat) : Bool := c.evicting.any fun e => e.page == page

/-- The entry that the victim controller has written for a page, if it holds the page. -/
def Context.movedEntry (c : Context) (va : BitVec 56) : Option Word :=
  (tabGet none (c.moved.map fun x => (x.1, some x.2)) (pageOf va)).map MovedPage.entry

/-- The walk of an address in a context (R317). -/
def State.walk (s : State) (ctx : BitVec 16) (va : BitVec 56) : Walked :=
  match s.context ctx with
  | none => .invalid
  | some c => if c.evictingPage (pageOf va) then .away else walkFrom s (c.movedEntry va) va c.root.toNat 4

/-- The bursts that the walk of an address makes. -/
def State.walkBurst (s : State) (ctx : BitVec 16) (va : BitVec 56) : State :=
  match s.context ctx with
  | none => s
  | some c => if c.evictingPage (pageOf va) then s else s.burst (walkReads s (c.movedEntry va) va c.root.toNat 4)

/-- The permission an access lacks, if any (R315). -/
def deny (w po write priv : Bool) : Bool := (po && !priv) || (write && !w)

/-! ## TLBs (R316) -/

/-- An entry translates an address of a context and generation. -/
def TlbEntry.hits (e : TlbEntry) (ctx gen : BitVec 16) (va : BitVec 56) : Bool :=
  e.ctx == ctx && e.gen == gen && e.vpage == va.toNat / 2 ^ e.z

/-- An entry moved to the front, as the most recently used one. -/
def tlbTouch (l : List TlbEntry) (e : TlbEntry) : List TlbEntry := e :: l.erase e

/-- A fully associative buffer of `n` entries with an entry put in. -/
def tlbInsert (n : Nat) (l : List TlbEntry) (e : TlbEntry) : List TlbEntry :=
  (e :: l.filter fun x => !(x.ctx == e.ctx && x.vpage == e.vpage && x.z == e.z)).take n

/-- An L2-TLB with an entry put in: the least recently used entry of a full set leaves. -/
def l2Insert (l : List TlbEntry) (e : TlbEntry) : List TlbEntry :=
  let rest := l.filter fun x => !(x.ctx == e.ctx && x.vpage == e.vpage && x.z == e.z)
  let same := rest.filter fun x => x.vpage % 128 == e.vpage % 128
  e :: (if same.length < 8 then rest
        else match same.getLast? with
          | some y => rest.erase y
          | none => rest)

/-- The state with a translation put into a tile's D-TLB. -/
def State.fillD (s : State) (t : Nat) (e : TlbEntry) : State :=
  let x := s.tile t
  s.setTile t { x with dtlb := tlbInsert 64 x.dtlb e }

/-- The state with a translation put into a cluster's L2-TLB. -/
def State.fillL2 (s : State) (c : Nat) (e : TlbEntry) : State :=
  let x := s.cluster c
  s.setCluster c { x with l2tlb := l2Insert x.l2tlb e }

/-- Generation of a context; 0 for none. -/
def State.genOf (s : State) (ctx : BitVec 16) : BitVec 16 :=
  match s.context ctx with
  | some c => c.gen
  | none => 0

/-- How a translation ends. -/
inductive Trans where
  | ok (pa : Nat)
  /-- the page is with the victim controller, which recalls it (R309) -/
  | away
  | invalid
  | fail (c : Cause)
deriving DecidableEq, Repr

/-- The physical address that an entry gives, once its module is in reach. -/
def State.pick (s : State) (e : TlbEntry) (va : BitVec 56) : Trans :=
  let pa := e.pa.toNat + va.toNat % 2 ^ e.z
  match (s.reach pa).cause with
  | some c => .fail c
  | none => .ok pa

/-- Install (R318): walk, check the permission and the module, set A, and D for a store, at the entry's home, and fill both TLBs. A walk that
faults leaves the entry and the TLBs as they were (R319). `d` says whether the tile's D-TLB takes the translation. -/
def State.install (start : State) (t : Nat) (d : Bool) (ctx : BitVec 16) (va : BitVec 56) (write priv : Bool) : State × Trans :=
  let s := start.walkBurst ctx va
  match s.walk ctx va with
  | .invalid => (s, .invalid)
  | .away => (s, .away)
  | .fail c => (s, .fail c)
  | .leaf ea e z =>
    if deny (pteW e) (ptePO e) write priv then (s, .fail .pageProtect)
    else
      let e1 := setBit (if write then setBit e 4 true else e) 3 true
      let x : TlbEntry := ⟨ctx, s.genOf ctx, z, va.toNat / 2 ^ z, BitVec.ofNat 56 (ptePa e), pteW e, ptePO e, pteD e1⟩
      match s.pick x va with
      | .ok pa =>
        let s1 := if e1 = e then s else { s with mem := writeNat s.mem ea 8 e1.toNat }
        let s2 := s1.fillL2 (clusterOf t) x
        (if d then s2.fillD t x else s2, .ok pa)
      | r => (s, r)

/-- A TLB entry found: its permissions are checked, and a store that finds D = 0 installs again (R318). -/
def State.useEntry (s : State) (t : Nat) (d : Bool) (e : TlbEntry) (va : BitVec 56) (write priv : Bool) : State × Trans :=
  if deny e.w e.po write priv then (s, .fail .pageProtect)
  else if write && !e.d then s.install t d e.ctx va write priv
  else (s, s.pick e va)

/-- The translation of an address by a tile: D-TLB (when `d`), then L2-TLB, then a walk (R316). -/
def State.translate (s : State) (t : Nat) (d : Bool) (ctx : BitVec 16) (va : BitVec 56) (write priv : Bool) : State × Trans :=
  let gen := s.genOf ctx
  let x := s.tile t
  match if d then x.dtlb.find? fun e => e.hits ctx gen va else none with
  | some e => (s.setTile t { x with dtlb := tlbTouch x.dtlb e }).useEntry t d e va write priv
  | none =>
    let c := s.cluster (clusterOf t)
    match c.l2tlb.find? fun e => e.hits ctx gen va with
    | some e =>
      let s1 := s.setCluster (clusterOf t) { c with l2tlb := tlbTouch c.l2tlb e }
      (if d then s1.fillD t e else s1).useEntry t d e va write priv
    | none => s.install t d ctx va write priv

/-! ## Page requests (R323, R326, R329) -/

/-- The request of a context and page that is outstanding in a cluster. -/
def Cluster.outstanding (c : Cluster) (ctx : BitVec 16) (page : Nat) : Option FaultRec :=
  (c.records ++ c.waiting).find? fun r => r.ctx == ctx && pageOf r.va == page

/-- A page request: it joins an outstanding one of the same context and page, or takes the cluster's next TAG and enters the
fault buffer, or waits for room (R329). The result is its mark. -/
def State.request (s : State) (t kind : Nat) (ctx : BitVec 16) (va : BitVec 56) (write : Bool) (row col elem : Nat) :
    State × Mark :=
  let cn := clusterOf t
  let c := s.cluster cn
  match c.outstanding ctx (pageOf va) with
  | some r => (s, ⟨cn, r.tag, pageOf va, .waiting, false⟩)
  | none =>
    let r : FaultRec := ⟨ctx, s.genOf ctx, kind, write, c.nextTag, va, pcolOf t, prowOf t, row, col, elem, 0, true⟩
    let c1 := { c with nextTag := (c.nextTag + 1) % 2 ^ 20 }
    let c2 := if c.records.length < 64 then { c1 with records := c.records ++ [r] } else { c1 with waiting := c.waiting ++ [r] }
    ((s.setCluster cn c2).push (.faultBufferFlush cn), ⟨cn, c.nextTag, pageOf va, .waiting, decide (64 ≤ c.records.length)⟩)

/-- Whether a recall of a page is on the agenda. -/
def State.recalling (s : State) (ctx : BitVec 16) (va : BitVec 56) : Bool := s.agenda.contains (.victimRecall ctx va)

/-- A recall of a moved page asked for, once (R309). -/
def State.askRecall (s : State) (ctx : BitVec 16) (va : BitVec 56) : State :=
  let p := BitVec.ofNat 56 (pageOf va * 16384)
  if s.recalling ctx p then s else s.push (.victimRecall ctx p)

/-! ## Accesses of a strand (R323, R324) -/

/-- The state with a strand of a tile replaced. -/
def State.setStrandOf (s : State) (t : Nat) (k : Fin 4) (x : Strand) : State := s.setTile t ((s.tile t).setStrand k x)

/-- A strand of a tile. -/
def State.strandOf (s : State) (t : Nat) (k : Fin 4) : Strand := (s.tile t).strand k

/-- A strand without its mark for a page. -/
def Strand.clearMark (x : Strand) (page : Nat) : Strand := { x with marks := x.marks.filter fun m => m.page != page }

/-- How the translation of a strand's access, or of a word of its spill engine, ends. -/
inductive StrandTrans where
  | ok (pa : Nat)
  /-- it waits for a page answer -/
  | wait
  /-- it waits for a recall (R309) -/
  | recall
  | fault (c : Cause)
deriving DecidableEq, Repr

/-- A request of a strand waits for room in its cluster's fault buffer (R329). -/
def State.unbuffered (s : State) (m : Mark) : Bool := m.owing && (s.cluster m.cluster).waiting.any fun r => r.tag == m.tag

/-- A strand with its mark for a page put in place of any other for that page. -/
def Strand.setMark (x : Strand) (m : Mark) : Strand := { x with marks := x.marks.filter (fun n => n.page != m.page) ++ [m] }

/-- A physical address of another module. -/
def State.far (s : State) (pa : Nat) : Bool := natBits pa 48 8 != s.moduleNumber.toNat

/-- A translation of a strand that walks: an invalid entry makes a request of a KIND and takes PAGE_FAULT, or waits while the request
waits for room in the fault buffer; a moved page is recalled (R309, R323, R329). An access to another module that a negative
acknowledgement has answered takes TOPO_STALE, and has no effect (R145, R429; LOG 110 DESIGN CHOICE). Privilege is that of the strand at
the walk, for a word of its spill engine too (LOG 86 DESIGN CHOICE). -/
def State.strandWalk (s : State) (t : Nat) (k : Fin 4) (kind : Nat) (va : BitVec 56) (write : Bool) : State × StrandTrans :=
  let ctx := (s.regionOf t).info.ctx
  let z := s.strandOf t k
  match s.translate t true ctx va write z.priv with
  | (s1, .ok pa) => if z.nacked && s.far pa then (s.setStrandOf t k { z with nacked := false }, .fault .topoStale) else (s1, .ok pa)
  | (s1, .away) => (s1.askRecall ctx va, .recall)
  | (s1, .fail c) => (s1, .fault c)
  | (s1, .invalid) =>
    let x := s1.tile t
    let (s2, m) := s1.request t kind ctx va write x.row x.col k.val
    (s2.setStrandOf t k ((s2.strandOf t k).setMark m), if m.owing then .wait else .fault .pageFault)

/-- The translation of a strand's access: its mark for the page is obeyed first (R324). An access whose request has entered the fault
buffer after a wait takes its PAGE_FAULT then (R329). -/
def State.strandTrans (s : State) (t : Nat) (k : Fin 4) (kind : Nat) (va : BitVec 56) (write : Bool) : State × StrandTrans :=
  let x := s.strandOf t k
  match x.marks.find? fun m => m.page == pageOf va with
  | none => s.strandWalk t k kind va write
  | some m =>
    let s1 := s.setStrandOf t k (x.clearMark (pageOf va))
    if s.unbuffered m then (s, .wait)
    else if m.owing then (s.setStrandOf t k (x.setMark { m with owing := false }), .fault .pageFault)
    else match m.answer with
    | .waiting => (s, .wait)
    | .denied => (s1, .fault .pageDenied)
    | .mapped => s1.strandWalk t k kind va write

/-- The translation of an access of the issuing strand, in `M`. -/
def strandPa (s : State) (va : BitVec 56) (write : Bool) : M (State × Nat) :=
  match s.strandTrans s.cur.tile s.cur.strand 1 va write with
  | (s1, .ok pa) => .ok (s1, pa)
  | (s1, .wait) => waitM (s1.setCur { s1.curStrand with hold := .page (pageOf va) })
  | (s1, .recall) => .error (.stall s1)
  | (s1, .fault c) => trapM s1 c (va.zeroExtend 64)

/-- The translations of several byte addresses of a strand, in order. -/
def strandPas (write : Bool) : State → List (BitVec 56) → M (State × List Nat)
  | s, [] => .ok (s, [])
  | s, va :: vs => do
    let (s1, pa) ← strandPa s va write
    let (s2, pas) ← strandPas write s1 vs
    return (s2, pa :: pas)

/-- `n` byte addresses from an address up, modulo 2^56. -/
def vaRange (va : BitVec 56) (n : Nat) : List (BitVec 56) := (upFrom 0 n).map fun i => va + BitVec.ofNat 56 i

/-! ## Accesses of a fabric element (R326 to R328) -/

/-- How a fabric element's translation ends: an address, a hold until an answer or a recall, or a freeze that has been asked for. -/
inductive FabricTrans where
  | ok (pa : Nat)
  | hold (m : Option Mark)
  | frozen
deriving DecidableEq, Repr

/-- Cause of a fabric freeze for a failed translation or read (R327). -/
def fabricCause (c : Cause) : Cause := if c = .memUncorrectable then .stateUncorrectable else c

/-- How the translation of an element of the fabric ends, before anything follows from it. -/
inductive ElemTrans where
  | ok (pa : Nat)
  | hold (m : Option Mark)
  | fail (c : Cause)
deriving DecidableEq, Repr

/-- What follows from a translation for an element of the fabric at a tile in a context: a missing entry makes a request, and a moved
page is recalled (R309, R326). -/
def State.elementEnd (t : Nat) (ctx : BitVec 16) (kind : Nat) (va : BitVec 56) (write : Bool) (row col elem : Nat) :
    State × Trans → State × ElemTrans
  | (s1, .ok pa) => (s1, .ok pa)
  | (s1, .away) => (s1.askRecall ctx va, .hold none)
  | (s1, .fail c) => (s1, .fail (fabricCause c))
  | (s1, .invalid) =>
    let (s2, m) := s1.request t kind ctx va write row col elem
    (s2, .hold (some m))

/-- The translation of an element of the fabric at a tile in a context. A fabric element has no KSTATUS and accesses without privilege
(LOG 23 DEDUCED). -/
def State.elementPa (s : State) (t : Nat) (d : Bool) (ctx : BitVec 16) (kind : Nat) (va : BitVec 56) (write : Bool)
    (row col elem : Nat) : State × ElemTrans :=
  State.elementEnd t ctx kind va write row col elem (s.translate t d ctx va write false)

/-- The translation of a configuration-frame fetch for a tile: its I-TLB, then its cluster's L2-TLB, then a walk (R101, R316). -/
def State.frameTrans (s : State) (t : Nat) (ctx : BitVec 16) (va : BitVec 56) : State × Trans :=
  let x := s.tile t
  let gen := s.genOf ctx
  match x.itlb.find? fun e => e.hits ctx gen va with
  | some e => (s.setTile t { x with itlb := tlbTouch x.itlb e }).useEntry t false e va false false
  | none =>
    let (s1, r) := s.translate t false ctx va false false
    match (s1.cluster (clusterOf t)).l2tlb.find? fun e => e.hits ctx gen va with
    | some e => (s1.setTile t { s1.tile t with itlb := tlbInsert 8 (s1.tile t).itlb e }, r)
    | none => (s1, r)

/-- The translation of a fabric element of a region at a tile (R326, R327). `d`: through the tile's D-TLB, as the copy engine does
(R306, Table 10.4). An element whose translation names a module that the switches reject holds its token and translates again later:
R337 freezes a region for no other causes than R327's (LOG 87 DEDUCED). -/
def State.fabricPa (s : State) (t : Nat) (d : Bool) (h : BitVec 32) (kind : Nat) (va : BitVec 56) (write : Bool)
    (row col elem : Nat) : State × FabricTrans :=
  match s.elementPa t d (s.region h).info.ctx kind va write row col elem with
  | (s1, .ok pa) => (s1, .ok pa)
  | (s1, .hold m) => (s1, .hold m)
  | (s1, .fail .topoStale) => (s1, .hold none)
  | (s1, .fail c) => (s1.freezeRegion h (some c) none [], .frozen)

end Sys2Proof.Machine
end

