-- ==== Sys2Proof/Machine/Memory.lean ====
section
/-!
DEFINITION. Home memory, the tile's L1 and the scratchpad map (05_memory_queue_instructions.md R145 to R149,
09_memory_model.md R288 to R291). Physical addresses are byte numbers. The L2 and the stacks hold one value per byte (LOG 8 DEDUCED).
-/
namespace Sys2Proof.Machine

/-! ## Home memory -/

/-- Bytes written at their home; they hold no uncorrectable error any more (LOG 18 DESIGN CHOICE). -/
def State.homeWrite (s : State) (pa : Nat) (b : Byte) : State :=
  { s with mem := writeByte s.mem pa b, uncorr := s.uncorr.filter fun a => a != pa }

/-- One byte read at its home; none when it holds an uncorrectable error. -/
def State.homeRead (s : State) (pa : Nat) : Option Byte := if s.uncorr.contains pa then none else some (readByte s.mem pa)

/-- A burst from the home, and one of its bytes. -/
def State.homeFetch (s : State) (pa : Nat) : State × Option Byte := (s.burst [pa], s.homeRead pa)

/-! ## L1 (R289, R290) -/

/-- Byte `i` of a line. -/
def Line.byte (l : Line) (i : Nat) : Byte := l.data.extractLsb' (8 * i) 8

/-- A line with byte `i` replaced, and marked dirty or clean. -/
def Line.put (l : Line) (i : Nat) (b : Byte) (dirty : Bool) : Line where
  data := (l.data &&& ~~~(0xFF#256 <<< (8 * i))) ||| (b.zeroExtend 256 <<< (8 * i))
  dirty := if dirty then l.dirty ||| (1#32 <<< i) else l.dirty &&& ~~~(1#32 <<< i)

/-- The valid lines of a tile's L1 by line number, PA / 32; a line of zeros stands in the table like any other. -/
abbrev L1 := Table Line

/-- The valid line of an address, if there is one. -/
def l1Find (l : L1) (line : Nat) : Option Line := (l.find? fun e => e.1 == line).map (·.2)

/-- L1 with a line put in place. -/
def l1Put (l : L1) (line : Nat) (x : Line) : L1 := tabInsert (tabErase l line) line x

/-- Lines that the L1 banks of a tile hold (Table 3.11: a bank bit 0 is L1). -/
def Tile.l1Lines (t : Tile) : Nat := ((upFrom 0 12).filter fun n => !t.banks.getLsbD n).length * 2048

/-- The dirty bytes of a line written to their homes. -/
def State.writeDirty (s : State) (line : Nat) (x : Line) : State :=
  (upFrom 0 32).foldl (fun s i => if x.dirty.getLsbD i then s.homeWrite (32 * line + i) (x.byte i) else s) s

/-- CLEAN of a line in a tile's L1. -/
def State.cleanLine (s : State) (t line : Nat) : State :=
  let x := s.tile t
  match l1Find x.l1 line with
  | none => s
  | some l => (s.writeDirty line l).setTile t { x with l1 := l1Put x.l1 line { l with dirty := 0 } }

/-- INVAL of a line in a tile's L1. -/
def State.invalLine (s : State) (t line : Nat) : State :=
  let x := s.tile t
  match l1Find x.l1 line with
  | none => s
  | some l => (s.writeDirty line l).setTile t { x with l1 := tabErase x.l1 line }

/-- Every dirty byte of a tile's L1 written to its home. -/
def State.cleanL1 (s : State) (t : Nat) : State :=
  ((s.tile t).l1.map (·.1)).foldl (fun s line => s.cleanLine t line) s

/-- Every line of a tile's L1 written back and invalidated. -/
def State.invalL1 (s : State) (t : Nat) : State :=
  ((s.tile t).l1.map (·.1)).foldl (fun s line => s.invalLine t line) s

/-- A full L1 gives up one line, of the free choice of LOG 20 DESIGN CHOICE. -/
def State.evict (s : State) (t : Nat) : State :=
  let x := s.tile t
  if x.l1.length < x.l1Lines then s
  else s.invalLine t (nth (0, ⟨0, 0⟩) x.l1 (Config.l1Victim s.steps % x.l1.length)).1

/-- Whether an access allocates: the tile has L1 lines, and the line holds no uncorrectable byte. -/
def State.allocates (s : State) (t line : Nat) : Bool :=
  decide (0 < (s.tile t).l1Lines) && !s.anyUncorr (32 * line) 32

/-- A line brought into a tile's L1 when it is not there and can be (R289). -/
def State.fillLine (s : State) (t line : Nat) : State :=
  match l1Find (s.tile t).l1 line with
  | some _ => s
  | none =>
    if s.allocates t line then
      let s1 := (s.evict t).burst (upFrom (32 * line) 32)
      let x := s1.tile t
      s1.setTile t { x with l1 := l1Put x.l1 line ⟨BitVec.ofNat 256 (readNat s1.mem (32 * line) 32), 0⟩ }
    else s

/-- One byte read through a tile's L1 (R145); none for an uncorrectable error. -/
def State.readVia (s : State) (t pa : Nat) : State × Option Byte :=
  let s1 := s.fillLine t (pa / 32)
  match l1Find (s1.tile t).l1 (pa / 32) with
  | some l => (s1, some (l.byte (pa % 32)))
  | none => s1.homeFetch pa

/-- One byte written through a tile's L1: dirty in its line, or at the home when the line is not held. -/
def State.writeVia (s : State) (t pa : Nat) (b : Byte) : State :=
  let s1 := s.fillLine t (pa / 32)
  let x := s1.tile t
  match l1Find x.l1 (pa / 32) with
  | some l => s1.setTile t { x with l1 := l1Put x.l1 (pa / 32) (l.put (pa % 32) b true) }
  | none => s1.homeWrite pa b

/-- One byte written at the home with an order of cluster scope or wider: the line's other dirty bytes go with it, and a valid copy
stays, clean, with the new byte (R290). -/
def State.writeHome (s : State) (t pa : Nat) (b : Byte) : State :=
  let s1 := (s.cleanLine t (pa / 32)).homeWrite pa b
  let x := s1.tile t
  match l1Find x.l1 (pa / 32) with
  | some l => s1.setTile t { x with l1 := l1Put x.l1 (pa / 32) (l.put (pa % 32) b false) }
  | none => s1

/-- One byte read at the home with an order of cluster scope or wider: the line's dirty bytes go there first, and a valid copy is
replaced with the home's line (R290), or leaves L1 when the home's line holds an uncorrectable error (R150). -/
def State.readHome (s : State) (t pa : Nat) : State × Option Byte :=
  let s1 := s.cleanLine t (pa / 32)
  let x := s1.tile t
  match l1Find x.l1 (pa / 32) with
  | some _ =>
    let lines :=
      if s1.anyUncorr (pa / 32 * 32) 32 then tabErase x.l1 (pa / 32)
      else l1Put x.l1 (pa / 32) ⟨BitVec.ofNat 256 (readNat s1.mem (pa / 32 * 32) 32), 0⟩
    (s1.setTile t { x with l1 := lines }).homeFetch pa
  | none => s1.homeFetch pa

/-! ## Order (R149, R290) -/

/-- Cluster scope or wider. -/
def Scope.wide : Scope → Bool
  | .str => false
  | .til => false
  | .clu => true
  | .waf => true
  | .dom => true

/-- An access performed at the home: it carries an order at cluster scope or wider (R290). -/
def atHome (o : Ord) (sc : Scope) : Bool := o != .plain && Scope.wide sc

/-- Release(scope) of a tile (Table 5.3): at cluster scope or wider every dirty line goes to its home. Narrower scopes are met by
the model's program order (LOG 7 DEDUCED). -/
def State.releaseAt (s : State) (t : Nat) (sc : Scope) : State := if Scope.wide sc then s.cleanL1 t else s

/-- Acquire(scope) of a tile (Table 5.3): at cluster scope or wider every line is written back and invalidated. -/
def State.acquireAt (s : State) (t : Nat) (sc : Scope) : State := if Scope.wide sc then s.invalL1 t else s

/-- The release that an order asks for. -/
def State.releaseFor (s : State) (o : Ord) (sc : Scope) : State :=
  match o with
  | .plain | .acq => s
  | .rel | .ar => s.releaseAt s.cur.tile sc

/-- The acquire that an order asks for. -/
def State.acquireFor (s : State) (o : Ord) (sc : Scope) : State :=
  match o with
  | .plain | .rel => s
  | .acq | .ar => s.acquireAt s.cur.tile sc

/-! ## Several bytes of a strand's access -/

/-- Bytes read by the issuing strand, at the home or through L1, in `M`: an uncorrectable error traps (R150). -/
def readPas (home : Bool) (tval : Word) : State → List Nat → M (State × List Byte)
  | s, [] => .ok (s, [])
  | s, pa :: pas =>
    match if home then s.readHome s.cur.tile pa else s.readVia s.cur.tile pa with
    | (s1, none) => trapM s1 .memUncorrectable tval
    | (s1, some b) => do
      let (s2, bs) ← readPas home tval s1 pas
      return (s2, b :: bs)

/-- Bytes written by the issuing strand, at the home or through L1. -/
def writePas (home : Bool) : State → List Nat → List Byte → State
  | s, pa :: pas, b :: bs =>
    writePas home (if home then s.writeHome s.cur.tile pa b else s.writeVia s.cur.tile pa b) pas bs
  | s, _, _ => s

/-! ## Scratchpad (Table 5.1) -/

/-- A bank is assigned to scratchpad. -/
def Tile.isSpad (t : Tile) (off : Nat) : Bool := decide (off < 0xC0000) && t.banks.getLsbD (off / 0x10000)

/-- The landing slot that a scratchpad offset lies in, if one. -/
def slotOf (off : Nat) : Option Nat := if 0xC0000 ≤ off ∧ off < 0xC4000 then some ((off - 0xC0000) / 0x1000) else none

/-- A landing slot of a tile. -/
def Tile.slot (t : Tile) (n : Nat) : Slot := tabGet Slot.idle t.slots n

/-- A tile with a landing slot replaced. -/
def Tile.setSlot (t : Tile) (n : Nat) (x : Slot) : Tile := { t with slots := tabSet Slot.idle t.slots n x }

/-- The cause of a scratchpad access that is not allowed; `store` for STS and the .SPAD atomics. -/
def Tile.spadCause (t : Tile) (off : Nat) (store : Bool) : Option Cause :=
  if t.isSpad off then none
  else match slotOf off with
    | none => some .spadRange
    | some n => if store then some .spadRange else if (t.slot n).state = .full then none else some .slotState

/-- Bytes read by offset: scratchpad, or the payload of a landing slot. -/
def Tile.spadRead (t : Tile) (off n : Nat) : List Byte :=
  match slotOf off with
  | some k => readBytes (t.slot k).payload (off % 0x1000) n
  | none => readBytes t.spad off n

/-- Bytes written to the scratchpad. -/
def Tile.spadWrite (t : Tile) (off : Nat) (bs : List Byte) : Tile := { t with spad := writeBytes t.spad off bs }

end Sys2Proof.Machine
end

