-- ==== Sys2Proof/Machine/Mesh.lean ====
section
/-!
DEFINITION. The routers of the mesh (12_wafer_fabric.md R378, R383, R384, R389, R464): where a logical hop goes, and packets on their way
between routers. A router has the number of its physical tile.
-/
namespace Sys2Proof.Machine

/-! ## Where faceplates stand (R378) -/

/-- The edge tile whose router a memory faceplate joins. -/
def plateTile (m : Nat) : Nat :=
  let f := m / 5 * 6 + m % 5
  if f < 48 then 4 * f
  else if f < 96 then 4 * (f - 48) * 192 + 191
  else if f < 144 then 191 * 192 + 4 * (143 - f)
  else 4 * (191 - f) * 192

/-- The edge tile of host faceplate 5. -/
def hostTile : Nat := 20

/-! ## Paths (R383) -/

/-- A router that carries no traffic: router-bad or absent (R379). -/
def State.routerBad (s : State) (pcol prow : Nat) : Bool := decide (2 ≤ tabGet 0 s.defects (prow * 192 + pcol))

/-- Positions from `p` towards `q`, without `p`. -/
def towards (p q : Nat) : List Nat := if p ≤ q then upFrom (p + 1) (q - p) else (upFrom q (p - q)).reverse

/-- The way past a run of bad positions of lane `f`, from the position before it to the one after it: on the lower lane where that is free of
bad routers, else on the higher one (R383). -/
def sidestep (bad : Nat → Nat → Bool) (f before : Nat) (run : List Nat) (after : Nat) : Option (List (Nat × Nat)) :=
  let on (g : Nat) : List (Nat × Nat) := (before :: run ++ [after]).map fun x => (x, g)
  let clear (l : List (Nat × Nat)) : Bool := l.all fun x => !bad x.1 x.2
  if 0 < f ∧ clear (on (f - 1)) then some (on (f - 1)) else if f + 1 < 192 ∧ clear (on (f + 1)) then some (on (f + 1)) else none

/-- One straight part of a path, along lane `f` over some positions: a bad position at its end leaves no path (LOG 70 DEDUCED). `run` holds
the bad positions passed since `before`. -/
def legPath (bad : Nat → Nat → Bool) (f before : Nat) (run : List Nat) : List Nat → Option (List (Nat × Nat))
  | [] => if run.isEmpty then some [] else none
  | x :: r =>
    if bad x f then legPath bad f before (run ++ [x]) r
    else
      match (if run.isEmpty then some [] else sidestep bad f before run x), legPath bad f x [] r with
      | some l, some m => some (l ++ (x, f) :: m)
      | _, _ => none

/-- The routers of a logical hop after the one it leaves, up to the one it goes to: along the row of `a` to the column of `b`, then along that
column (R383). -/
def State.hopPath (s : State) (a b : Nat) : Option (List Nat) :=
  match legPath s.routerBad (prowOf a) (pcolOf a) [] (towards (pcolOf a) (pcolOf b)),
    legPath (fun y x => s.routerBad x y) (pcolOf b) (prowOf a) [] (towards (prowOf a) (prowOf b)) with
  | some l, some m => some (l.map (fun x => x.2 * 192 + x.1) ++ m.map fun x => x.1 * 192 + x.2)
  | _, _ => none

/-- The pass entries of a path: one for each router between its ends. -/
def passesOf (h : BitVec 32) (a b : Nat) : List Nat → List PassEntry
  | r :: n :: rest => ⟨r, h, a, b, n⟩ :: passesOf h a b (n :: rest)
  | _ => []

/-- The neighbouring pairs of tiles of a region, in both directions. -/
def neighbours (cols : Nat) (tiles : List Nat) : List (Nat × Nat) :=
  let at_ (n : Nat) : Nat := nth 0 tiles n
  (upFrom 0 tiles.length).flatMap fun n =>
    (if n % cols + 1 < cols then [(at_ n, at_ (n + 1)), (at_ (n + 1), at_ n)] else [])
      ++ if n + cols < tiles.length then [(at_ n, at_ (n + cols)), (at_ (n + cols), at_ n)] else []

/-- The pass entries that a region's binding gives the routers (R383). -/
def State.writePasses (s : State) (h : BitVec 32) (cols : Nat) (tiles : List Nat) : State :=
  { s with passEntries := s.passEntries ++ (neighbours cols tiles).flatMap fun e => passesOf h e.1 e.2 ((s.hopPath e.1 e.2).getD []) }

/-- Ports of a router: LOCAL 0, WEST 1, EAST 2, NORTH 3, SOUTH 4 (R389). The port of the neighbour that faces a port. -/
def facing (p : Nat) : Nat := if p = 1 then 2 else if p = 2 then 1 else if p = 3 then 4 else 3

/-- The output port of a router that leads to another one. -/
def dirOf (a b : Nat) : Nat :=
  if pcolOf a < pcolOf b then 2 else if pcolOf b < pcolOf a then 1 else if prowOf a < prowOf b then 4 else 3

/-- The routers of a logical hop of a region between two neighbouring tiles after the first one: those whose pass entries lead there, and
the last (R383). -/
def State.passPath (s : State) (h : BitVec 32) (a b : Nat) : List Nat :=
  ((s.passEntries.filter fun e => e.handle == h && e.source == a && e.dest == b).map (·.router)) ++ [b]

/-- The logical tiles that a packet passes from one to another: along the row of the first to the column of the other, then along that column
(R464). -/
def logicalHops (cols a b : Nat) : List Nat :=
  (towards (a % cols) (b % cols)).map (fun x => a / cols * cols + x) ++ (towards (a / cols) (b / cols)).map fun y => y * cols + b % cols

/-- The routers of some logical hops one after another. -/
def State.hopsFrom (s : State) (r : Region) : Nat → List Nat → List Nat
  | _, [] => []
  | a, b :: rest => s.passPath r.info.handle (r.physical a) (r.physical b) ++ s.hopsFrom r b rest

/-- The routers between two tiles of a region after the first one. -/
def State.tilePath (s : State) (r : Region) (a b : Nat) : List Nat := s.hopsFrom r a (logicalHops r.info.cols a b)

/-! ## Channels between routers (R464) -/

/-- Logical tile of a channel end that lies in a tile. -/
def End.tile : End → Option Nat
  | .queue t _ => some t
  | .engine t _ => some t
  | _ => none

/-- The router of a channel end: its tile's, or the one at which its port's faceplate joins the mesh (R378). -/
def Region.endRouter (r : Region) : End → Nat
  | .queue t _ => r.physical t
  | .engine t _ => r.physical t
  | .fport n => plateTile (tabGet FPort.idle r.ports n).plate
  | .region => hostTile
  | .unbound => 0

/-- The routers that a channel's tokens pass after the producer's. Between a tile and a port the path takes the same form over physical
routers (LOG 113 DEDUCED). -/
def State.channelPath (s : State) (r : Region) (c : Channel) : List Nat :=
  match c.prod.tile, c.cons.tile with
  | some a, some b => s.tilePath r a b
  | _, _ =>
    let a := r.endRouter c.prod
    let b := r.endRouter c.cons
    if a = b then [] else (s.hopPath a b).getD [b]

/-- The routers of a path from `a` in reverse: from its last one back to `a`. -/
def reversePath (a : Nat) (l : List Nat) : List Nat := if l.isEmpty then [] else l.dropLast.reverse ++ [a]

/-! ## Packets between routers -/

/-- Virtual channel of what a packet carries (Table 12.2). -/
def Cargo.vc : Cargo → Nat
  | .packet p => p.vc
  | .combined _ _ => 2
  | .tokens _ _ => 0
  | .space _ _ => 3
  | .flow _ => 3

/-- The output port that a packet between routers takes next; none for one that has arrived. -/
def Flight.out (f : Flight) : Option Nat := f.path.head?.map (dirOf f.router)

/-- Two packets lie in one lane: the same router, input port and virtual channel, and both leave the mesh there or both pass on (R389). -/
def Flight.sameLane (f g : Flight) : Bool :=
  f.router == g.router && f.port == g.port && f.cargo.vc == g.cargo.vc && f.path.isEmpty == g.path.isEmpty

/-- Packets between routers in a lane: the local one (`home`) or the through one of an input port and a virtual channel. -/
def State.flightsIn (s : State) (router port vc : Nat) (home : Bool) : List Flight :=
  s.flying.filter fun f => f.router == router && f.port == port && f.cargo.vc == vc && f.path.isEmpty == home

/-- The step that follows for a packet: its next hop, or its arrival. -/
def Flight.step (f : Flight) : Instr :=
  match f.out, f.cargo with
  | some d, _ => .meshPacketHop f.router d 0
  | none, .packet _ => .meshPacketHop f.router 0 0
  | none, .combined _ p => .routerCombine f.router p.route
  | none, .tokens ch _ => .channelTokenArrival f.handle ch
  | none, .space ch _ => .freeSpaceReturn f.handle ch
  | none, .flow _ => .ntokArrival f.router

/-- A packet put into the lane of a router. -/
def State.fly (s : State) (f : Flight) : State := State.ask { s with flying := s.flying ++ [f] } f.step

/-- The oldest packet that has arrived where it leaves the mesh and that a predicate picks. -/
def State.landed (s : State) (p : Flight → Bool) : Option Flight := s.flying.find? fun f => f.path.isEmpty && p f

/-- The state without a packet between routers. -/
def State.unfly (s : State) (f : Flight) : State := { s with flying := s.flying.erase f }

end Sys2Proof.Machine
end

