-- ==== Sys2Proof/Machine/Channel.lean ====
section
/-!
DEFINITION. Sink elements and the sink log (06_lane_row_instructions.md R193, R194, 01_machine_state.md R40), channels, firings
and their reservations (01_machine_state.md R18 to R24, 12_wafer_fabric.md R464), and engine ports (R463, R173).
-/
namespace Sys2Proof.Machine

/-! ## The sink log -/

/-- What a sink record says beside its number and the tile's coordinates (Table 6.5). -/
structure SinkRec where
  source : Nat
  cause : BitVec 5
  inflag : Bool
  payload : Word
  elem : Nat
  actor : Nat
  seq : Nat
deriving DecidableEq, Repr

/-- The four words of a record (Table 6.5) (LOG 53 DEDUCED). -/
def SinkRec.words (r : SinkRec) (row col number : Nat) : List Word :=
  [ BitVec.ofNat 64 (r.source * 2 ^ 48 + r.cause.toNat * 2 ^ 40 + (if r.inflag then 2 ^ 39 else 0) + row % 2 ^ 16 * 2 ^ 16
      + col % 2 ^ 16),
    r.payload,
    BitVec.ofNat 64 (r.elem % 2 ^ 32 * 2 ^ 32 + r.actor % 256 * 2 ^ 24 + r.seq % 2 ^ 24),
    BitVec.ofNat 64 number ]

/-- Where the sink log's memory lies: a record at an address without a usable translation is counted and not written (LOG 25 DEDUCED). -/
def State.logWrite (s : State) (t : Nat) (va : BitVec 56) (ws : List Word) : State :=
  match s.translate t false (s.regionOf t).info.ctx va true false with
  | (s1, .ok pa) => { s1 with mem := writeWords s1.mem pa ws }
  | (s1, _) => s1

/-- A sink element of a tile sinks a flagged result: KFLAGS.SINK is set, and a record is written, or lost when the log is full
(R40, R193, R194). -/
def State.sink (s : State) (t : Nat) (r : SinkRec) : State :=
  let x := s.tile t
  let g := s.region x.handle
  let n := g.sinkCount.toNat
  if n < g.sinkCap then
    let s1 := s.setTile t (x.setFlags fSINK)
    let s2 := s1.logWrite t (g.sinkVa + BitVec.ofNat 56 (32 * n)) (r.words x.row x.col n)
    s2.setRegion x.handle { s2.region x.handle with sinkCount := g.sinkCount + 1 }
  else
    (s.setTile t (x.setFlags (fSINK ||| fLOGLOST))).setRegion x.handle
      { g with sinkLost := if g.sinkLost = 0xFFFF then g.sinkLost else g.sinkLost + 1 }

/-! ## Channels -/

/-- A channel of a region. -/
def Region.channel (r : Region) (ch : Nat) : Channel := tabGet Channel.idle r.channels ch

/-- A region with a channel replaced. -/
def Region.setChannel (r : Region) (ch : Nat) (c : Channel) : Region :=
  { r with channels := tabSet Channel.idle r.channels ch c }

/-- The token of an empty queue; a reservation never lets it be read. -/
def Token.idle : Token := ⟨0, false, false, ⟨0, 0, 255, 0, 0⟩⟩

/-- The step that a change of a counter at a channel end lets happen: a dispatch at the end's tile, or a transfer of its port. -/
def Region.wake (r : Region) (ch : Nat) (producer : Bool) : End → Option Instr
  | .queue t _ => some (.firingDispatch (r.physical t))
  | .engine t _ => some (.firingDispatch (r.physical t))
  | .fport n => some (if producer then .streamPortPush r.info.handle n else .collectPortPop r.info.handle n)
  | .region => some (if producer then .seedDelivery r.info.handle else .resultPortPop r.info.handle ch)
  | .unbound => none

/-- The state with the step of a channel end's change on the agenda. -/
def State.wakeEnd (s : State) (h : BitVec 32) (ch : Nat) (producer : Bool) : State :=
  let r := s.region h
  let c := r.channel ch
  match r.wake ch producer (if producer then c.prod else c.cons) with
  | some e => if s.agenda.contains e then s else s.push e
  | none => s

/-- Whether two channel ends lie in one tile. -/
def Channel.local (c : Channel) : Bool := c.prod.tile.isSome && c.prod.tile == c.cons.tile

/-- Tokens of one push on their way: into the buffer at once in the same tile, and otherwise as one packet on VC 0, in its place behind the
producer's earlier ones (R390, R464). -/
def State.sendTokens (s : State) (h : BitVec 32) (ch : Nat) (vs : List Token) : State :=
  let r := s.region h
  let c := r.channel ch
  if c.local then s.setRegion h (r.setChannel ch { c with fifo := c.fifo ++ vs })
  else s.fly ⟨h, .tokens ch vs, r.endRouter c.prod, 0, s.channelPath r c⟩

/-- `n` pushed tokens are committed: the consumer end's counter rises at once in the same tile, and otherwise when the last of them has been
placed in its buffer (R18, R368). -/
def State.commitPush (s : State) (h : BitVec 32) (ch n : Nat) : State :=
  let r := s.region h
  let c := r.channel ch
  if c.local then (s.setRegion h (r.setChannel ch { c with tokens := c.tokens + n })).wakeEnd h ch false
  else (s.setRegion h (r.setChannel ch { c with arriving := c.arriving ++ [n] })).ask (.channelTokenArrival h ch)

/-- `n` consumed tokens are committed: the producer end's free-space counter rises at once in the same tile, and otherwise when the
return has arrived, on VC 3 by the tokens' path in reverse (R18, R464). -/
def State.commitPop (s : State) (h : BitVec 32) (ch n : Nat) : State :=
  let r := s.region h
  let c := r.channel ch
  if c.local then (s.setRegion h (r.setChannel ch { c with space := c.space + n })).wakeEnd h ch true
  else s.fly ⟨h, .space ch n, r.endRouter c.cons, 0, reversePath (r.endRouter c.prod) (s.channelPath r c)⟩

/-- The commits counted whose tokens have all been placed, oldest first. -/
def countCommits : List Nat → Channel → Channel
  | [], c => c
  | n :: rest, c =>
    if n ≤ c.placed then countCommits rest { c with tokens := c.tokens + n, placed := c.placed - n, arriving := rest } else c

/-- Tokens of a channel placed in the consumer's buffer. -/
def Channel.place (c : Channel) (vs : List Token) : Channel := { c with fifo := c.fifo ++ vs, placed := c.placed + vs.length }

/-- The oldest packet of a channel's tokens, or of its returns, that has arrived. -/
def State.landedOn (s : State) (h : BitVec 32) (ch : Nat) (returns : Bool) : Option Flight :=
  s.landed fun f => f.handle == h && match f.cargo with
    | .tokens c _ => c == ch && !returns
    | .space c _ => c == ch && returns
    | _ => false

/-- Where a packet of a channel leaves the mesh: tokens are placed, and a return raises the producer end's counter. -/
def Channel.take (c : Channel) : Cargo → Channel
  | .tokens _ vs => c.place vs
  | .space _ n => { c with space := c.space + n }
  | _ => c

/-- CHANNEL_TOKEN_ARRIVAL (R368, R464): the oldest packet of a channel's tokens that has reached the consumer's router is placed in its buffer;
the consumer end's counter then counts the commits whose tokens are all there. -/
def execChannelTokenArrival (h : BitVec 32) (ch : Nat) (s : State) : Host.Outcome State Fault Refusal :=
  let s1 := match s.landedOn h ch false with
    | some f => (s.unfly f).setRegion h ((s.region h).setChannel ch (((s.region h).channel ch).take f.cargo))
    | none => s
  let c := (s1.region h).channel ch
  let d := countCommits c.arriving c
  let s2 := if d.arriving = c.arriving then s1 else (s1.setRegion h ((s1.region h).setChannel ch d)).wakeEnd h ch false
  .next (if (s2.landedOn h ch false).isSome then s2.ask (.channelTokenArrival h ch) else s2)

/-- FREE_SPACE_RETURN (R464): the oldest return of a channel that has reached the producer's router raises the producer end's counter. -/
def execFreeSpaceReturn (h : BitVec 32) (ch : Nat) (s : State) : Host.Outcome State Fault Refusal :=
  .next (match s.landedOn h ch true with
    | none => s
    | some f =>
      let s1 := ((s.unfly f).setRegion h ((s.region h).setChannel ch (((s.region h).channel ch).take f.cargo))).wakeEnd h ch true
      if (s1.landedOn h ch true).isSome then s1.ask (.freeSpaceReturn h ch) else s1)

/-! ## Port transfers (R23) -/

/-- A producer port pushes a token of its own: free space is at least 1; the token counts at once or when it has arrived. -/
def State.portPush (s : State) (h : BitVec 32) (ch : Nat) (v : Token) : State :=
  let r := s.region h
  let c := r.channel ch
  ((s.setRegion h (r.setChannel ch { c with space := c.space - 1 })).sendTokens h ch [v]).commitPush h ch 1

/-- A consumer port pops a token: the counter is at least 1. -/
def State.portPop (s : State) (h : BitVec 32) (ch : Nat) : Token × State :=
  let r := s.region h
  let c := r.channel ch
  (c.fifo.headD Token.idle,
    (s.setRegion h (r.setChannel ch { c with fifo := c.fifo.tail, tokens := c.tokens - 1 })).commitPop h ch 1)

/-- The sink record of a region port or faceplate port that receives a flagged token, at the tile that pushed it (R83, R193). -/
def State.edgeSink (s : State) (h : BitVec 32) (v : Token) : State :=
  if v.exc then
    let r := s.region h
    s.sink (r.physical (v.origin.row * r.info.cols + v.origin.col)) ⟨5, 0, true, v.payload, v.origin.index, v.origin.actor, v.origin.seq⟩
  else s

/-! ## Firings (R18) -/

/-- The rate of a channel among the slots of an actor. -/
def rateOf (rs : List Rate) (ch : Nat) : Nat := (rs.filter fun r => r.ch == ch).foldl (fun n r => n + r.rate) 0

/-- The actor of a tile by index. -/
def Tile.actor (t : Tile) (n : Nat) : Actor := tabGet Actor.idle t.actors n

/-- A tile with an actor replaced. -/
def Tile.setActor (t : Tile) (n : Nat) (a : Actor) : Tile := { t with actors := tabSet Actor.idle t.actors n a }

/-- Reserved tokens that a firing has left to pop of a channel. -/
def Tile.leftIn (t : Tile) (f : Firing) (ch : Nat) : Nat := rateOf (t.actor f.actor).ins ch - tabGet 0 f.popped ch

/-- Reserved space that a firing has left to push to a channel. -/
def Tile.leftOut (t : Tile) (f : Firing) (ch : Nat) : Nat := rateOf (t.actor f.actor).outs ch - tabGet 0 f.pushed ch

/-- A firing pops the head token of a channel. -/
def State.firingPop (s : State) (t : Nat) (f : Firing) (ch : Nat) : Token × Firing × State :=
  let h := (s.tile t).handle
  let r := s.region h
  let c := r.channel ch
  (c.fifo.headD Token.idle, { f with popped := tabSet 0 f.popped ch (tabGet 0 f.popped ch + 1) },
    s.setRegion h (r.setChannel ch { c with fifo := c.fifo.tail }))

/-- The actor index and sequence number that a token of a firing carries (Table 6.5): 255 and 0 for a matrix firing. -/
def Tile.pushedBy (t : Tile) (f : Firing) : Nat × Nat := if (t.actor f.actor).target = 2 then (255, 0) else (f.actor, f.seq)

/-- A firing pushes tokens to a channel in one push: payload, type bit and exception bit of each. -/
def State.firingPush (s : State) (t : Nat) (f : Firing) (ch : Nat) (vs : List (Word × Bool × Bool)) : Firing × State :=
  let x := s.tile t
  let n := tabGet 0 f.pushed ch
  let who := x.pushedBy f
  let ts := (vs.zipIdx n).map fun v => (⟨v.1.1, v.1.2.1, v.1.2.2, ⟨x.row, x.col, who.1, who.2, v.2⟩⟩ : Token)
  ({ f with pushed := tabSet 0 f.pushed ch (n + vs.length) }, s.sendTokens x.handle ch ts)

/-- The commit of a firing of a tile (R18): its actor may fire again, and every counter rises. -/
def State.commitFiring (s : State) (t : Nat) (f : Firing) : State :=
  let x := s.tile t
  let h := x.handle
  let s1 := s.setTile t (x.setActor f.actor { x.actor f.actor with running := false })
  let s2 := f.popped.foldl (fun s e => s.commitPop h e.1 e.2) s1
  let s3 := f.pushed.foldl (fun s e => s.commitPush h e.1 e.2) s2
  let r := s3.region h
  (s3.setRegion h { r with firings := r.firings + 1 }).push (.firingDispatch t)

/-- A firing has started: nothing popped and nothing pushed. -/
def Firing.start (actor seq : Nat) : Firing := ⟨actor, seq, [], [], []⟩

/-! ## Engine ports and copy-arrival streams -/

/-- Elements that an engine port or a copy-arrival stream buffers (R173; LOG 26 DESIGN CHOICE). -/
def portDepth : Nat := 16

/-- The tokens of an engine port, or of copy-arrival stream `s` under number 0x100 + `s`. -/
def Tile.port (t : Tile) (p : Nat) : List Token := tabGet [] t.ports p

/-- A tile with a port's tokens replaced. -/
def Tile.setPort (t : Tile) (p : Nat) (l : List Token) : Tile := { t with ports := tabSet [] t.ports p l }

/-- Free places of a port. -/
def Tile.portRoom (t : Tile) (p : Nat) : Nat := portDepth - (t.port p).length

/-! ## Queue registers -/

/-- The binding of a queue register. -/
def Tile.queue (t : Tile) (q : Nat) : QBind := tabGet .unbound t.queues q

/-- KIND of a binding (Table 3.11). -/
def QBind.kind : QBind → Nat
  | .unbound => 0
  | .producer _ => 1
  | .consumer _ => 2
  | .input _ => 3
  | .output _ => 4
  | .arrive _ => 5

/-- The port that a readable binding names: an engine output port or a copy-arrival stream. -/
def arrivePort (stream : Nat) : Nat := 0x100 + stream

/-- The scope of a channel (R24): tile, cluster or wafer. -/
def State.channelScope (s : State) (h : BitVec 32) (ch : Nat) : Scope :=
  let r := s.region h
  let c := r.channel ch
  match c.prod.tile, c.cons.tile with
  | some a, some b =>
    if a = b then .til else if clusterOf (r.physical a) = clusterOf (r.physical b) then .clu else .waf
  | _, _ => .waf

end Sys2Proof.Machine
end

