-- ==== Sys2Proof/Machine/Ring.lean ====
section
/-!
DEFINITION. Circular-buffer handles and the ring instructions (01_machine_state.md R32, R33,
05_memory_queue_instructions.md R176 to R178).
-/
namespace Sys2Proof.Machine

/-! ## Handles (Table 1.8) -/

/-- Slots of a ring. -/
def Handle.count (h : Handle) : Nat := h.countM1.toNat + 1

/-- Bytes of a slot. -/
def Handle.slotBytes (h : Handle) : Nat := (h.slotsz.toNat + 1) * 32

/-- A pointer's position on the circle of 2 × COUNT places (R177). -/
def Handle.posOf (h : Handle) (p : BitVec 13) : Nat := (p.toNat / 4096) * h.count + p.toNat % 4096

/-- The pointer of a position. -/
def Handle.ptrOf (h : Handle) (n : Nat) : BitVec 13 := BitVec.ofNat 13 (n % (2 * h.count) / h.count * 4096 + n % h.count)

/-- Filled slots (R32, R177). -/
def Handle.filled (h : Handle) : Nat := (h.posOf h.fill + 2 * h.count - h.posOf h.drain) % (2 * h.count)

/-- Free slots (R177). -/
def Handle.free (h : Handle) : Nat := h.count - h.filled

/-- FILL advanced by `n` slots. -/
def Handle.advFill (h : Handle) (n : Nat) : Handle := { h with fill := h.ptrOf (h.posOf h.fill + n) }

/-- DRAIN advanced by `n` slots. -/
def Handle.advDrain (h : Handle) (n : Nat) : Handle := { h with drain := h.ptrOf (h.posOf h.drain + n) }

/-- Scratchpad offset of the slot at FILL. -/
def Handle.fillAt (h : Handle) : Nat := h.base.toNat + h.fill.toNat % 4096 * h.slotBytes

/-- Scratchpad offset of the slot at DRAIN. -/
def Handle.drainAt (h : Handle) : Nat := h.base.toNat + h.drain.toNat % 4096 * h.slotBytes

/-- The handle of 74 bits in the layout of a handle record (Table 3.11). -/
def Handle.ofBits (v : BitVec 74) : Handle where
  base := v.extractLsb' 0 20
  slotsz := v.extractLsb' 20 16
  countM1 := v.extractLsb' 36 12
  fill := v.extractLsb' 48 13
  drain := v.extractLsb' 61 13

/-- The 74 bits of a handle (Table 3.11). -/
def Handle.bits (h : Handle) : BitVec 74 := h.drain ++ h.fill ++ h.countM1 ++ h.slotsz ++ h.base

/-- A handle of a tile. -/
def Tile.ring (t : Tile) (h : Nat) : Handle := tabGet Handle.idle t.handles h

/-- A tile with a handle replaced. -/
def Tile.setRing (t : Tile) (h : Nat) (x : Handle) : Tile := { t with handles := tabSet Handle.idle t.handles h x }

/-- Whether a ring lies in scratchpad banks, with fields in their ranges: what CBSET and a memory record ask (R178, R32). -/
def Tile.ringOk (t : Tile) (h : Handle) : Bool :=
  let last := h.base.toNat + h.count * h.slotBytes
  decide (h.slotsz.toNat < 2048) && decide (h.base.toNat % 32 = 0)
    && decide (h.fill.toNat % 4096 < h.count) && decide (h.drain.toNat % 4096 < h.count)
    && decide (last ≤ 0xC0000)
    && (upFrom (h.base.toNat / 0x10000) ((last - 1) / 0x10000 + 1 - h.base.toNat / 0x10000)).all fun b => t.banks.getLsbD b

/-! ## Instructions (R177, R178) -/

/-- KTVAL of a ring trap: (n << 4) | handle. -/
def ringTval (n : Word) (h : BitVec 4) : Word := n <<< 4 ||| h.zeroExtend 64

/-- The handle of a ring instruction, after the check that n is not above COUNT. -/
def ringStart (s : State) (h : BitVec 4) (n : Word) : M Handle := do
  let x := s.curTile.ring h.toNat
  demand (n.toNat ≤ x.count) s .ringGeometry (ringTval n h)
  return x

/-- CBWAIT: wait until enough slots are filled or free. The acquire is at tile scope and met by program order (LOG 7 DEDUCED). -/
def cbwaitEff (full : Bool) (h : BitVec 4) (n : Word) (s : State) : M Eff := do
  let x ← ringStart s h n
  await (n.toNat ≤ (if full then x.filled else x.free)) s
  return .done s

/-- CBADV.P: FILL advances; past DRAIN by more than COUNT it traps and changes nothing. -/
def cbadvPEff (h : BitVec 4) (n : Word) (s : State) : M Eff := do
  let x ← ringStart s h n
  demand (n.toNat ≤ x.free) s .ringOverflow (ringTval n h)
  return .done (s.setCurTile (s.curTile.setRing h.toNat (x.advFill n.toNat)))

/-- CBADV.C: DRAIN advances; past FILL it traps and changes nothing. -/
def cbadvCEff (h : BitVec 4) (n : Word) (s : State) : M Eff := do
  let x ← ringStart s h n
  demand (n.toNat ≤ x.filled) s .ringUnderflow (ringTval n h)
  return .done (s.setCurTile (s.curTile.setRing h.toNat (x.advDrain n.toNat)))

/-- CBWAIT.F (R177). -/
def execCbwaitF (a : BitVec 4) (b : BitVec 6) (s : State) : Host.Outcome State Fault Refusal :=
  issueM s [b] (cbwaitEff true a (s.curStrand.rg b) s)

/-- CBWAIT.F with an immediate (R177). -/
def execCbwaitFI (a : BitVec 4) (n : BitVec 13) (s : State) : Host.Outcome State Fault Refusal :=
  issueM s [] (cbwaitEff true a (n.zeroExtend 64) s)

/-- CBWAIT.E (R177). -/
def execCbwaitE (a : BitVec 4) (b : BitVec 6) (s : State) : Host.Outcome State Fault Refusal :=
  issueM s [b] (cbwaitEff false a (s.curStrand.rg b) s)

/-- CBWAIT.E with an immediate (R177). -/
def execCbwaitEI (a : BitVec 4) (n : BitVec 13) (s : State) : Host.Outcome State Fault Refusal :=
  issueM s [] (cbwaitEff false a (n.zeroExtend 64) s)

/-- CBADV.P (R177). -/
def execCbadvP (a : BitVec 4) (b : BitVec 6) (s : State) : Host.Outcome State Fault Refusal :=
  issueM s [b] (cbadvPEff a (s.curStrand.rg b) s)

/-- CBADV.P with an immediate (R177). -/
def execCbadvPI (a : BitVec 4) (n : BitVec 13) (s : State) : Host.Outcome State Fault Refusal :=
  issueM s [] (cbadvPEff a (n.zeroExtend 64) s)

/-- CBADV.C (R177). -/
def execCbadvC (a : BitVec 4) (b : BitVec 6) (s : State) : Host.Outcome State Fault Refusal :=
  issueM s [b] (cbadvCEff a (s.curStrand.rg b) s)

/-- CBADV.C with an immediate (R177). -/
def execCbadvCI (a : BitVec 4) (n : BitVec 13) (s : State) : Host.Outcome State Fault Refusal :=
  issueM s [] (cbadvCEff a (n.zeroExtend 64) s)

/-- CBSET: the whole handle is written, unless its geometry is wrong (R178). -/
def cbsetEff (d : BitVec 4) (a b : BitVec 6) (s : State) : M Eff := do
  let h := Handle.ofBits ((s.curStrand.rg b).extractLsb' 0 10 ++ s.curStrand.rg a)
  demand (s.curTile.ringOk h) s .ringGeometry (d.zeroExtend 64)
  return .done (s.setCurTile (s.curTile.setRing d.toNat h))

/-- CBSET (R178). -/
def execCbset (d : BitVec 4) (a b : BitVec 6) (s : State) : Host.Outcome State Fault Refusal :=
  issueM s [a, b] (cbsetEff d a b s)

/-- CBGET: g[d] gets bits [63:0] and then g[c] bits [73:64], so the high part remains when they are one register (R178). -/
def execCbget (d : BitVec 6) (a : BitVec 4) (c : BitVec 6) (s : State) : Host.Outcome State Fault Refusal :=
  let v := (s.curTile.ring a.toNat).bits
  issueStrand s [d, c] ((s.curStrand.wg d (v.extractLsb' 0 64)).wg c ((v.extractLsb' 64 10).zeroExtend 64))

end Sys2Proof.Machine
end

