-- ==== Sys2Proof/Machine/Queue.lean ====
section
/-!
DEFINITION. The queue and channel instructions (05_memory_queue_instructions.md R171 to R175, 01_machine_state.md R28) and WAITANY
(04_scalar_and_control.md R133).
-/
namespace Sys2Proof.Machine

/-- What a queue register has to move for the issuing strand: reserved tokens or space left, elements present or free places. -/
def State.avail (s : State) (b : QBind) : Nat :=
  let t := s.curTile
  match b, s.curStrand.firing with
  | .unbound, _ => 0
  | .producer ch, some f => t.leftOut f ch
  | .consumer ch, some f => t.leftIn f ch
  | .producer _, none => 0
  | .consumer _, none => 0
  | .input p, _ => t.portRoom p
  | .output p, _ => (t.port p).length
  | .arrive n, _ => (t.port (arrivePort n)).length

/-- A binding that is a channel end. -/
def QBind.isChannel : QBind → Bool
  | .producer _ => true
  | .consumer _ => true
  | _ => false

/-- A binding that a push accepts (Table 5.7). -/
def QBind.pushes : QBind → Bool
  | .producer _ => true
  | .input _ => true
  | _ => false

/-- Channel of a binding; 0 for a binding without one. -/
def QBind.channel : QBind → Nat
  | .producer ch => ch
  | .consumer ch => ch
  | _ => 0

/-- The traps of Table 5.7 that every queue instruction but QSTAT checks first: unbound, then direction. -/
def queueCheck (s : State) (q : BitVec 5) (push : Bool) : M QBind := do
  let b := s.curTile.queue q.toNat
  demand (b != .unbound) s .queueUnbound (q.zeroExtend 64)
  demand (b.pushes == push) s .queueDirection (q.zeroExtend 64)
  return b

/-- The elements that a queue instruction needs: a channel end that lacks them takes CHANNEL_RATE, and any other binding waits
(R173). -/
def queueReady (s : State) (b : QBind) (n : Nat) : M Unit :=
  if n ≤ s.avail b then .ok ()
  else if b.isChannel then trapM s .channelRate (BitVec.ofNat 64 b.channel)
  else waitM s

/-! ## Pushes -/

/-- Tokens of the issuing strand pushed into a binding in one push, in ascending order; their exception bit is 0 (R172). -/
def queuePush (b : QBind) (scale : Bool) (s : State) (vs : List Word) : State :=
  let x := s.curStrand
  match b, x.firing with
  | .producer ch, some f =>
    let (f1, s1) := s.firingPush s.cur.tile f ch (vs.map fun v => (v, scale, false))
    s1.setCur { s1.curStrand with firing := some f1 }
  | .input p, _ =>
    let t := s.curTile
    s.setCurTile (t.setPort p (t.port p ++ vs.map fun v => ⟨v, scale, false, ⟨t.row, t.col, 255, 0, 0⟩⟩))
  | _, _ => s

/-- QPUSH, QPUSHS and CHSEND. A send performs its release after every check and before the push (R175). -/
def pushEff (q : BitVec 5) (scale send : Bool) (vs : List Word) (s : State) : M Eff := do
  let b ← queueCheck s q true
  queueReady s b vs.length
  let sc := if b.isChannel then s.channelScope s.curTile.handle b.channel else .til
  let s1 := if send then s.releaseAt s.cur.tile sc else s
  return .done (queuePush b scale s1 (if scale then vs.map fun v => v &&& 0xFF else vs))

/-- A push of consecutive registers. -/
def pushRegs (q : BitVec 5) (a : BitVec 6) (cnt : BitVec 4) (scale send : Bool) (s : State) :
    Host.Outcome State Fault Refusal :=
  issueM s (gRange a (cnt.toNat + 1)) (pushEff q scale send (s.curStrand.rgs a.toNat (cnt.toNat + 1)) s)

/-- QPUSH (R172, R173). -/
def execQpush (d : BitVec 5) (a : BitVec 6) (cnt : BitVec 4) (s : State) : Host.Outcome State Fault Refusal :=
  pushRegs d a cnt false false s

/-- QPUSH of an immediate (R171). -/
def execQpushI (d : BitVec 5) (imm : BitVec 32) (s : State) : Host.Outcome State Fault Refusal :=
  issueM s [] (pushEff d false false [sx32 imm] s)

/-- QPUSHS: scale tokens (R172). -/
def execQpushs (d : BitVec 5) (a : BitVec 6) (cnt : BitVec 4) (s : State) : Host.Outcome State Fault Refusal :=
  pushRegs d a cnt true false s

/-- QPUSHS of an immediate: E = IMM32[7:0] (R171). -/
def execQpushsI (d : BitVec 5) (imm : BitVec 32) (s : State) : Host.Outcome State Fault Refusal :=
  issueM s [] (pushEff d true false [zx32 imm] s)

/-- CHSEND (R175). -/
def execChsend (d : BitVec 5) (a : BitVec 6) (cnt : BitVec 4) (s : State) : Host.Outcome State Fault Refusal :=
  pushRegs d a cnt false true s

/-- CHSEND of an immediate (R175). -/
def execChsendI (d : BitVec 5) (imm : BitVec 32) (s : State) : Host.Outcome State Fault Refusal :=
  issueM s [] (pushEff d false true [sx32 imm] s)

/-! ## Pops -/

/-- Actor index and sequence number of a firing for a sink record; 255 and 0 outside a firing (Table 6.5). -/
def sinkWho : Option Firing → Nat × Nat
  | some f => (f.actor, f.seq)
  | none => (255, 0)

/-- The issuing strand takes the next token of a readable binding. -/
def queueTake (b : QBind) (s : State) : Token × Nat × State :=
  match b, s.curStrand.firing with
  | .consumer ch, some f =>
    let (v, f1, s1) := s.firingPop s.cur.tile f ch
    (v, tabGet 0 f.popped ch, s1.setCur { s1.curStrand with firing := some f1 })
  | .output p, _ =>
    let t := s.curTile
    ((t.port p).headD Token.idle, 0, s.setCurTile (t.setPort p (t.port p).tail))
  | .arrive n, _ =>
    let t := s.curTile
    ((t.port (arrivePort n)).headD Token.idle, 0, s.setCurTile (t.setPort (arrivePort n) (t.port (arrivePort n)).tail))
  | _, _ => (Token.idle, 0, s)

/-- `n` tokens popped by the issuing strand; each flagged one is a sink event of SOURCE 4 (R83, R173, R193). -/
def queuePop (b : QBind) : Nat → State → List Word × State
  | 0, s => ([], s)
  | n + 1, s =>
    let (v, i, s1) := queueTake b s
    let who := sinkWho s.curStrand.firing
    let s2 := if v.exc then s1.sink s.cur.tile ⟨4, 0, true, v.payload, i, who.1, who.2⟩ else s1
    let (vs, s3) := queuePop b n s2
    (v.payload :: vs, s3)

/-- The next `n` tokens of a readable binding, none taken. -/
def queueHead (b : QBind) (s : State) (n : Nat) : List Token :=
  match b with
  | .consumer ch => ((s.curRegion.channel ch).fifo.take n)
  | .output p => (s.curTile.port p).take n
  | .arrive m => (s.curTile.port (arrivePort m)).take n
  | _ => []

/-- The issuing strand's registers filled from g[d] on. -/
def State.fillRegs (s : State) (d : BitVec 6) (vs : List Word) : State := s.setCur (s.curStrand.wgs d.toNat vs)

/-- QPOP and CHRECV. A receive acquires after the pop (R175). -/
def popEff (d : BitVec 6) (q : BitVec 5) (n : Nat) (receive : Bool) (s : State) : M Eff := do
  let b ← queueCheck s q false
  queueReady s b n
  let sc := if b.isChannel then s.channelScope s.curTile.handle b.channel else .til
  let (vs, s1) := queuePop b n s
  let s2 := s1.fillRegs d vs
  return .done (if receive then s2.acquireAt s.cur.tile sc else s2)

/-- QPOP (R173). -/
def execQpop (d : BitVec 6) (a : BitVec 5) (cnt : BitVec 4) (s : State) : Host.Outcome State Fault Refusal :=
  issueM s (gRange d (cnt.toNat + 1)) (popEff d a (cnt.toNat + 1) false s)

/-- CHRECV (R175). -/
def execChrecv (d : BitVec 6) (a : BitVec 5) (cnt : BitVec 4) (s : State) : Host.Outcome State Fault Refusal :=
  issueM s (gRange d (cnt.toNat + 1)) (popEff d a (cnt.toNat + 1) true s)

/-- QPEEK copies and takes nothing. -/
def peekEff (d : BitVec 6) (q : BitVec 5) (n : Nat) (s : State) : M Eff := do
  let b ← queueCheck s q false
  queueReady s b n
  return .done (s.fillRegs d ((queueHead b s n).map (·.payload)))

/-- QPEEK (R173). -/
def execQpeek (d : BitVec 6) (a : BitVec 5) (cnt : BitVec 4) (s : State) : Host.Outcome State Fault Refusal :=
  issueM s (gRange d (cnt.toNat + 1)) (peekEff d a (cnt.toNat + 1) s)

/-- QTRY pops when all elements are there, and says in p[b] whether it did. -/
def tryEff (d : BitVec 6) (q : BitVec 5) (p : BitVec 3) (n : Nat) (s : State) : M Eff := do
  let b ← queueCheck s q false
  if n ≤ s.avail b then
    let (vs, s1) := queuePop b n s
    let s2 := s1.fillRegs d vs
    return .done (s2.setCur (s2.curStrand.wp p true))
  else return .done (s.setCur (s.curStrand.wp p false))

/-- QTRY (R173). -/
def execQtry (d : BitVec 6) (a : BitVec 5) (b : BitVec 3) (cnt : BitVec 4) (s : State) : Host.Outcome State Fault Refusal :=
  issueM s (gRange d (cnt.toNat + 1)) (tryEff d a b (cnt.toNat + 1) s)

/-- The value of QSTAT (R174). The head bits read 0 when no element can be popped now (LOG 98 DESIGN CHOICE). -/
def queueStat (s : State) (b : QBind) : Word :=
  let n := s.avail b
  let hd := if 0 < n then (queueHead b s 1).head? else none
  let flags := match hd with
    | some v => (if v.exc then 128 else 0) + (if v.scale then 64 else 0) + 32
    | none => 0
  BitVec.ofNat 64 (min n 0xFFFF * 65536 + flags + b.kind)

/-- QSTAT (R174). -/
def execQstat (d : BitVec 6) (a : BitVec 5) (s : State) : Host.Outcome State Fault Refusal :=
  issueStrand s [d] (s.curStrand.wg d (queueStat s (s.curTile.queue a.toNat)))

/-! ## WAITANY (R133) -/

/-- The queue registers that a mask names, lowest first. -/
def maskQueues (mask : BitVec 32) : List Nat := (upFrom 0 32).filter fun n => mask.getLsbD n

/-- WAITANY. -/
def waitanyEff (d : BitVec 6) (mask : BitVec 32) (s : State) : M Eff := do
  let t := s.curTile
  let qs := maskQueues mask
  match qs.find? fun q => t.queue q == .unbound with
  | some q => trapM s .queueUnbound (BitVec.ofNat 64 q)
  | none =>
    demand (!qs.all fun q => (t.queue q).isChannel && s.avail (t.queue q) == 0) s .channelRate (mask.zeroExtend 64)
    match qs.find? fun q => decide (0 < s.avail (t.queue q)) with
    | some q => return .done (s.setCur (s.curStrand.wg d (BitVec.ofNat 64 q)))
    | none => waitM s

/-- WAITANY (R133). -/
def execWaitany (d : BitVec 6) (mask : BitVec 32) (s : State) : Host.Outcome State Fault Refusal :=
  issueM s [d] (waitanyEff d mask s)

end Sys2Proof.Machine
end

