-- ==== Sys2Proof/Machine/Lane.lean ====
section
/-!
DEFINITION. The lane row (06_lane_row_instructions.md R179 to R188): lane entries and their validity, the lane operations, and an
element's passage through the sixteen lanes.
-/
namespace Sys2Proof.Machine

/-! ## Lane entries (R183) -/

/-- A lane entry's fields (Table 6.2). -/
structure LaneEntry where
  op : Nat
  fmt : Nat
  bsel : Nat
  rnd : Nat
  scaled : Bool
  reserved : Nat
  h0 : Word
  k1 : Word
  k0 : Word
deriving DecidableEq, Repr

/-- The fields of a 256-bit payload (Table 6.2). -/
def LaneEntry.ofBits (v : BitVec 256) : LaneEntry where
  op := (v.extractLsb' 250 6).toNat
  fmt := (v.extractLsb' 248 2).toNat
  bsel := (v.extractLsb' 245 3).toNat
  rnd := (v.extractLsb' 242 3).toNat
  scaled := v.getLsbD 241
  reserved := (v.extractLsb' 192 49).toNat
  h0 := v.extractLsb' 128 64
  k1 := v.extractLsb' 64 64
  k0 := v.extractLsb' 0 64

/-- An entry of a slot of a tile; a lane that no frame names holds the all-zero entry. -/
def Tile.laneEntry (t : Tile) (slot lane : Nat) : LaneEntry := LaneEntry.ofBits (tabGet 0 t.laneCfg (slot * 16 + lane))

/-- The operations that Table 6.3 marks narrowing. -/
def laneNarrowing (op : Nat) : Bool := decide (0x32 ≤ op ∧ op ≤ 0x3B) && op != 0x35

/-- An operation stands with a format of its group (Table 6.3); reserved codes stand with none. -/
def laneGroupOk (op fmt : Nat) : Bool :=
  if op = 0 ∨ (0x18 ≤ op ∧ op ≤ 0x1D) then true
  else if op ≤ 0x0F ∨ op = 0x11 ∨ op = 0x1E ∨ op = 0x1F then fmt != 3
  else if op = 0x10 then fmt == 0
  else if op < 0x20 then false
  else if op < 0x30 then fmt == 3
  else decide (op ≤ 0x3B) && fmt == 0

/-- An operation whose source is an integer. -/
def laneIntSource (op fmt : Nat) : Bool := (fmt == 3 && decide (op < 0x30)) || decide (0x38 ≤ op)

/-- Whether an entry is valid (R183); SR needs feature bit 6 (R239). -/
def LaneEntry.ok (e : LaneEntry) (sr : Bool) : Bool :=
  laneGroupOk e.op e.fmt && decide (e.bsel < 4) && decide (e.rnd < 5) && e.reserved == 0
    && (e.rnd != 4 || (laneNarrowing e.op && sr)) && !(e.scaled && laneIntSource e.op e.fmt)

/-- The lowest invalid lane of a slot, if one is. -/
def Tile.badLane (t : Tile) (slot : Nat) (sr : Bool) : Option Nat := (upFrom 0 16).find? fun k => !(t.laneEntry slot k).ok sr

/-! ## Operations (R184 to R187) -/

/-- Format of a FMT code of a floating-point operation. -/
def laneFloat (fmt : Nat) : FFmt := if fmt = 0 then f32 else if fmt = 1 then f16 else b16

/-- Conversion of a C row: source and destination (Table 6.3). -/
def laneCvt (op : Nat) : CvtFmt × CvtFmt :=
  match op with
  | 0x30 => (.fp16, .fp32)
  | 0x31 => (.bf16, .fp32)
  | 0x32 => (.fp32, .fp16)
  | 0x33 => (.fp32, .bf16)
  | 0x34 => (.fp32, .log6)
  | 0x35 => (.log6, .fp32)
  | 0x36 => (.fp32, .int8)
  | 0x37 => (.fp32, .int32)
  | 0x38 => (.int32, .fp32)
  | 0x39 => (.int32, .int8)
  | 0x3A => (.int32, .int4)
  | _ => (.int32, .int16)

/-- A value times the latched scale, exactly; under E = 255 the canonical NaN with NV (R68). -/
def latched (scaled : Bool) (latch : BitVec 8) (x : FpNum) : FpNum × FlagSet :=
  if !scaled then (x, 0) else if latch = 255 then (.nan false, fNV) else (x.scale ((latch.toNat : Int) - 127), 0)

/-- The condition of a compare-steer operation. -/
def steerCond (op : Nat) : FCond :=
  match op with
  | 0x18 => .lt | 0x19 => .le | 0x1A => .gt | 0x1B => .ge | 0x1C => .eq
  | _ => .ne

/-- EXPA (R187). -/
def expa (x : FpNum) : FRes :=
  match x with
  | .nan s => nanRes f32 s
  | .inf neg => if neg then ⟨0, 0⟩ else infRes f32 false
  | .fin neg m e =>
    match mulNum (.fin neg m e) (unpack f32 0x4B38AA3B) with
    | some (.fin n m1 e1) =>
      match unpack f32 (roundFin f32 .rne 0 n m1 e1).bits with
      | .fin tn tm te =>
        let r := roundAt .rne 0 tn tm te 0
        let i : Int := (if tn then -(r : Int) else r) + 0x3F800000
        if i < 0 then ⟨0, fSAT⟩ else if 0x7F7FFFFF < i then ⟨0x7F7FFFFF, fSAT⟩ else ⟨i.toNat, 0⟩
      | .inf tn => if tn then ⟨0, fSAT⟩ else ⟨0x7F7FFFFF, fSAT⟩
      | .nan _ => ⟨0, 0⟩
    | _ => ⟨0, 0⟩

/-- A floating-point operation of FMT 0 to 2 on the value of A, its code when it is not scaled, and the codes of B and K1. A
result that is A itself keeps A's code, or rounds the scaled A once under the mode (LOG 27 DEDUCED) (LOG 47 DEDUCED). -/
def laneFloatOp (f : FFmt) (op : Nat) (mode : RMode) (scaled : Bool) (x : FpNum) (a b k1 : Nat) : FRes :=
  let y := unpack f b
  let keep : FRes := if scaled then roundNum f mode 0 x else ⟨a, 0⟩
  let steer (c : Bool) (fl : FlagSet) : FRes := if c then ⟨k1, fl⟩ else ⟨keep.bits, keep.fl ||| fl⟩
  let nan := nanRes f (x.isSig || y.isSig)
  let isInf := match x with
    | .inf _ => true
    | _ => false
  let fn (g : Fn) : FRes := if f = f32 then fnF32 g x else fnNarrow f g mode x
  match op with
  | 0x00 => keep
  | 0x01 => fAdd f mode x y
  | 0x02 => fSub f mode x y
  | 0x03 => fMul f mode x y
  | 0x04 => fFma f mode x y (unpack f k1)
  | 0x05 => if x.isNan || y.isNan then nan else if minFirst x y then keep else ⟨b, 0⟩
  | 0x06 => if x.isNan || y.isNan then nan else if minFirst x y then ⟨b, 0⟩ else keep
  | 0x07 =>
    match x with
    | .nan s => nanRes f s
    | .inf _ => infRes f false
    | .fin _ m e => roundFin f mode 0 false m e
  | 0x08 => roundNum f mode 0 x.neg
  | 0x09 => fDiv f mode x y
  | 0x0A => fSqrt f mode x
  | 0x0B => fn .rsqrt
  | 0x0C => fn .exp2
  | 0x0D => fn .log2
  | 0x0E => fn .sin
  | 0x0F => fn .cos
  | 0x10 => expa x
  | 0x11 =>
    match x with
    | .nan s => ⟨if s then 0x100 else 0x200, fNV⟩
    | .inf neg => ⟨if neg then 1 else 0x80, fNV⟩
    | .fin neg m e =>
      if m = 0 then ⟨if neg then 8 else 0x10, 0⟩
      else if cmpNum (.fin false m e) (.fin false 1 (1 - (f.bias : Int))) = .lt then ⟨if neg then 4 else 0x20, 0⟩
      else ⟨if neg then 2 else 0x40, 0⟩
  | 0x1E => steer x.isNan (if x.isSig then fNV else 0)
  | 0x1F => steer (x.isNan || isInf) 0
  | op => steer (fCmp (steerCond op) x y).1 (fCmp (steerCond op) x y).2

/-- A signed 64-bit sum clamped to INT64. -/
def clampWord (v : Int) : Word × FlagSet :=
  if v < -(2 ^ 63 : Int) then (BitVec.ofInt 64 (-(2 ^ 63 : Int)), fSAT)
  else if (2 ^ 63 : Int) ≤ v then (BitVec.ofInt 64 (2 ^ 63 - 1), fSAT)
  else (BitVec.ofInt 64 v, 0)

/-- An integer operation of FMT 3 (Table 6.3). -/
def laneIntOp (op : Nat) (a b k1 : Word) : Word × FlagSet :=
  let steer (c : Bool) : Word × FlagSet := (if c then k1 else a, 0)
  let sh := b.toNat % 64
  match op with
  | 0x18 => steer (a.slt b)
  | 0x19 => steer (a.sle b)
  | 0x1A => steer (b.slt a)
  | 0x1B => steer (b.sle a)
  | 0x1C => steer (a == b)
  | 0x1D => steer (a != b)
  | 0x20 => (a + b, 0)
  | 0x21 => (a - b, 0)
  | 0x22 => (a * b, 0)
  | 0x23 => (a &&& b, 0)
  | 0x24 => (a ||| b, 0)
  | 0x25 => (a ^^^ b, 0)
  | 0x26 => (a <<< sh, 0)
  | 0x27 => (a >>> sh, 0)
  | 0x28 => (a.sshiftRight sh, 0)
  | 0x29 => (if a.sle b then a else b, 0)
  | 0x2A => (if a.sle b then b else a, 0)
  | 0x2B => clampWord (a.toInt + b.toInt)
  | 0x2C => clampWord (a.toInt - b.toInt)
  | 0x2D => clampWord (if a.toInt < 0 then -a.toInt else a.toInt)
  | 0x2E => (ones a, 0)
  | 0x2F => (leadingZeros a, 0)
  | _ => (a, 0)

/-- The result of a lane and the flags it raises (R181, R184 to R187). -/
def LaneEntry.apply (e : LaneEntry) (latch : BitVec 8) (draw : Nat) (a b : Word) : Word × FlagSet :=
  let mode := RMode.ofCode e.rnd
  if 0x30 ≤ e.op then
    let (src, dst) := laneCvt e.op
    if e.scaled then
      let x := latched true latch (cvtNum src a.toNat)
      let r := convertNum dst mode draw x.1
      (cvtPlace dst r.bits, r.fl ||| x.2)
    else
      let r := convert src dst true mode draw a.toNat
      (cvtPlace dst r.bits, r.fl)
  else if e.fmt = 3 then laneIntOp e.op a b e.k1
  else
    let f := laneFloat e.fmt
    let n := f.eb + f.mb + 1
    let x := latched e.scaled latch (unpack f (low a n))
    let r := laneFloatOp f e.op mode e.scaled x.1 (low a n) (low b n) (low e.k1 n)
    (BitVec.ofNat 64 r.bits, r.fl ||| x.2)

/-! ## An element's passage (R180 to R182, R188) -/

/-- The lane of a tile. -/
def Tile.lane (t : Tile) (k : Nat) : Lane := tabGet Lane.idle t.lanes k

/-- A tile with a lane replaced. -/
def Tile.setLane (t : Tile) (k : Nat) (x : Lane) : Tile := { t with lanes := tabSet Lane.idle t.lanes k x }

/-- A plain value. -/
def LaneVal.clean (w : Word) : LaneVal := ⟨w, false, 0⟩

/-- The SR lanes of a slot (R188). -/
def Tile.srLanes (t : Tile) (slot : Nat) : Nat := ((upFrom 0 16).filter fun k => (t.laneEntry slot k).rnd == 4).length

/-- A data element reaches lane `k` of a slot (R180, R181): the hold register reloads from H0 when the element says so (Table 6.6; LOG 46
DEDUCED), the lane computes its result from A and B, raises its flags and keeps the result in its hold register, and the element goes on
with the result. `draw` is the draw that the lane takes when it rounds with SR. -/
def Tile.laneData (t : Tile) (slot k draw : Nat) (e : RowElem) : Tile × RowElem :=
  let c := t.laneEntry slot k
  let l := t.lane k
  let hold := if e.reload then LaneVal.clean c.h0 else l.hold
  let b := match c.bsel with
    | 0 => LaneVal.clean c.k0
    | 1 => e.tap
    | 2 => hold
    | _ => e.rowin
  let r := c.apply l.latch draw e.v.val b.val
  let v : LaneVal := ⟨r.1, e.v.exc || b.exc || FlagSet.exc r.2, e.v.cause ||| b.cause ||| FlagSet.cause r.2⟩
  ((t.raise r.2 fSRCLANE).setLane k { l with hold := v },
    { e with v := v, tap := e.v, draw := if c.rnd = 4 then e.draw + 1 else e.draw })

/-- A scale token reaches lane `k`: with SCALED = 1 the lane loads its latch (R182). -/
def Tile.laneScale (t : Tile) (slot k : Nat) (e : RowElem) : Tile × RowElem :=
  (if (t.laneEntry slot k).scaled then t.setLane k { t.lane k with latch := e.v.val.truncate 8 } else t, e)

/-- An element at its place in the row of a tile: at the first of a lane's six stages it reaches the lane (R179), which computes
its result there (LOG 15 DEDUCED). -/
def State.laneReach (s : State) (t : Nat) (e : RowElem) : State × RowElem :=
  if e.place % 6 ≠ 0 then (s, e)
  else
    let x := s.tile t
    let slot := x.spindle.cslot
    let r := s.region x.handle
    let y := if e.scale then x.laneScale slot (e.place / 6) e
      else x.laneData slot (e.place / 6) (drawOf r.info.seed (logicalOf r x) 6 e.draw) e
    (s.setTile t y.1, y.2)

/-- Elements of the row moved on by one stage each, in order (R179). -/
def rowShift (t : Nat) : State → List RowElem → State × List RowElem
  | s, [] => (s, [])
  | s, e :: es =>
    let (s1, e1) := s.laneReach t { e with place := e.place + 1 }
    let (s2, es1) := rowShift t s1 es
    (s2, e1 :: es1)

end Sys2Proof.Machine
end

