-- ==== Sys2Proof/Machine/MemInstr.lean ====
section
/-!
DEFINITION. LD, ST, LDX, STX, LDS, STS, PREF, CLEAN, INVAL, FENCE, SPB, FLA, SPW, the spill engine, and the delivery of deferred
faults (05_memory_queue_instructions.md R145 to R166), and the walker's own step (10_translation_and_traps.md R318).
-/
namespace Sys2Proof.Machine

/-- The address of a memory instruction of the issuing strand (R92). -/
def State.ea (s : State) (a b : BitVec 6) (scale : BitVec 3) (off : BitVec 21) : BitVec 56 :=
  effAddr (s.curStrand.rg a) (s.curStrand.rg b) scale off

/-- A loaded value: zero- or sign-extended from its size (R92). -/
def loaded (sx : Bool) (bs : List Byte) : Word :=
  let v := BitVec.ofNat 64 (leNat bs)
  if sx then signFrom v (8 * bs.length - 1) else v

/-- A natural alignment check (R147). -/
def aligned (s : State) (va : BitVec 56) (n : Nat) : M Unit := demand (va.toNat % n == 0) s .misaligned (va.zeroExtend 64)

/-! ## LD and ST (R151) -/

/-- LD. -/
def loadEff (d a b : BitVec 6) (scale : BitVec 3) (sx : Bool) (size : BitVec 2) (ord : Ord) (scope : Scope) (off : BitVec 21)
    (s : State) : M Eff := do
  let va := s.ea a b scale off
  let n := sizeBytes size
  aligned s va n
  let (s1, pa) ← strandPa s va false
  let (s2, bs) ← readPas (atHome ord scope) (va.zeroExtend 64) s1 (upFrom pa n)
  let s3 := s2.setCur (s2.curStrand.wg d (loaded sx bs))
  return .done (s3.acquireFor ord scope)

/-- LD (R151). -/
def execLd (d a b : BitVec 6) (scale : BitVec 3) (sx : Bool) (size : BitVec 2) (ord : Ord) (scope : Scope) (off : BitVec 21)
    (s : State) : Host.Outcome State Fault Refusal :=
  issueM s [d, a, b] (loadEff d a b scale sx size ord scope off s)

/-- ST: the data register is g[d]. -/
def storeEff (d a b : BitVec 6) (scale : BitVec 3) (size : BitVec 2) (ord : Ord) (scope : Scope) (off : BitVec 21) (s : State) :
    M Eff := do
  let va := s.ea a b scale off
  let n := sizeBytes size
  aligned s va n
  let (s1, pa) ← strandPa s va true
  let s2 := s1.releaseFor ord scope
  return .done (writePas (atHome ord scope) s2 (upFrom pa n) (natLe n (s.curStrand.rg d).toNat))

/-- ST (R151). -/
def execSt (d a b : BitVec 6) (scale : BitVec 3) (size : BitVec 2) (ord : Ord) (scope : Scope) (off : BitVec 21) (s : State) :
    Host.Outcome State Fault Refusal :=
  issueM s [d, a, b] (storeEff d a b scale size ord scope off s)

/-! ## LDX and STX (R152 to R155) -/

/-- The conversion format of a pointer format code; raw bytes have none (Table 2.6). FMT 9 counts as LOG6 among the pairs of R75
(LOG 50 DEDUCED). -/
def fmtOf (f : Nat) : CvtFmt :=
  match f with
  | 1 => .int8 | 2 => .int16 | 3 => .int32 | 4 => .fp16 | 5 => .bf16 | 6 => .fp32 | 8 => .int4
  | _ => .log6

/-- Bytes of an element that stands alone: 1, 2 or 4; 1 for INT4 pairs and 3 for LOG6 groups (R153). -/
def fmtBytes (f : Nat) : Nat :=
  match f with
  | 2 | 4 | 5 => 2
  | 3 | 6 => 4
  | 7 | 9 => 3
  | _ => 1

/-- Where an element lies (R153): its first byte, its field in that byte or group, and the scale byte of its block. -/
structure ElemAt where
  addr : BitVec 56
  fieldNo : Nat
  scaleAt : Option (BitVec 56)
deriving DecidableEq, Repr

/-- Where element `e` of a pointer lies (R153). -/
def elemAt (ptr : Word) (e : Int) : ElemAt :=
  let va : Int := (low ptr 56 : Nat)
  let f := field ptr 59 5
  let l : Int := (32 * 2 ^ field ptr 56 3 : Nat)
  let adr (x : Int) : BitVec 56 := BitVec.ofInt 56 x
  if f = 8 then ⟨adr (va + e / 2), (e % 2).toNat, none⟩
  else if f = 7 then ⟨adr (va + 3 * (e / 4)), (e % 4).toNat, none⟩
  else if f = 9 then
    let sb := va + e / l * (4 + 3 * l / 4)
    ⟨adr (sb + 4 + 3 * (e % l / 4)), (e % 4).toNat, some (adr sb)⟩
  else ⟨adr (va + (fmtBytes f : Nat) * e), 0, none⟩

/-- The element index of LDX and STX (R153). -/
def elemIndex (index : Word) (scale : BitVec 3) (off : BitVec 21) : Int :=
  (index <<< scale.toNat).toInt + off.toInt

/-- The code of an element in its bytes, read as a number (R56, R66). -/
def elemCode (f fieldNo raw : Nat) : Nat :=
  if f = 8 then natBits raw (4 * fieldNo) 4
  else if f = 7 ∨ f = 9 then natBits raw (6 * fieldNo) 6
  else raw

/-- Bytes with the code of an element replaced. -/
def elemPut (f fieldNo raw code : Nat) : Nat :=
  if f = 8 then raw - natBits raw (4 * fieldNo) 4 * 2 ^ (4 * fieldNo) + code % 16 * 2 ^ (4 * fieldNo)
  else if f = 7 ∨ f = 9 then raw - natBits raw (6 * fieldNo) 6 * 2 ^ (6 * fieldNo) + code % 64 * 2 ^ (6 * fieldNo)
  else code

/-- A memory element converted to a register format (R154). `e8` is the scale byte of FMT 9. -/
def fromMem (f : Nat) (rf : CvtFmt) (mode : RMode) (draw e8 code : Nat) : FRes :=
  if f = 0 then ⟨code, 0⟩
  else if f = 9 then
    if e8 = 255 then convertNum rf mode draw (.nan true)
    else convertNum rf mode draw ((log6Num code).scale ((e8 : Int) - 127))
  else convert (fmtOf f) rf true mode draw code

/-- A register value converted to a memory element (R154). -/
def toMem (f : Nat) (rf : CvtFmt) (mode : RMode) (draw e8 v : Nat) : FRes :=
  if f = 0 then ⟨v % 256, 0⟩
  else if f = 9 then
    if e8 = 255 then ⟨0x20, fNV⟩
    else convertNum .log6 mode draw ((cvtNum rf v).scale (127 - (e8 : Int)))
  else convert rf (fmtOf f) true mode draw v

/-- The steps that LDX and STX share before they move data: FORMAT_RESERVED, the mode of DYN (R75), MISALIGNED. Whether a conversion of FMT 9
narrows is decided by the LOG6 pair (LOG 50 DEDUCED). -/
def ldxStart (s : State) (ptr : Word) (rf : CvtFmt) (store : Bool) (at_ : ElemAt) : M RMode := do
  let f := field ptr 59 5
  demand (f < 10) s .formatReserved ptr
  let narrow := if store then rf.narrowing (fmtOf f) else (fmtOf f).narrowing rf
  let mode ← if f = 0 then .ok .rne else convMode .dyn narrow s
  demand (at_.addr.toNat % (if f = 7 ∨ f = 9 then 1 else fmtBytes f) == 0) s .misaligned (at_.addr.zeroExtend 64)
  return mode

/-- The scale byte of an element's block, read when it has one; 127 otherwise. -/
def readScale (home : Bool) (s : State) (at_ : ElemAt) (pas : List Nat) : M (State × Nat) :=
  match at_.scaleAt, pas with
  | some va, p :: ps => do
    let (s1, bs) ← readPas home (va.zeroExtend 64) s (p :: ps)
    return (s1, leNat bs)
  | _, _ => .ok (s, 127)

/-- LDX (LOG 50 DEDUCED). -/
def ldxEff (d a b : BitVec 6) (scale : BitVec 3) (rf : CvtFmt) (ord : Ord) (scope : Scope) (off : BitVec 21) (s : State) :
    M Eff := do
  let ptr := s.curStrand.rg a
  let f := field ptr 59 5
  let p := elemAt ptr (elemIndex (s.curStrand.rg b) scale off)
  let mode ← ldxStart s ptr rf false p
  let home := atHome ord scope
  let (s1, spa) ← strandPas false s p.scaleAt.toList
  let (s2, pas) ← strandPas false s1 (vaRange p.addr (fmtBytes f))
  let (s3, e8) ← readScale home s2 p spa
  let (s4, bs) ← readPas home (p.addr.zeroExtend 64) s3 pas
  let (draw, s5) := s4.drawFor mode
  let r := fromMem f rf mode draw e8 (elemCode f p.fieldNo (leNat bs))
  let w := if f = 0 then BitVec.ofNat 64 r.bits else cvtPlace rf r.bits
  return endFp ((s5.setCur (s5.curStrand.wg d w)).acquireFor ord scope) r.fl w 0

/-- LDX (R152 to R154). -/
def execLdx (d a b : BitVec 6) (scale : BitVec 3) (rf : CvtFmt) (ord : Ord) (scope : Scope) (off : BitVec 21) (s : State) :
    Host.Outcome State Fault Refusal :=
  issueM s [d, a, b] (ldxEff d a b scale rf ord scope off s)

/-- STX: a packed element is read, replaced and written back in the one step (R155); the reads, which can trap, come before the release
(R150). The scale byte of FMT 9 is read and not written (R154), and its leaf needs read permission only (LOG 124 DEDUCED). -/
def stxEff (d a b : BitVec 6) (scale : BitVec 3) (rf : CvtFmt) (ord : Ord) (scope : Scope) (off : BitVec 21) (s : State) :
    M Eff := do
  let ptr := s.curStrand.rg a
  let f := field ptr 59 5
  let p := elemAt ptr (elemIndex (s.curStrand.rg b) scale off)
  let mode ← ldxStart s ptr rf true p
  let home := atHome ord scope
  let n := fmtBytes f
  let (s1, spa) ← strandPas false s p.scaleAt.toList
  let (s2, pas) ← strandPas true s1 (vaRange p.addr n)
  let (s3, e8) ← readScale false s2 p spa
  let packed := f = 7 ∨ f = 8 ∨ f = 9
  let (s4, old) ← if packed then readPas home (p.addr.zeroExtend 64) s3 pas else .ok (s3, [])
  let s5 := s4.releaseFor ord scope
  let (draw, s6) := s5.drawFor mode
  let r := toMem f rf mode draw e8 (s.curStrand.rg d).toNat
  let raw := elemPut f p.fieldNo (leNat old) r.bits
  return endFp (writePas home s6 pas (natLe n raw)) r.fl (BitVec.ofNat 64 r.bits) 0

/-- STX (R152 to R155). -/
def execStx (d a b : BitVec 6) (scale : BitVec 3) (rf : CvtFmt) (ord : Ord) (scope : Scope) (off : BitVec 21) (s : State) :
    Host.Outcome State Fault Refusal :=
  issueM s [d, a, b] (stxEff d a b scale rf ord scope off s)

/-! ## LDS and STS (R146, R156) -/

/-- The checks of a scratchpad access: alignment, then the map of Table 5.1. -/
def spadCheck (s : State) (off : BitVec 56) (n : Nat) (store : Bool) : M Unit := do
  aligned s off n
  match s.curTile.spadCause off.toNat store with
  | some c => trapM s c (off.zeroExtend 64)
  | none => return ()

/-- LDS. Its orders are met by the program order of the model (LOG 7 DEDUCED). -/
def ldsEff (d a b : BitVec 6) (scale : BitVec 3) (sx : Bool) (size : BitVec 2) (off : BitVec 21) (s : State) : M Eff := do
  let o := s.ea a b scale off
  let n := sizeBytes size
  spadCheck s o n false
  return .done (s.setCur (s.curStrand.wg d (loaded sx (s.curTile.spadRead o.toNat n))))

/-- LDS (R156). -/
def execLds (d a b : BitVec 6) (scale : BitVec 3) (sx : Bool) (size : BitVec 2) (_ord : Ord) (_scope : Scope) (off : BitVec 21)
    (s : State) : Host.Outcome State Fault Refusal :=
  issueM s [d, a, b] (ldsEff d a b scale sx size off s)

/-- STS. -/
def stsEff (d a b : BitVec 6) (scale : BitVec 3) (size : BitVec 2) (off : BitVec 21) (s : State) : M Eff := do
  let o := s.ea a b scale off
  let n := sizeBytes size
  spadCheck s o n true
  return .done (s.setCurTile (s.curTile.spadWrite o.toNat (natLe n (s.curStrand.rg d).toNat)))

/-- STS (R156). -/
def execSts (d a b : BitVec 6) (scale : BitVec 3) (size : BitVec 2) (_ord : Ord) (_scope : Scope) (off : BitVec 21) (s : State) :
    Host.Outcome State Fault Refusal :=
  issueM s [d, a, b] (stsEff d a b scale size off s)

/-! ## PREF, CLEAN, INVAL (R157) -/

/-- The physical address that the TLBs, or else a walk that installs nothing, give (LOG 24 DEDUCED). -/
def State.peekPa (s : State) (t : Nat) (va : BitVec 56) : Option Nat :=
  let ctx := (s.regionOf t).info.ctx
  let gen := s.genOf ctx
  let found := match (s.tile t).dtlb.find? fun e => e.hits ctx gen va with
    | some e => some e
    | none => (s.cluster (clusterOf t)).l2tlb.find? fun e => e.hits ctx gen va
  let pa := match found with
    | some e => some (e.pa.toNat + va.toNat % 2 ^ e.z)
    | none => match s.walk ctx va with
      | .leaf _ e z => some (ptePa e + va.toNat % 2 ^ z)
      | _ => none
  pa.filter fun p => s.reach p == .ok

/-- A line operation on the line of the effective address; without a translation nothing happens. -/
def lineOp (f : State → Nat → Nat → State) (a b : BitVec 6) (scale : BitVec 3) (off : BitVec 21) (s : State) :
    Host.Outcome State Fault Refusal :=
  issue s [a, b] (.done (match s.peekPa s.cur.tile (s.ea a b scale off) with
    | some pa => f s s.cur.tile (pa / 32)
    | none => s))

/-- PREF (R157). -/
def execPref (a b : BitVec 6) (scale : BitVec 3) (off : BitVec 21) (s : State) : Host.Outcome State Fault Refusal :=
  lineOp State.fillLine a b scale off s

/-- CLEAN (R157). -/
def execClean (a b : BitVec 6) (scale : BitVec 3) (off : BitVec 21) (s : State) : Host.Outcome State Fault Refusal :=
  lineOp State.cleanLine a b scale off s

/-- INVAL (R157). -/
def execInval (a b : BitVec 6) (scale : BitVec 3) (off : BitVec 21) (s : State) : Host.Outcome State Fault Refusal :=
  lineOp State.invalLine a b scale off s

/-- FENCE (R158). -/
def execFence (ord : Ord) (scope : Scope) (s : State) : Host.Outcome State Fault Refusal :=
  issue s [] (.done ((s.releaseFor ord scope).acquireFor ord scope))

/-! ## Spill and fill (R159 to R166) -/

/-- SPB and FLA at issue (R159). -/
def spillEff (fill : Bool) (d a b : BitVec 6) (scale : BitVec 3) (cnt : BitVec 4) (off : BitVec 21) (s : State) : M Eff := do
  let va := s.ea a b scale off
  aligned s va 8
  let regs := gRange d (cnt.toNat + 1)
  let x := s.curStrand
  await (!x.holdsAny regs) s
  let tokens := regs.foldl (fun t r => if r = 0 then t else setBit t r.toNat true) x.tokens
  let s1 := s.setCur { x with tokens := tokens, spillq := x.spillq ++ [⟨fill, d, cnt.toNat + 1, va, 0⟩] }
  return .done (if x.spillq.isEmpty && x.interrupted.isNone then s1.push (.spillTransfer s.cur.tile s.cur.strand) else s1)

/-- SPB (R159). -/
def execSpb (d a b : BitVec 6) (scale : BitVec 3) (cnt : BitVec 4) (off : BitVec 21) (s : State) :
    Host.Outcome State Fault Refusal :=
  issueM s [a, b] (spillEff false d a b scale cnt off s)

/-- FLA (R159). -/
def execFla (d a b : BitVec 6) (scale : BitVec 3) (cnt : BitVec 4) (off : BitVec 21) (s : State) :
    Host.Outcome State Fault Refusal :=
  issueM s [a, b] (spillEff true d a b scale cnt off s)

/-- The spill engine has a transfer queued or in progress. -/
def Strand.spilling (x : Strand) : Bool := !x.spillq.isEmpty || x.interrupted.isSome

/-- SPW (R163). -/
def execSpw (s : State) : Host.Outcome State Fault Refusal :=
  issueM s [] (do await (!s.curStrand.spilling) s; return .done s)

/-- The register of the word that a transfer moves next. -/
def Transfer.reg (x : Transfer) : BitVec 6 := BitVec.ofNat 6 (x.first.toNat + x.next)

/-- The address of the word that a transfer moves next (R160). -/
def Transfer.addr (x : Transfer) : BitVec 56 := x.ea + BitVec.ofNat 56 (8 * x.next)

/-- A fault of the transfer at the head of a strand's spill engine (R165). -/
def State.spillFault (s : State) (t : Nat) (k : Fin 4) (x : Transfer) (c : Cause) : State :=
  let y := s.strandOf t k
  s.setStrandOf t k { y with
    spillq := y.spillq.tail
    interrupted := some x
    kspill := BitVec.ofNat 64 ((if x.fill then 128 else 0) + 64 + x.reg.toNat)
    deferred := y.deferred ++ [⟨c, x.addr.zeroExtend 64⟩] }

/-- Bytes read through a tile's L1; none when one of them holds an uncorrectable error. -/
def readViaAll (t : Nat) : State → List Nat → State × Option (List Byte)
  | s, [] => (s, some [])
  | s, pa :: pas =>
    match s.readVia t pa with
    | (s1, none) => (s1, none)
    | (s1, some b) =>
      match readViaAll t s1 pas with
      | (s2, some bs) => (s2, some (b :: bs))
      | (s2, none) => (s2, none)

/-- Bytes written through a tile's L1. -/
def writeViaAll (t : Nat) : State → List Nat → List Byte → State
  | s, pa :: pas, b :: bs => writeViaAll t (s.writeVia t pa b) pas bs
  | s, _, _ => s

/-- The word of a transfer is moved: its token is released, and the transfer goes on (R160). -/
def State.spillNext (s : State) (t : Nat) (k : Fin 4) (x : Transfer) : State :=
  let y := s.strandOf t k
  s.setStrandOf t k { y with
    tokens := setBit y.tokens x.reg.toNat false
    spillq := { x with next := x.next + 1 } :: y.spillq.tail }

/-- The words of the head transfer that are left to move, up to `fuel`, until one faults or waits. -/
def spillWords (t : Nat) (k : Fin 4) : Nat → State → State
  | 0, s => s
  | fuel + 1, s =>
    match (s.strandOf t k).spillq with
    | [] => s
    | x :: rest =>
      if x.count ≤ x.next then
        let s1 := s.setStrandOf t k { s.strandOf t k with spillq := rest }
        if rest.isEmpty then s1 else s1.push (.spillTransfer t k)
      else
        match s.strandTrans t k 2 x.addr (!x.fill) with
        | (s1, .wait) => s1.push (.spillTransfer t k)
        | (s1, .recall) => s1.push (.spillTransfer t k)
        | (s1, .fault c) => s1.spillFault t k x c
        | (s1, .ok pa) =>
          if x.fill then
            match readViaAll t s1 (upFrom pa 8) with
            | (s2, none) => s2.spillFault t k x .memUncorrectable
            | (s2, some bs) =>
              let s3 := s2.setStrandOf t k ((s2.strandOf t k).wg x.reg (BitVec.ofNat 64 (leNat bs)))
              spillWords t k fuel (s3.spillNext t k x)
          else
            let s2 := writeViaAll t s1 (upFrom pa 8) (natLe 8 ((s1.strandOf t k).rg x.reg).toNat)
            spillWords t k fuel (s2.spillNext t k x)

/-- SPILL_TRANSFER (R160, R165): the spill engine of a strand moves the words of its head transfer. -/
def execSpillTransfer (t : Nat) (k : Fin 4) (s : State) : Host.Outcome State Fault Refusal :=
  .next (if s.active t && (s.strandOf t k).interrupted.isNone then spillWords t k 17 s else s)

/-- DEFERRED_FAULT_DELIVERY (R166, R197, R205): the first fault recorded for the issuing strand is taken as a trap at its next
instruction, a waiting one included; a second one waits for the instruction after that, which is the handler's first (LOG 45 DEDUCED). -/
def execDeferredFaultDelivery (s : State) : Host.Outcome State Fault Refusal :=
  .next (match s.curStrand.deferred with
    | [] => s
    | f :: rest =>
      let x := s.curStrand
      takeTrap (s.setCur { x with deferred := rest, parked := if x.priv then x.parked else x.park }) f.cause f.ktval x.pc)

/-- PAGE_WALK (R317, R318, R323): a walker serves a miss of a strand, as the access itself does in its own step: it installs the
translation with A, and D for a store, or makes the page request of an invalid entry. The strand's marks and traps are its
access's own. -/
def execPageWalk (t : Nat) (k : Fin 4) (va : BitVec 56) (write : Bool) (s : State) : Host.Outcome State Fault Refusal :=
  .next (if s.active t then
      let ctx := (s.regionOf t).info.ctx
      match s.install t true ctx va write (s.strandOf t k).priv with
      | (s1, .ok _) => s1
      | (s1, .away) => s1.askRecall ctx va
      | (s1, .fail _) => s1
      | (s1, .invalid) => (s1.request t 1 ctx va write (s.tile t).row (s.tile t).col k.val).1
    else s)

end Sys2Proof.Machine
end

