-- ==== Sys2Proof/Machine/Spindle.lean ====
section
/-!
DEFINITION. The Spindle: its instructions, the execution of its entries through the lane row (06_lane_row_instructions.md R189 to
R202, 01_machine_state.md R34), and ENDFIRE (04_scalar_and_control.md R134).
-/
namespace Sys2Proof.Machine

/-- The state with a tile's Spindle replaced. -/
def State.setSpindle (s : State) (t : Nat) (x : Spindle) : State := s.setTile t { s.tile t with spindle := x }

/-- The Spindle of the issuing strand's tile. -/
def State.curSpindle (s : State) : Spindle := s.curTile.spindle

/-- The state with the Spindle of the issuing strand's tile replaced. -/
def State.setCurSpindle (s : State) (x : Spindle) : State := s.setSpindle s.cur.tile x

/-! ## Ownership (R34) -/

/-- A Spindle-group instruction of the issuing strand needs ownership: it has it, gains it while nobody owns the Spindle, or takes
its place and waits. The current slot is 0 when ownership begins (R195). -/
def spindleOwn (s : State) : M State :=
  let x := s.curSpindle
  let k := s.cur.strand
  if x.owner = .strand k then .ok s
  else if x.owner = .none then .ok (s.setCurSpindle { x with owner := .strand k, cslot := 0, places := x.places.erase k })
  else waitM (s.setCurSpindle { x with places := if x.places.contains k then x.places else x.places ++ [k] })

/-- A strand waits at issue of a Spindle-group instruction: neither in a trap handler nor halted, and its instruction has been tried. -/
def Tile.waitsForSpindle (t : Tile) (k : Fin 4) : Bool :=
  let x := t.strand k
  let opc := field (tabGet 0 t.code x.pc.toNat) 55 9
  !x.priv && !x.halted && x.deferred.isEmpty && decide (0 < x.waited) && decide (0x100 ≤ opc ∧ opc ≤ 0x109)

/-- Ownership becomes free, and passes to the earliest-placed strand that waits at issue (R34). -/
def Tile.freeSpindle (t : Tile) : Tile :=
  let x := t.spindle
  match x.places.find? t.waitsForSpindle with
  | some k => { t with spindle := { x with owner := .strand k, cslot := 0, places := x.places.erase k } }
  | none => { t with spindle := { x with owner := .none } }

/-! ## Entering entries (R195, R196) -/

/-- Number of a run entry's issue. -/
def SpEntry.issueNo : SpEntry → Option Nat
  | .run id _ _ _ _ _ _ => some id
  | _ => none

/-- VRUN entries that are past their place and wait for their last result (Table 6.6). -/
def Spindle.unretired (x : Spindle) : Nat :=
  let held := x.entries.filterMap SpEntry.issueNo
  ((x.runs.map (·.entry)).eraseDups.filter fun e => !held.contains e).length

/-- Whether `depth` open loops close within some entries. -/
def loopCloses : Nat → List SpEntry → Bool
  | 0, _ => true
  | _, [] => false
  | d + 1, .loop _ n :: r => loopCloses (if n = 0 then d + 1 else d + 2) r
  | d + 1, .back _ :: r => loopCloses d r
  | d + 1, _ :: r => loopCloses (d + 1) r

/-- Every occupied entry lies in a loop whose VEND has not been issued. -/
def Spindle.allOpen (x : Spindle) : Bool :=
  x.unretired == 0 && match x.entries with
    | .loop _ n :: r => n != 0 && !loopCloses 1 r
    | _ => false

/-- KTVAL of SPINDLE_STATE (R196). -/
def spindleTval (k reason : Nat) : Word := BitVec.ofNat 64 (k * 256 + reason)

/-- The innermost open counter. -/
def Spindle.innermost (x : Spindle) : Nat := x.openLoops.headD 0

/-- An entry needs room: a full Spindle waits, or takes SPINDLE_STATE with reason 3. -/
def spindleRoom (s : State) : M Unit := do
  let x := s.curSpindle
  if x.entries.length + x.unretired < 16 then return ()
  else
    demand (!x.allOpen) s .spindleState (spindleTval x.innermost 3)
    waitM s

/-- An entry of the owner enters the Spindle; the body of a loop of no passes is discarded instead (Table 6.6). -/
def spindleEnter (s : State) (e : SpEntry) : M State := do
  if s.curSpindle.discard ≠ 0 then return s
  else
    spindleRoom s
    let x := s.curSpindle
    return (s.setCurSpindle { x with entries := x.entries ++ [e] }).ask (.spindleEntryExecute s.cur.tile)

/-! ## VCFG, VLOOP, VEND, VSYNC (R199, R201) -/

/-- VCFG: the slot is checked first. -/
def vcfgEff (v : Word) (s : State) : M Eff := do
  demand (v.toNat ≤ 3) s .laneConfig v
  match s.curTile.badLane v.toNat (s.feature 6) with
  | some k => trapM s .laneConfig (BitVec.ofNat 64 (0x10000 + k * 256 + v.toNat))
  | none =>
    let s1 ← spindleOwn s
    return .done (← spindleEnter s1 (.cfg v.toNat))

/-- VCFG (R199). -/
def execVcfg (b : BitVec 6) (s : State) : Host.Outcome State Fault Refusal :=
  issueM s [b] (vcfgEff (s.curStrand.rg b) s)

/-- VCFG with an immediate (R199). -/
def execVcfgI (imm : BitVec 32) (s : State) : Host.Outcome State Fault Refusal := issueM s [] (vcfgEff (zx32 imm) s)

/-- VLOOP: a loop of no passes enters itself only, and its body is discarded as it arrives. -/
def vloopEff (k : Nat) (n : Nat) (s : State) : M Eff := do
  let s1 ← spindleOwn s
  let x := s1.curSpindle
  demand (!x.openLoops.contains k) s1 .spindleState (spindleTval k 2)
  let s2 ← spindleEnter s1 (.loop k n)
  let y := s2.curSpindle
  return .done (s2.setCurSpindle { y with
    openLoops := k :: y.openLoops
    discard := if y.discard ≠ 0 ∨ n = 0 then y.discard + 1 else 0 })

/-- VLOOP (R201). -/
def execVloop (d : BitVec 2) (b : BitVec 6) (s : State) : Host.Outcome State Fault Refusal :=
  issueM s [b] (vloopEff d.toNat (low (s.curStrand.rg b) 32) s)

/-- VLOOP with an immediate (R201). -/
def execVloopI (d : BitVec 2) (imm : BitVec 32) (s : State) : Host.Outcome State Fault Refusal :=
  issueM s [] (vloopEff d.toNat imm.toNat s)

/-- VEND. -/
def vendEff (k : Nat) (s : State) : M Eff := do
  let s1 ← spindleOwn s
  demand (s1.curSpindle.openLoops.head? == some k) s1 .spindleState (spindleTval k 1)
  let s2 ← spindleEnter s1 (.back k)
  let y := s2.curSpindle
  return .done (s2.setCurSpindle { y with openLoops := y.openLoops.tail, discard := y.discard - 1 })

/-- VEND (R201). -/
def execVend (d : BitVec 2) (s : State) : Host.Outcome State Fault Refusal := issueM s [] (vendEff d.toNat s)

/-- The Spindle holds no entry and no run. -/
def Spindle.isEmpty (x : Spindle) : Bool := x.entries.isEmpty && x.runs.isEmpty

/-- VSYNC: waits for the empty Spindle and releases ownership. -/
def vsyncEff (s : State) : M Eff := do
  let s1 ← spindleOwn s
  let x := s1.curSpindle
  demand x.openLoops.isEmpty s1 .spindleState (spindleTval x.innermost 4)
  await x.isEmpty s1
  return .done ((s1.setCurTile s1.curTile.freeSpindle).ask (.firingDispatch s1.cur.tile))

/-- VSYNC (R199). -/
def execVsync (s : State) : Host.Outcome State Fault Refusal := issueM s [] (vsyncEff s)

/-! ## VRUN (R200) -/

/-- Binding accepted as a source (Table 6.4). -/
def QBind.feedsRow : QBind → Bool
  | .consumer _ => true
  | .output _ => true
  | .arrive _ => true
  | _ => false

/-- The queue register of a side, if it is one. -/
def Side.queue? : Side → Option Nat
  | .queue q => some q
  | _ => none

/-- VRUN. With n = 0 it passes its operand traps and does nothing: it neither waits for the Spindle nor takes it (R200; LOG 48 DEDUCED). -/
def vrunEff (src dst : Side) (n : Nat) (keep : Bool) (ew : BitVec 2) (s : State) : M Eff := do
  let t := s.curTile
  let pc := s.curStrand.pc.toNat
  let qs := src.queue?.toList ++ dst.queue?.toList
  match qs.find? fun q => t.queue q == .unbound with
  | some q => trapM s .queueUnbound (BitVec.ofNat 64 q)
  | none =>
    let bad := src.queue?.toList.filter (fun q => !(t.queue q).feedsRow) ++ dst.queue?.toList.filter fun q => !(t.queue q).pushes
    match bad with
    | q :: _ => trapM s .queueDirection (BitVec.ofNat 64 q)
    | [] =>
      demand (src != dst || src.queue?.isSome) s .laneRun (BitVec.ofNat 64 (2 * 2 ^ 48 + pc))
      if n = 0 then return .done s
      else
        let s1 ← spindleOwn s
        let x := s1.curSpindle
        let s2 ← spindleEnter s1 (.run x.nextRun src dst n keep (2 ^ (3 - ew.toNat)) pc)
        return .done (s2.setCurSpindle { s2.curSpindle with nextRun := x.nextRun + 1 })

/-- The element count of a VRUN (Table 6.8). -/
def runLen (x : Strand) : RunLen → Nat
  | .reg b => low (x.rg b) 32
  | .imm n => n.toNat

/-- The register that a count names. -/
def runRegs : RunLen → List (BitVec 6)
  | .reg b => [b]
  | .imm _ => []

/-- VRUN from ring to ring (R200). -/
def execVrunHh (d a : BitVec 4) (len : RunLen) (keep : Bool) (ew : BitVec 2) (s : State) : Host.Outcome State Fault Refusal :=
  issueM s (runRegs len) (vrunEff (.ring a.toNat) (.ring d.toNat) (runLen s.curStrand len) keep ew s)

/-- VRUN from ring to queue (R200). -/
def execVrunHq (d : BitVec 5) (a : BitVec 4) (len : RunLen) (keep : Bool) (ew : BitVec 2) (s : State) :
    Host.Outcome State Fault Refusal :=
  issueM s (runRegs len) (vrunEff (.ring a.toNat) (.queue d.toNat) (runLen s.curStrand len) keep ew s)

/-- VRUN from queue to ring (R200). -/
def execVrunQh (d : BitVec 4) (a : BitVec 5) (len : RunLen) (keep : Bool) (ew : BitVec 2) (s : State) :
    Host.Outcome State Fault Refusal :=
  issueM s (runRegs len) (vrunEff (.queue a.toNat) (.ring d.toNat) (runLen s.curStrand len) keep ew s)

/-- VRUN from queue to queue (R200). -/
def execVrunQq (d a : BitVec 5) (len : RunLen) (keep : Bool) (s : State) : Host.Outcome State Fault Refusal :=
  issueM s (runRegs len) (vrunEff (.queue a.toNat) (.queue d.toNat) (runLen s.curStrand len) keep 0 s)

/-! ## Taking from and putting to a side of an engine (Table 6.4, R206) -/

/-- What a take from a side, or a put to one, comes to: it waits, it exceeds the reservation of a channel, or it is done; with the
state after it, the token taken, and the position reached in the ring slot. -/
inductive Moved where
  | wait
  | rate (ch : Nat)
  | ok (s : State) (v : Token) (pos : Nat)

/-- The firing that an engine of a tile acts for. -/
abbrev FiringRef := Option Firing × (State → Firing → State)

/-- One element of `ew` bytes from a ring's slot at position `pos`; the slot is advanced after its last element (R189). Where a strand's CBADV
has moved DRAIN in mid-slot, the row goes on at the same position of the new slot (LOG 116 DEDUCED). -/
def ringTake (s : State) (t h ew pos : Nat) : Moved :=
  let x := s.tile t
  let r := x.ring h
  if pos = 0 ∧ r.filled = 0 then .wait
  else
    let v := leNat (x.spadRead (r.drainAt + pos * ew) ew)
    let last := r.slotBytes ≤ (pos + 1) * ew
    .ok (if last then s.setTile t (x.setRing h (r.advDrain 1)) else s) { Token.idle with payload := BitVec.ofNat 64 v }
      (if last then 0 else pos + 1)

/-- One element of `ew` bytes to a ring's slot at position `pos`. -/
def ringPut (s : State) (t h ew pos : Nat) (v : Word) : Moved :=
  let x := s.tile t
  let r := x.ring h
  if pos = 0 ∧ r.free = 0 then .wait
  else
    let y := x.spadWrite (r.fillAt + pos * ew) (natLe ew v.toNat)
    let last := r.slotBytes ≤ (pos + 1) * ew
    .ok (s.setTile t (if last then y.setRing h (r.advFill 1) else y)) Token.idle (if last then 0 else pos + 1)

/-- The next token of a port's buffer. -/
def bufferTake (s : State) (t p : Nat) : Moved :=
  let x := s.tile t
  match x.port p with
  | [] => .wait
  | v :: r => .ok (s.setTile t (x.setPort p r)) v 0

/-- A token put into a port's buffer. -/
def bufferPut (s : State) (t p : Nat) (v : Token) : Moved :=
  let x := s.tile t
  if x.portRoom p = 0 then .wait else .ok (s.setTile t (x.setPort p (x.port p ++ [v]))) v 0

/-- The next token of a channel, from what a firing has reserved. -/
def channelTake (s : State) (t ch : Nat) (f : FiringRef) : Moved :=
  match f.1 with
  | none => .rate ch
  | some g =>
    if (s.tile t).leftIn g ch = 0 then .rate ch
    else
      let (v, g1, s1) := s.firingPop t g ch
      .ok (f.2 s1 g1) v 0

/-- A token put into a channel, into what a firing has reserved. -/
def channelPut (s : State) (t ch : Nat) (f : FiringRef) (v : Token) : Moved :=
  match f.1 with
  | none => .rate ch
  | some g =>
    if (s.tile t).leftOut g ch = 0 then .rate ch
    else
      let (g1, s1) := s.firingPush t g ch [(v.payload, v.scale, v.exc)]
      .ok (f.2 s1 g1) v 0

/-- The next token of a queue register. -/
def queueSideTake (s : State) (t q : Nat) (f : FiringRef) : Moved :=
  match (s.tile t).queue q with
  | .consumer ch => channelTake s t ch f
  | .output p => bufferTake s t p
  | .arrive n => bufferTake s t (arrivePort n)
  | _ => .wait

/-- A token put to a queue register. -/
def queueSidePut (s : State) (t q : Nat) (f : FiringRef) (v : Token) : Moved :=
  match (s.tile t).queue q with
  | .producer ch => channelPut s t ch f v
  | .input p => bufferPut s t p v
  | _ => .wait

/-! ## Execution through the row (R189, R195, R197) -/

/-- The firing that the Spindle's owner runs: the owner strand's, or a lane-row firing. -/
def State.rowFiring (s : State) (t : Nat) : FiringRef :=
  match (s.tile t).spindle.owner with
  | .strand k => ((s.strandOf t k).firing, fun s f => s.setStrandOf t k { s.strandOf t k with firing := some f })
  | .firing _ => ((s.tile t).spindle.firing, fun s f => s.setSpindle t { (s.tile t).spindle with firing := some f })
  | .none => (none, fun s _ => s)

/-- Channel of a lane-row firing's only input or output (R192). -/
def laneChannel (t : Tile) (f : Option Firing) (out : Bool) : Nat :=
  match f with
  | some g => (((if out then (t.actor g.actor).outs else (t.actor g.actor).ins).map (·.ch)).headD 0)
  | none => 0

/-- The next source token of a run. -/
def runTake (s : State) (t : Nat) (r : Run) : Moved :=
  let f := s.rowFiring t
  match r.src with
  | .ring h => ringTake s t h r.ew r.srcPos
  | .queue q => queueSideTake s t q f
  | .port _ => channelTake s t (laneChannel (s.tile t) f.1 false) f

/-- A result of a run that leaves the row: written with a sink record for a flagged one in a ring; a scale token is discarded at a
ring (R182, R193). -/
def runPut (s : State) (t : Nat) (r : Run) (e : RowElem) : Moved :=
  let f := s.rowFiring t
  let v : Token := ⟨e.v.val, e.scale, e.v.exc, Token.idle.origin⟩
  match r.dst with
  | .ring h =>
    if e.scale then .ok s v r.dstPos
    else match ringPut s t h r.ew r.dstPos e.v.val with
      | .ok s1 _ pos =>
        let who := sinkWho f.1
        let w := BitVec.ofNat 64 (low e.v.val (8 * r.ew))
        .ok (if e.v.exc then s1.sink t ⟨1, e.v.cause, e.rowin.exc, w, e.index, who.1, who.2⟩ else s1) v pos
      | m => m
  | .queue q => queueSidePut s t q f v
  | .port _ => channelPut s t (laneChannel (s.tile t) f.1 true) f v

/-- A run replaced in a list of runs. -/
def putRun (l : List Run) (r : Run) : List Run := l.map fun x => if x.id = r.id then r else x

/-- A fault of a run (R197): it and all later entries are discarded, loops close, and LANE_RUN is recorded for the owner, or freezes
the region of a lane-row firing (R192). -/
def State.rowFault (s : State) (t : Nat) (r : Run) (ch : Nat) : State :=
  let x := (s.tile t).spindle
  let keep := x.runs.takeWhile fun y => y.id != r.id
  let s1 := s.setSpindle t { x with
    entries := []
    pos := 0
    openLoops := []
    discard := 0
    loops := []
    runs := keep
    pipe := x.pipe.filter fun e => keep.any fun y => y.id == e.run }
  let tval := BitVec.ofNat 64 (2 ^ 48 + ch % 65536 * 2 ^ 32 + min r.taken 0x7FFFF * 8192 + r.pc % 8192)
  match x.owner with
  | .strand k =>
    let y := s1.strandOf t k
    s1.setStrandOf t k { y with deferred := y.deferred ++ [⟨.laneRun, tval⟩] }
  | .firing _ => s1.freezeRegion (s1.tile t).handle (some .laneRun) none []
  | .none => s1

/-- The last result of a run is written: a partly written slot is advanced, and a lane-row firing may commit (R189, R192). -/
def State.runEnd (s : State) (t : Nat) (r : Run) : State :=
  let x := s.tile t
  let y := match r.dst with
    | .ring h => if r.dstPos = 0 then x else x.setRing h ((x.ring h).advFill 1)
    | _ => x
  let z := { y with spindle := { y.spindle with runs := y.spindle.runs.filter fun q => q.id != r.id } }
  match z.spindle.owner with
  | .firing _ => (s.setTile t { z with spindle := { z.spindle with finished := true } }).ask (.engineFiringCommit t 1)
  | _ => s.setTile t z

/-- Stages of the row: sixteen lanes of six (R179). -/
def rowPlaces : Nat := 96

/-- What the row's exit does in a cycle: nothing stands in the last stage or its element leaves, the exit is blocked, or the put faults. -/
inductive RowExit where
  | free (s : State)
  | blocked
  | fault (s : State)

/-- The row's exit in a cycle: the element that has passed the last stage leaves the row and is put to its run's destination. -/
def State.rowOut (s : State) (t : Nat) : RowExit :=
  let x := (s.tile t).spindle
  match x.pipe with
  | [] => .free s
  | e :: rest =>
    if e.place + 1 < rowPlaces then .free s
    else match x.runs.find? fun r => r.id == e.run with
      | none => .free (s.setSpindle t { x with pipe := rest })
      | some r =>
        match runPut s t r e with
        | .wait => .blocked
        | .rate ch => .fault (s.rowFault t r ch)
        | .ok s1 _ pos =>
          let r1 := { r with left := r.left + 1, dstPos := pos }
          let y := (s1.tile t).spindle
          let s2 := s1.setSpindle t { y with pipe := rest, runs := putRun y.runs r1 }
          .free (if r1.left = r1.n then s2.runEnd t r1 else s2)

/-- A row cycle up to its input: the exit, and every element that is left moves on by one stage. None when the exit is blocked: the
whole row stalls (R179). -/
def State.rowCycle (s : State) (t : Nat) : Option State :=
  let shift (s : State) : State :=
    let (s1, es) := rowShift t s (s.tile t).spindle.pipe
    s1.setSpindle t { (s1.tile t).spindle with pipe := es }
  match s.rowOut t with
  | .blocked => none
  | .free s1 => some (shift s1)
  | .fault s1 => some (shift s1)

/-- The element that a source token is as it enters the row. -/
def Run.elem (r : Run) (v : Token) (srLanes : Nat) : RowElem :=
  let x : LaneVal := if v.scale then LaneVal.clean v.payload else ⟨v.payload, v.exc, 0⟩
  ⟨r.id, r.taken, 0, x, x, x, BitVec.ofNat 48 (r.c0 + r.data * srLanes), r.data == 0 && !r.keep, v.scale⟩

/-- A run after its next source token, which left its ring slot at a position. -/
def Run.took (r : Run) (v : Token) (pos : Nat) : Run :=
  { r with taken := r.taken + 1, data := if v.scale then r.data else r.data + 1, srcPos := pos }

/-- A run takes its next source token, which enters lane 0; a bubble enters when it waits. The draws of a data element are counted as it
enters (R188), and a partly read source slot is advanced at the end of the run (Table 6.4). A run that exceeds its reservation faults. -/
def State.runFeed (s : State) (t : Nat) (r : Run) : State :=
  match runTake s t r with
  | .wait => s
  | .rate ch => s.rowFault t r ch
  | .ok s1 v pos =>
    let n := (s1.tile t).srLanes (s1.tile t).spindle.cslot
    let (s2, e) := s1.laneReach t (r.elem v n)
    let r1 := r.took v pos
    let y := s2.tile t
    let z := match r.src with
      | .ring h => if r1.taken = r1.n ∧ pos ≠ 0 then y.setRing h ((y.ring h).advDrain 1) else y
      | _ => y
    s2.setTile t { z with
      spindle := { y.spindle with runs := putRun y.spindle.runs r1, pipe := y.spindle.pipe ++ [e] }
      draws := if v.scale ∨ n = 0 then z.draws else tabSet (0#48) z.draws 6 (BitVec.ofNat 48 (r1.c0 + r1.data * n)) }

/-- Entries that stand before every executing loop have executed, and leave the Spindle (Table 6.6). -/
def Spindle.prune (x : Spindle) : Spindle :=
  let base := match x.loops.getLast? with
    | some l => l.2
    | none => x.pos
  { x with entries := x.entries.drop base, pos := x.pos - base, loops := x.loops.map fun l => (l.1, l.2 - base) }

/-- The Spindle with the entry at its position executed. -/
def Spindle.next (x : Spindle) : Spindle := { x with pos := x.pos + 1 }.prune

/-- A VLOOP or a VEND at its position executes (Table 6.6). -/
def Spindle.control (x : Spindle) : SpEntry → Spindle
  | .loop k n =>
    let y := { x with counters := tabSet 0 x.counters k (BitVec.ofNat 32 n) }
    (if n = 0 then y else { y with loops := (k, x.pos) :: x.loops }).next
  | .back k =>
    let v := tabGet 0 x.counters k - 1
    let y := { x with counters := tabSet 0 x.counters k v }
    match x.loops with
    | (_, p) :: rest => if v = 0 then { y with loops := rest }.next else { y with pos := p + 1 }
    | [] => y.next
  | _ => x

/-- The run of the entry at the Spindle's position: the one that has begun and still takes tokens, or a new one. -/
def Spindle.currentRun (x : Spindle) (t : Tile) (id : Nat) (src dst : Side) (n : Nat) (keep : Bool) (ew pc : Nat) : Run × Spindle :=
  match x.runs.find? fun r => r.entry == id && decide (r.taken < r.n) with
  | some r => (r, x)
  | none =>
    let r : Run := ⟨x.nextRun, id, src, dst, n, keep, ew, pc, 0, 0, 0, 0, 0, (tabGet (0#48) t.draws 6).toNat⟩
    (r, { x with runs := x.runs ++ [r], nextRun := x.nextRun + 1 })

/-- The entry at the Spindle's position executes; a run takes one source token (R179, R195). -/
def State.spindleEntry (s : State) (t : Nat) : State :=
  let x := (s.tile t).spindle
  match x.entries[x.pos]? with
  | none => s
  | some (.cfg k) => if k = x.cslot ∨ x.runs.isEmpty then s.setSpindle t { x with cslot := k }.next else s
  | some (.run id src dst n keep ew pc) =>
    let (r, y) := x.currentRun (s.tile t) id src dst n keep ew pc
    let s1 := (s.setSpindle t y).runFeed t r
    let z := (s1.tile t).spindle
    if z.runs.any fun q => q.id == r.id && q.taken == q.n then s1.setSpindle t z.next else s1
  | some e => s.setSpindle t (x.control e)

/-- SPINDLE_ENTRY_EXECUTE (R179, R195): a cycle of the row, in which the entry at the Spindle's position executes unless the exit is
blocked. The step follows again while an entry or an element is left. -/
def execSpindleEntryExecute (t : Nat) (s : State) : Host.Outcome State Fault Refusal :=
  .next (if s.active t then
      let s1 := match s.rowCycle t with
        | some s1 => s1.spindleEntry t
        | none => s
      let x := (s1.tile t).spindle
      if x.pos < x.entries.length ∨ !x.pipe.isEmpty then s1.ask (.spindleEntryExecute t) else s1
    else s)

/-! ## ENDFIRE (R134) -/

/-- The channels of an actor's used slots that a firing has pushed or popped too rarely. -/
def Tile.underRate (t : Tile) (f : Firing) : List Nat :=
  ((t.actor f.actor).ins.map (·.ch)).filter (fun c => t.leftIn f c != 0)
    ++ ((t.actor f.actor).outs.map (·.ch)).filter fun c => t.leftOut f c != 0

/-- ENDFIRE. -/
def endfireEff (s : State) : M Eff := do
  let x := s.curStrand
  let k := s.cur.strand
  let sp := s.curSpindle
  match x.firing with
  | none => trapM s .firingState 0
  | some f =>
    demand (x.isFiring && !x.priv) s .firingState 0
    let owner := sp.owner == .strand k
    demand (!owner || sp.openLoops.isEmpty) s .spindleState (spindleTval sp.innermost 4)
    await (!owner || sp.isEmpty) s
    await (x.tokens == 0 && !x.spilling) s
    match (s.curTile.underRate f).min? with
    | some c => trapM s .channelRate (BitVec.ofNat 64 c)
    | none =>
      let s1 := s.commitFiring s.cur.tile f
      let t := s1.curTile
      let y := s1.curStrand.setStatus 13 false
      let t1 := { t.setStrand k { y with firing := none, marks := [] } with
        spindle := { t.spindle with places := t.spindle.places.erase k } }
      return .jump (s1.setCurTile (if owner then t1.freeSpindle else t1)) (x.pc + 1)

/-- ENDFIRE (R134). -/
def execEndfire (s : State) : Host.Outcome State Fault Refusal := issueM s [] (endfireEff s)

end Sys2Proof.Machine
end

