-- ==== Sys2Proof/Machine/Matrix.lean ====
section
/-!
DEFINITION. The matrix slice (07_matrix_and_inlay.md R203 to R223; 02_number_formats.md R64, R65, R79): its instructions at issue,
the execution of its queue entries, the check of R217, re-execution, and the quartet join.
-/
namespace Sys2Proof.Machine

/-! ## Formats (R208, R216) -/

/-- Bits of an element of a format code of R90. -/
def mxBits (f : Nat) : Nat :=
  match f with
  | 0 => 32 | 1 => 16 | 2 => 16 | 3 => 6 | 4 => 4 | 5 => 8
  | _ => 32

/-- Bytes of a row of 32 elements. -/
def mxRowBytes (f : Nat) : Nat := 4 * mxBits f

/-- Elements of a queue token (Table 7.3, R216). -/
def mxPerToken (f : Nat) : Nat := if f = 3 then 8 else 64 / mxBits f

/-- Bytes of a plane. -/
def planeBytes (f : Nat) : Nat := 128 * mxBits f

/-- The pairs of Table 7.3. -/
def mxPairOk (pf af : Nat) : Bool := (pf == af && decide (pf ≤ 5)) || (pf == 4 && af == 5)

/-- `n` element codes of `w` bits, packed from bit 0. -/
def unpackCodes (w n v : Nat) : List Nat := (upFrom 0 n).map fun i => natBits v (w * i) w

/-- Element codes of `w` bits packed from bit 0. -/
def packCodes (w : Nat) : List Nat → Nat
  | [] => 0
  | c :: r => c % 2 ^ w + 2 ^ w * packCodes w r

/-- Conversion format of a format code. -/
def mxCvt (f : Nat) : CvtFmt :=
  match f with
  | 0 => .fp32 | 1 => .fp16 | 2 => .bf16 | 3 => .log6 | 4 => .int4 | 5 => .int8
  | _ => .int32

/-! ## Entries -/

/-- The state with a tile's matrix slice replaced. -/
def State.setMatrix (s : State) (t : Nat) (x : Matrix) : State := s.setTile t { s.tile t with matrix := x }

/-- Who issues an engine entry from the issuing strand. -/
def State.issuer (s : State) : Issuer :=
  let who := sinkWho s.curStrand.firing
  ⟨some s.cur.strand, who.1, who.2, s.curStrand.pc.toNat⟩

/-- The landing slot that an entry is to read, if it is an MLDS of one. -/
def MxOp.slot? : MxOp → Option Nat
  | .loadSlot n _ _ => some n
  | _ => none

/-- A tile with the count of issued MLDS of a slot changed (R211). -/
def Tile.countLoad (t : Tile) (e : MxEntry) (f : Nat → Nat) : Tile :=
  match e.op.slot?, e.who.strand with
  | some n, some _ => t.setSlot n { t.slot n with loads := f (t.slot n).loads }
  | _, _ => t

/-- An entry written at the end of the matrix queue. -/
def State.mxPut (s : State) (t : Nat) (e : MxEntry) : State :=
  let x := (s.tile t).countLoad e (· + 1)
  (s.setTile t { x with matrix := { x.matrix with queue := x.matrix.queue ++ [e] } }).ask (.matrixEntryExecute t)

/-- An entry of the issuing strand: it waits while the queue holds eight (R203). -/
def mxIssue (op : MxOp) (s : State) : M Eff := do
  await (decide (s.curTile.matrix.queue.length < 8)) s
  return .done (s.mxPut s.cur.tile ⟨op, s.issuer⟩)

/-! ## Checks at issue (R204) -/

/-- LOG6 in an MF or AF field needs feature bit 1 (R239). -/
def mxLog6 (f : MFmt) (s : State) : M Unit := demand (f != .log6 || s.feature 1) s .illegalModifier s.word

/-- The queue register of an engine operand is bound, with a binding of its side. -/
def engineQueue (s : State) (q : BitVec 5) (ok : QBind → Bool) : M Unit := do
  let b := s.curTile.queue q.toNat
  demand (b != .unbound) s .queueUnbound (q.zeroExtend 64)
  demand (ok b) s .queueDirection (q.zeroExtend 64)

/-- A slot of a ring holds a whole row. -/
def rowFits (s : State) (h : BitVec 4) (bytes : Nat) : M Unit :=
  demand (decide (bytes ≤ (s.curTile.ring h.toNat).slotBytes)) s .ringGeometry (BitVec.ofNat 64 (bytes * 16 + h.toNat))

/-- KTVAL in the layout of R205. -/
def engineTval (reason detail pc : Nat) : Word := BitVec.ofNat 64 (reason * 2 ^ 48 + detail % 65536 * 2 ^ 32 + pc % 8192)

/-! ## Instructions (R210 to R216, R220 to R222) -/

/-- MLDS·S (R210). -/
def execMldsS (a : BitVec 2) (mf : MFmt) (plane : BitVec 3) (s : State) : Host.Outcome State Fault Refusal :=
  issueM s [] (do
    mxLog6 mf s
    mxIssue (.loadSlot a.toNat mf.code.toNat plane.toNat) s)

/-- Slots that a plane takes in a ring (R210). -/
def planeSlots (h : Handle) (mf : Nat) : Nat := (planeBytes mf + h.slotBytes - 1) / h.slotBytes

/-- MLDS·H (R210). -/
def execMldsH (a : BitVec 4) (mf : MFmt) (s : State) : Host.Outcome State Fault Refusal :=
  issueM s [] (do
    mxLog6 mf s
    let h := s.curTile.ring a.toNat
    let c := planeSlots h mf.code.toNat
    demand (decide (c ≤ h.count)) s .ringGeometry (BitVec.ofNat 64 (c * 16 + a.toNat))
    mxIssue (.loadRing a.toNat mf.code.toNat) s)

/-- MSWAP (R212). -/
def execMswap (s : State) : Host.Outcome State Fault Refusal := issueM s [] (mxIssue .swap s)

/-- A MACC from a ring. -/
def maccRing (transposed : Bool) (d : BitVec 2) (a : BitVec 4) (af : MFmt) (rowb nm1 : BitVec 5) (s : State) : M Eff := do
  mxLog6 af s
  rowFits s a (mxRowBytes af.code.toNat)
  mxIssue (.macc d.toNat transposed (.ring a.toNat) af.code.toNat rowb.toNat (nm1.toNat + 1)) s

/-- A MACC from a queue register. -/
def maccQueue (transposed : Bool) (d : BitVec 2) (a : BitVec 5) (af : MFmt) (rowb nm1 : BitVec 5) (s : State) : M Eff := do
  mxLog6 af s
  engineQueue s a QBind.feedsRow
  mxIssue (.macc d.toNat transposed (.queue a.toNat) af.code.toNat rowb.toNat (nm1.toNat + 1)) s

/-- MACC.N from a ring (R215). -/
def execMaccNH (d : BitVec 2) (a : BitVec 4) (af : MFmt) (rowb nm1 : BitVec 5) (s : State) : Host.Outcome State Fault Refusal :=
  issueM s [] (maccRing false d a af rowb nm1 s)

/-- MACC.N from a queue (R215). -/
def execMaccNQ (d : BitVec 2) (a : BitVec 5) (af : MFmt) (rowb nm1 : BitVec 5) (s : State) : Host.Outcome State Fault Refusal :=
  issueM s [] (maccQueue false d a af rowb nm1 s)

/-- MACC.T from a ring (R215). -/
def execMaccTH (d : BitVec 2) (a : BitVec 4) (af : MFmt) (rowb nm1 : BitVec 5) (s : State) : Host.Outcome State Fault Refusal :=
  issueM s [] (maccRing true d a af rowb nm1 s)

/-- MACC.T from a queue (R215). -/
def execMaccTQ (d : BitVec 2) (a : BitVec 5) (af : MFmt) (rowb nm1 : BitVec 5) (s : State) : Host.Outcome State Fault Refusal :=
  issueM s [] (maccQueue true d a af rowb nm1 s)

/-- MZERO (R214). -/
def execMzero (d : BitVec 2) (s : State) : Host.Outcome State Fault Refusal := issueM s [] (mxIssue (.zero d.toNat) s)

/-- MSCALE (R213). -/
def execMscale (a : BitVec 6) (tgt : Bool) (s : State) : Host.Outcome State Fault Refusal :=
  issueM s [a] (mxIssue (.scale tgt ((s.curStrand.rg a).truncate 8)) s)

/-- MSCALE with an immediate (R213). -/
def execMscaleI (tgt : Bool) (e : BitVec 8) (s : State) : Host.Outcome State Fault Refusal :=
  issueM s [] (mxIssue (.scale tgt e) s)

/-- Rounding code of a mode (Table 2.7). -/
def RMode.code : RMode → Nat
  | .rne => 0 | .rtz => 1 | .rup => 2 | .rdn => 3 | .sr => 4

/-- The mode of an MDRAIN: SR on FP32 is illegal, by RND or by KSTATUS.RM (R216, R75). -/
def drainMode (df : DFmt) (rnd : Rnd) (s : State) : M RMode := do
  demand (!(df == .fp32 && rnd == .dyn && s.curStrand.rm == 4)) s .illegalModifier s.word
  convMode rnd (df != .fp32) s

/-- MDRAIN. -/
def mdrainEff (dst : Dest) (a : BitVec 2) (df : DFmt) (rnd : Rnd) (zero : Bool) (s : State) : M Eff := do
  let mode ← drainMode df rnd s
  match dst with
  | .ring h =>
    rowFits s h (mxRowBytes df.code.toNat)
    mxIssue (.drain a.toNat (.ring h.toNat) df.code.toNat mode.code zero) s
  | .queue q =>
    engineQueue s q QBind.pushes
    mxIssue (.drain a.toNat (.queue q.toNat) df.code.toNat mode.code zero) s

/-- MDRAIN (R216). -/
def execMdrain (dst : Dest) (a : BitVec 2) (df : DFmt) (rnd : Rnd) (zero : Bool) (s : State) :
    Host.Outcome State Fault Refusal :=
  issueM s [] (mdrainEff dst a df rnd zero s)

/-- The member number of a tile in its quartet (R219). -/
def Tile.member (t : Tile) : Nat := t.col % 4

/-- Every member that a mask names has a column of the region, and the tile is one of them (R220). -/
def gangOk (r : Region) (t : Tile) (mask : BitVec 4) : Bool :=
  mask.getLsbD t.member && (upFrom 0 4).all fun m => !mask.getLsbD m || decide (t.col / 4 * 4 + m < r.info.cols)

/-- The check of MGANG and MXCHG at issue. -/
def gangCheck (mask : BitVec 4) (s : State) : M Unit :=
  demand (gangOk s.curRegion s.curTile mask) s .matrixGang (engineTval 3 mask.toNat s.curStrand.pc.toNat)

/-- MGANG (R220). -/
def execMgang (mask : BitVec 4) (s : State) : Host.Outcome State Fault Refusal :=
  issueM s [] (do gangCheck mask s; mxIssue (.gang mask) s)

/-- P[m] of a permutation table (R221). -/
def permOf (p : BitVec 8) (m : Nat) : Nat := natBits p.toNat (2 * m) 2

/-- A value is a permutation of 0 to 3. -/
def permOk (p : BitVec 8) : Bool := (upFrom 0 4).all fun q => (upFrom 0 4).any fun m => permOf p m == q

/-- MPERM (R221). -/
def execMperm (a : BitVec 6) (s : State) : Host.Outcome State Fault Refusal :=
  issueM s [a] (do
    let v : BitVec 8 := (s.curStrand.rg a).truncate 8
    demand (permOk v) s .matrixOperand (engineTval 2 v.toNat s.curStrand.pc.toNat)
    mxIssue (.perm v) s)

/-- MXCHG (R222). -/
def execMxchg (d a : BitVec 2) (s : State) : Host.Outcome State Fault Refusal :=
  issueM s [] (do gangCheck 0xF s; mxIssue (.exchange d.toNat a.toNat) s)

/-! ## Faults of an engine (R205) -/

/-- An engine's issuing strand still runs the firing that issued the entry. -/
def State.issuerRuns (s : State) (t : Nat) (w : Issuer) : Bool :=
  match w.strand with
  | none => false
  | some k => match (s.strandOf t k).firing with
    | some f => f.actor == w.actor && f.seq == w.seq
    | none => false

/-- A fault of an engine entry delivered: recorded for the issuing strand, or, when its firing has ended or there is no strand, the
region freezes. The engine has discarded its entries. -/
def State.engineFault (s : State) (t : Nat) (w : Issuer) (c : Cause) (reason detail : Nat) : State :=
  match w.strand with
  | some k =>
    if s.issuerRuns t w then
      let y := s.strandOf t k
      s.setStrandOf t k { y with deferred := y.deferred ++ [⟨c, engineTval reason detail w.pc⟩] }
    else s.freezeRegion (s.tile t).handle (some c) none []
  | none => s.freezeRegion (s.tile t).handle (some c) none []

/-- The matrix slice discards its head entry and every later entry of the same strand, and the fault is delivered. -/
def State.mxFault (s : State) (t : Nat) (e : MxEntry) (c : Cause) (reason detail : Nat) : State :=
  let x := s.tile t
  let gone := x.matrix.queue.tail.filter fun q => q.who.strand == e.who.strand
  let left := x.matrix.queue.tail.filter fun q => q.who.strand != e.who.strand
  let y := (e :: gone).foldl (fun t q => t.countLoad q (· - 1)) x
  (s.setTile t { y with matrix := { y.matrix with queue := left, prog := MxProgress.idle } }).engineFault t e.who c reason detail

/-- The firing that an engine entry acts for: its issuing strand's, while it runs, or the engine's own. -/
def State.mxFiring (s : State) (t : Nat) (w : Issuer) : FiringRef :=
  match w.strand with
  | some k => (if s.issuerRuns t w then (s.strandOf t k).firing else none,
      fun s f => s.setStrandOf t k { s.strandOf t k with firing := some f })
  | none => ((s.tile t).matrix.firing, fun s f => s.setMatrix t { (s.tile t).matrix with firing := some f })

/-- The channel whose consumer (or producer) end is bound to an engine port of a tile (R463). -/
def State.portChannel (s : State) (t port : Nat) (producer : Bool) : Option Nat :=
  let x := s.tile t
  let r := s.region x.handle
  let e := End.engine (logicalOf r x) port
  (r.channels.find? fun c => (if producer then c.2.prod else c.2.cons) == e).map (·.1)

/-- The next token of a side that is no ring: an engine port reads the channel bound to it, or the tokens that a strand pushed. -/
def engineTake (s : State) (t : Nat) (side : Side) (f : FiringRef) : Moved :=
  match side with
  | .queue q => queueSideTake s t q f
  | .port k => match s.portChannel t k false with
    | some ch => channelTake s t ch f
    | none => bufferTake s t k
  | .ring _ => .wait

/-- A token put to a side that is no ring. -/
def enginePut (s : State) (t : Nat) (side : Side) (f : FiringRef) (v : Token) : Moved :=
  match side with
  | .queue q => queueSidePut s t q f v
  | .port k => match s.portChannel t k true with
    | some ch => channelPut s t ch f v
    | none => bufferPut s t k v
  | .ring _ => .wait

/-- `bytes` bytes from row `pos` of a ring's slot at DRAIN; the slot is advanced when it holds no further row (R209). -/
def ringRowTake (s : State) (t h bytes pos : Nat) : Option (List Byte × State × Nat) :=
  let x := s.tile t
  let r := x.ring h
  if pos = 0 ∧ r.filled = 0 then none
  else
    let bs := x.spadRead (r.drainAt + pos * bytes) bytes
    let last := r.slotBytes < (pos + 2) * bytes
    some (bs, if last then s.setTile t (x.setRing h (r.advDrain 1)) else s, if last then 0 else pos + 1)

/-- Whether a ring takes a row at position `pos` of its slot. -/
def ringRowRoom (x : Tile) (h pos : Nat) : Bool := decide (0 < pos ∨ 0 < (x.ring h).free)

/-- A row written at position `pos` of a ring's slot at FILL; the slot is advanced when it holds no further row. -/
def ringRowPut (s : State) (t h pos : Nat) (bs : List Byte) : State × Nat :=
  let x := s.tile t
  let r := x.ring h
  let y := x.spadWrite (r.fillAt + pos * bs.length) bs
  let last := r.slotBytes < (pos + 2) * bs.length
  (s.setTile t (if last then y.setRing h (r.advFill 1) else y), if last then 0 else pos + 1)

/-- A partly read slot is advanced at the end. -/
def Tile.endDrain (x : Tile) (h pos : Nat) : Tile := if pos = 0 then x else x.setRing h ((x.ring h).advDrain 1)

/-- A partly written slot is advanced at the end. -/
def Tile.endFill (x : Tile) (h pos : Nat) : Tile := if pos = 0 then x else x.setRing h ((x.ring h).advFill 1)

/-! ## Planes (R210) -/

/-- Plane elements by position from packed bytes. -/
def planeOf (f : Nat) (bs : List Byte) : Table Nat :=
  let v := leNat bs
  (upFrom 0 1024).filterMap fun i => let c := natBits v (mxBits f * i) (mxBits f); if c = 0 then none else some (i, c)

/-- An element of a plane. -/
def Plane.at (p : Plane) (i : Nat) : Nat := tabGet 0 p.w i

/-- Scratchpad offset of slot `i` after the one at DRAIN. -/
def Handle.slotAt (h : Handle) (i : Nat) : Nat := h.base.toNat + (h.drain.toNat % 4096 + i) % h.count * h.slotBytes

/-- The first `n` bytes from a ring's head slot on, through the slots in ring order. -/
def ringBytes (x : Tile) (h : Handle) (n : Nat) : List Byte :=
  ((upFrom 0 ((n + h.slotBytes - 1) / h.slotBytes)).flatMap fun i => x.spadRead (h.slotAt i) h.slotBytes).take n

/-! ## Products and accumulation (R64, R65, R79, R215) -/

/-- The exact product of two LOG6 codes (R64). -/
def log6Product (a b : Nat) : FpNum :=
  let ma := natBits a 0 5
  let mb := natBits b 0 5
  let sa := natBits a 5 1
  let sb := natBits b 5 1
  if (ma = 0 ∧ sa = 1) ∨ (mb = 0 ∧ sb = 1) then .nan false
  else if ma = 0 ∨ mb = 0 then .fin false 0 0
  else
    let k := ma + mb
    .fin (sa != sb) (2 ^ 23 + log6Frac (k % 4)) (((k / 4 : Nat) : Int) - 31)

/-- A format code of integers (R90). -/
def mxInteger (f : Nat) : Bool := f == 4 || f == 5

/-- The exact product of a stream element and a plane element, and the flags that the product raises. A product of integers that is 0 has
no sign (R79, R215). -/
def mxProduct (pf af x w : Nat) : FpNum × FlagSet :=
  if pf = 3 then (log6Product x w, 0)
  else
    let a := cvtNum (mxCvt af) x
    let b := cvtNum (mxCvt pf) w
    if a.isNan || b.isNan then (.nan false, if a.isSig || b.isSig then fNV else 0)
    else match mulNum a b with
      | some (.fin n m e) => (.fin (n && !(mxInteger pf && m == 0)) m e, 0)
      | some p => (p, 0)
      | none => (.nan false, fNV)

/-- A product under its two scales; under E = 255 the canonical NaN with NV (R68, R69). -/
def mxScaled (ea ew : BitVec 8) (p : FpNum × FlagSet) : FpNum × FlagSet :=
  if ea = 255 ∨ ew = 255 then (.nan false, fNV) else (p.1.scale ((ea.toNat : Int) + ew.toNat - 254), p.2)

/-- The products of a cell, in ascending k. -/
def cellProducts (p : Plane) (transposed : Bool) (af : Nat) (row : MxRow) (j : Nat) : List (FpNum × FlagSet) :=
  (upFrom 0 32).map fun k =>
    mxScaled row.ea p.ew (mxProduct p.pf af (nth 0 row.xs k) (p.at (if transposed then 32 * j + k else 32 * k + j)))

/-- An FP32 cell after products are added one at a time, each rounded RNE, with the flags raised. -/
def accumulate : List (FpNum × FlagSet) → Nat → FlagSet → Nat × FlagSet
  | [], v, fl => (v, fl)
  | p :: r, v, fl =>
    let q := fAdd f32 .rne (unpack f32 v) p.1
    accumulate r q.bits (fl ||| q.fl ||| p.2)

/-- Key of an accumulator cell. -/
def accKey (acc i j : Nat) : Nat := acc * 1024 + 32 * i + j

/-- A cell of an accumulator. -/
def Matrix.cell (m : Matrix) (acc i j : Nat) : AccCell := tabGet AccCell.idle m.acc (accKey acc i j)

/-- A matrix slice with a cell replaced. -/
def Matrix.setCell (m : Matrix) (acc i j : Nat) (c : AccCell) : Matrix :=
  { m with acc := tabSet AccCell.idle m.acc (accKey acc i j) c }

/-- An accumulator set to +0 with exception bits 0 (R214). -/
def Matrix.zeroAcc (m : Matrix) (acc : Nat) : Matrix :=
  { m with acc := m.acc.filter fun e => !decide (acc * 1024 ≤ e.1 ∧ e.1 < acc * 1024 + 1024) }

/-- A cell of a MACC before and after it, its products, and the flags raised. -/
structure CellRun where
  i : Nat
  j : Nat
  before : Nat
  after : Nat
  products : List FpNum
  fl : FlagSet
  exc : Bool
deriving DecidableEq, Repr

/-- Every cell that a MACC of some rows updates; what rows before a thaw without the accumulators had added is lost (R238). -/
def maccCells (m : Matrix) (acc : Nat) (transposed : Bool) (af rowb : Nat) (rows : List MxRow) : List CellRun :=
  (upFrom m.prog.lost (rows.length - m.prog.lost)).flatMap fun i => (upFrom 0 32).map fun j =>
    let row := nth ⟨[], 127, false⟩ rows i
    let c := m.cell acc (rowb + i) j
    let ps := cellProducts m.active transposed af row j
    let r := accumulate ps c.v.toNat 0
    ⟨rowb + i, j, c.v.toNat, r.1, ps.map (·.1), r.2, c.exc || row.exc || FlagSet.exc r.2⟩

/-- A matrix slice with cells written. -/
def writeCells (m : Matrix) (acc : Nat) : List CellRun → Matrix
  | [] => m
  | c :: r => writeCells (m.setCell acc c.i c.j ⟨BitVec.ofNat 32 c.after, c.exc⟩) acc r

/-- The flags that cells raised. -/
def cellFlags (cs : List CellRun) : FlagSet := cs.foldl (fun f c => f ||| c.fl) 0

/-! ## The check (R217) -/

/-- The exact sum of finite values. -/
def sumNums (l : List FpNum) : FpNum :=
  l.foldl (fun a b => match a, b with
    | .fin n1 m1 e1, .fin n2 m2 e2 => sumFin .rne n1 m1 e1 n2 m2 e2
    | _, _ => .nan false) (.fin false 0 0)

/-- Magnitude of a value. -/
def FpNum.abs : FpNum → FpNum
  | .nan s => .nan s
  | .inf _ => .inf false
  | .fin _ m e => .fin false m e

/-- A value is finite and within the FP32 range. -/
def FpNum.inRange (x : FpNum) : Bool :=
  match x with
  | .fin _ m e => cmpNum (.fin false m e) (.fin false 1 128) == .lt
  | _ => false

/-- Whether the cells of a row or column mismatch: |D - C| > 2^-18 × A + 2^-139. -/
def mismatch (cs : List CellRun) : Bool :=
  let old := cs.map fun c => unpack f32 c.before
  let new := cs.map fun c => unpack f32 c.after
  let ps := cs.flatMap (·.products)
  let d := sumNums (new ++ old.map FpNum.neg)
  let c := sumNums ps
  let a := sumNums (old.map FpNum.abs ++ ps.map FpNum.abs)
  if !((old ++ new ++ ps).all FpNum.inRange && d.inRange && c.inRange && a.inRange) then false
  else cmpNum (sumNums [d, c.neg]).abs (sumNums [a.scale (-18), .fin false 1 (-139)]) == .gt

/-- The lowest row, or else column (bit 15 set), that mismatches. -/
def checkCells (cs : List CellRun) : Option Nat :=
  match (upFrom 0 32).find? fun i => mismatch (cs.filter fun c => c.i == i) with
  | some i => some i
  | none => ((upFrom 0 32).find? fun j => mismatch (cs.filter fun c => c.j == j)).map (· + 0x8000)

/-! ## Execution of an entry -/

/-- The head entry has completed. When it was the last of a matrix firing, the firing may commit (R223). -/
def State.mxDone (s : State) (t : Nat) : State :=
  let x := s.tile t
  match x.matrix.queue with
  | [] => s
  | e :: rest =>
    let y := x.countLoad e (· - 1)
    let s1 := s.setTile t { y with matrix := { y.matrix with queue := rest, prog := MxProgress.idle } }
    if e.who.strand.isNone && !rest.any (fun q => q.who.strand.isNone) then s1.ask (.engineFiringCommit t 2) else s1

/-- The head entry completes with the matrix slice changed. -/
def State.mxEnd (s : State) (t : Nat) (m : Matrix) : State := (s.setMatrix t m).mxDone t

/-- MLDS·S executes (R210): the state after it; none while it waits. -/
def mxLoadSlot (s : State) (t : Nat) (e : MxEntry) (n mf p : Nat) : Option State :=
  let x := s.tile t
  let l := x.slot n
  match l.state with
  | .landing => none
  | .free => some (s.mxFault t e .slotState 1 n)
  | .full =>
    let off := (if l.scale then 32 else 0) + p * planeBytes mf
    if 4096 < off + planeBytes mf then some (s.mxFault t e .matrixOperand 1 p)
    else
      let w := planeOf mf (readBytes l.payload off (planeBytes mf))
      let ew := if l.scale then readByte l.payload 0 else x.matrix.shadow.ew
      some (s.mxEnd t { x.matrix with shadow := ⟨w, mf, ew⟩ })

/-- MLDS·H executes (R210). -/
def mxLoadRing (s : State) (t h mf : Nat) : Option State :=
  let x := s.tile t
  let r := x.ring h
  let c := planeSlots r mf
  if r.filled < c then none
  else
    let w := planeOf mf (ringBytes x r (planeBytes mf))
    let y := x.setRing h (r.advDrain c)
    some ((s.setTile t y).mxEnd t { y.matrix with shadow := ⟨w, mf, y.matrix.shadow.ew⟩ })

/-- The state with the progress of the head entry replaced. -/
def State.setMxProg (s : State) (t : Nat) (p : MxProgress) : State := s.setMatrix t { (s.tile t).matrix with prog := p }

/-- A row of tokens as the replay copy keeps it. -/
def rowOfTokens (af : Nat) (ea : BitVec 8) (vs : List Token) : MxRow :=
  let k := mxPerToken af
  ⟨vs.flatMap fun v => unpackCodes (mxBits af) k v.payload.toNat, ea, vs.any (·.exc)⟩

/-- The rows of a MACC that its source still has to give, taken until one waits; `fuel` bounds the takes. A pop beyond the
reservation faults. -/
def mxCollect (t : Nat) (e : MxEntry) (src : Side) (af n : Nat) : Nat → State → State × Bool
  | 0, s => (s, false)
  | fuel + 1, s =>
    let m := (s.tile t).matrix
    let p := m.prog
    if n ≤ p.rows.length then (s, true)
    else match src with
      | .ring h =>
        match ringRowTake s t h (mxRowBytes af) p.slotPos with
        | none => (s, false)
        | some (bs, s1, pos) =>
          let row : MxRow := ⟨unpackCodes (mxBits af) 32 (leNat bs), m.ea, false⟩
          let last := p.rows.length + 1 = n
          let s2 := s1.setMxProg t { p with rows := p.rows ++ [row], slotPos := if last then 0 else pos }
          mxCollect t e src af n fuel (if last then s2.setTile t ((s2.tile t).endDrain h pos) else s2)
      | side =>
        match engineTake s t side (s.mxFiring t e.who) with
        | .wait => (s, false)
        | .rate ch => (s.mxFault t e .channelRate 1 ch, false)
        | .ok s1 v _ =>
          if v.scale then mxCollect t e src af n fuel (s1.setMxProg t { p with ea := some (v.payload.truncate 8) })
          else
            let ea := if p.part.isEmpty then p.ea.getD m.ea else p.rowEa
            let part := p.part ++ [v]
            let q := if part.length = 32 / mxPerToken af then
                { p with rows := p.rows ++ [rowOfTokens af ea part], part := [], rowEa := ea }
              else { p with part := part, rowEa := ea }
            mxCollect t e src af n fuel (s1.setMxProg t q)

/-- The streamed rows of a MACC are multiplied and added (R215): the cells, and the slice with them and the stream latch written. -/
def maccResult (m : Matrix) (acc : Nat) (transposed : Bool) (af rowb : Nat) : List CellRun × Matrix :=
  let cs := maccCells m acc transposed af rowb m.prog.rows
  (cs, { writeCells m acc cs with ea := m.prog.ea.getD m.ea })

/-- A MACC of collected rows is executed and checked. A mismatch leaves it to its re-execution (R218)
(LOG 49 DEDUCED). -/
def mxMacc (s : State) (t acc : Nat) (transposed : Bool) (af rowb : Nat) : State :=
  let x := s.tile t
  let (cs, m) := maccResult x.matrix acc transposed af rowb
  match checkCells cs with
  | none => (s.setTile t (x.raise (cellFlags cs) fSRCMAT)).mxEnd t m
  | some _ => (s.setMxProg t { x.matrix.prog with retry := true }).ask (.maccReexecute t false)

/-- One drained element: its code, its exception bit and the causes that the drain raised, with the tile's flags and draw counter
moved on (R216). -/
def drainElem (df : Nat) (mode : RMode) (acc i j : Nat) (t : Nat) (s : State) : State × Nat × Bool × FlagSet :=
  let c := (s.tile t).matrix.cell acc i j
  let (draw, s1) := if mode = .sr then s.draw t 7 else (0, s)
  let r := convert .fp32 (mxCvt df) true mode draw c.v.toNat
  (s1.setTile t ((s1.tile t).raise r.fl fSRCMAT), r.bits % 2 ^ mxBits df, c.exc || FlagSet.exc r.fl, r.fl)

/-- Drained elements of a row from column `j` on. -/
def drainElems (df : Nat) (mode : RMode) (acc i : Nat) (t : Nat) : Nat → Nat → State → State × List (Nat × Bool × FlagSet)
  | 0, _, s => (s, [])
  | n + 1, j, s =>
    let (s1, x) := drainElem df mode acc i j t s
    let (s2, xs) := drainElems df mode acc i t n (j + 1) s1
    (s2, x :: xs)

/-- The sink records of flagged elements of a ring destination, the first with number `k`. -/
def sinkElems (t source : Nat) (actor seq : Nat) (was : Nat → Bool) : Nat → List (Nat × Bool × FlagSet) → State → State
  | _, [], s => s
  | k, (code, exc, fl) :: r, s =>
    sinkElems t source actor seq was (k + 1) r
      (if exc then s.sink t ⟨source, FlagSet.cause fl, was k, BitVec.ofNat 64 code, k, actor, seq⟩ else s)

/-- Actor and sequence number that an entry's sink records carry (Table 6.5). -/
def Issuer.sinkWho (w : Issuer) : Nat × Nat := if w.strand.isSome then (w.actor, w.seq) else (255, 0)

/-- The drained accumulator is set to zero when ZERO asks, and the entry ends. -/
def State.drainEnd (s : State) (t acc : Nat) (zero : Bool) : State :=
  let m := (s.tile t).matrix
  s.mxEnd t (if zero then m.zeroAcc acc else m)

/-- An MDRAIN goes on: rows to a ring, tokens to a queue, until the destination waits; `fuel` bounds them. -/
def mxDrain (t : Nat) (e : MxEntry) (acc : Nat) (dst : Side) (df : Nat) (mode : RMode) (zero : Bool) : Nat → State → State
  | 0, s => s
  | fuel + 1, s =>
    let x := s.tile t
    let p := x.matrix.prog
    match dst with
    | .ring h =>
      if 32 ≤ p.done then (s.setTile t (x.endFill h p.slotPos)).drainEnd t acc zero
      else if !ringRowRoom x h p.slotPos then s
      else
        let (s1, xs) := drainElems df mode acc p.done t 32 0 s
        let (s2, pos) := ringRowPut s1 t h p.slotPos (natLe (mxRowBytes df) (packCodes (mxBits df) (xs.map (·.1))))
        let who := e.who.sinkWho
        let s3 := sinkElems t 2 who.1 who.2 (fun k => (x.matrix.cell acc p.done (k % 32)).exc) (32 * p.done) xs s2
        mxDrain t e acc dst df mode zero fuel (s3.setMxProg t { p with done := p.done + 1, slotPos := pos })
    | side =>
      let k := mxPerToken df
      if 1024 ≤ p.done * k then s.drainEnd t acc zero
      else
        let f := s.mxFiring t e.who
        match enginePut s t side f Token.idle with
        | .wait => s
        | .rate ch => s.mxFault t e .channelRate 1 ch
        | .ok _ _ _ =>
          let (s1, xs) := drainElems df mode acc (p.done * k / 32) t k (p.done * k % 32) s
          let v : Token := ⟨BitVec.ofNat 64 (packCodes (mxBits df) (xs.map (·.1))), false, xs.any (·.2.1), Token.idle.origin⟩
          match enginePut s1 t side f v with
          | .ok s2 _ _ => mxDrain t e acc dst df mode zero fuel (s2.setMxProg t { p with done := p.done + 1 })
          | _ => s

/-- An entry that joins its quartet: it arrives, waits for QUARTET_JOIN, and ends or fails (R220, R222). -/
def mxJoin (s : State) (t : Nat) (e : MxEntry) (mask : Nat) : State :=
  let m := (s.tile t).matrix
  match m.prog.joined with
  | some 0 => s.mxDone t
  | some 2 => s.mxFault t e .matrixGang 2 m.perm.toNat
  | some r => s.mxFault t e .matrixGang r mask
  | none => (s.setMxProg t { m.prog with arrived := true }).ask (.quartetJoin t)

/-- The head entry of the matrix queue executes as far as it can. -/
def State.mxStep (s : State) (t : Nat) : State :=
  let m := (s.tile t).matrix
  match m.queue with
  | [] => s
  | e :: _ =>
    match e.op with
    | .loadSlot n mf p => (mxLoadSlot s t e n mf p).getD s
    | .loadRing h mf => (mxLoadRing s t h mf).getD s
    | .swap => s.mxEnd t { m with active := m.shadow, shadow := m.active }
    | .scale weight x => s.mxEnd t (if weight then { m with shadow := { m.shadow with ew := x } } else { m with ea := x })
    | .zero acc => s.mxEnd t (m.zeroAcc acc)
    | .macc acc transposed src af rowb n =>
      if m.prog.retry then s
      else if !mxPairOk m.active.pf af then s.mxFault t e .matrixFormat 1 (m.active.pf * 16 + af)
      else if m.prog.rows.length = n then mxMacc s t acc transposed af rowb
      else (mxCollect t e src af n 4096 s).1
    | .drain acc dst df mode zero => mxDrain t e acc dst df (RMode.ofCode mode) zero 1025 s
    | .gang mask => mxJoin s t e mask.toNat
    | .perm v => s.mxEnd t { m with perm := v }
    | .exchange _ _ => mxJoin s t e 15

/-- MATRIX_ENTRY_EXECUTE (R203): the head entry executes; the step follows again while the queue holds an entry
(LOG 16 DESIGN CHOICE). -/
def execMatrixEntryExecute (t : Nat) (s : State) : Host.Outcome State Fault Refusal :=
  .next (if s.active t then
      let s1 := s.mxStep t
      if (s1.tile t).matrix.queue.isEmpty then s1 else s1.ask (.matrixEntryExecute t)
    else s)

/-- The row or column that a second mismatch names: the one that the check finds, or else, when the hardware's own error made the
mismatch, a free one of those that the MACC updates (LOG 88 DESIGN CHOICE). -/
def State.mismatchAt (s : State) (cs : List CellRun) (rowb n : Nat) : Nat :=
  match checkCells cs with
  | some d => d
  | none =>
    let v := Config.mismatchAt s.steps
    if v % 2 = 0 then rowb + v / 2 % n else 0x8000 + v / 2 % 32

/-- MACC_REEXECUTE (R218): the first execution of the MACC at the head of the queue, whose rows are all in the replay copy, has
mismatched. A clean second execution stands and counts as transient (R385); a second mismatch leaves the accumulator as it was
before, marks the tile as failing and raises MATRIX_CHECK_HARD; the flags of its rows enter KFLAGS no more than its sums (LOG 121 DEDUCED). -/
def execMaccReexecute (t : Nat) (clean : Bool) (s : State) : Host.Outcome State Fault Refusal :=
  .next (if s.active t then
      let x := s.tile t
      match x.matrix.queue with
      | [] => s
      | e :: _ =>
        match e.op with
        | .macc acc transposed _ af rowb n =>
          if x.matrix.prog.rows.length = n then
            let (cs, m) := maccResult x.matrix acc transposed af rowb
            if clean then
              (s.setTile t { x.raise (cellFlags cs) fSRCMAT with transients := min (x.transients + 1) 255 }).mxEnd t m
            else
              let s1 := s.setTile t { x with failing := some Cause.matrixCheckHard }
              let s2 := { s1 with toRetire := s1.toRetire ++ [(t, Cause.matrixCheckHard)] }.ask .gridRetire
              s2.mxFault t e .matrixCheckHard 1 (s.mismatchAt cs rowb n)
          else s
        | _ => s
    else s)

/-! ## The quartet join (R219, R220, R222) -/

/-- The tiles of a tile's quartet, by member number. -/
def State.quartet (s : State) (t : Nat) : List (Nat × Nat) :=
  let x := s.tile t
  let r := s.region x.handle
  ((upFrom 0 4).filter fun m => decide (x.col / 4 * 4 + m < r.info.cols)).map fun m =>
    (m, r.physical (x.row * r.info.cols + x.col / 4 * 4 + m))

/-- The mask with which a tile has arrived at its join, if it has and the join is pending. -/
def Tile.arrivedMask (t : Tile) : Option (BitVec 4) :=
  if t.matrix.prog.arrived && t.matrix.prog.joined.isNone then
    match t.matrix.queue with
    | e :: _ => match e.op with
      | .gang mask => some mask
      | .exchange _ _ => some 0xF
      | _ => none
    | [] => none
  else none

/-- A tile told how its join ended. -/
def State.tellJoin (s : State) (t reason : Nat) : State :=
  (s.setMxProg t { (s.tile t).matrix.prog with joined := some reason }).ask (.matrixEntryExecute t)

/-- The accumulator that a tile's MXCHG reads (`false`) or writes, if its head entry is one. -/
def Tile.exchangeAcc (t : Tile) (dst : Bool) : Option Nat :=
  match t.matrix.queue with
  | e :: _ => match e.op with
    | .exchange d a => some (if dst then d else a)
    | _ => none
  | [] => none

/-- Member `m`'s destination after an exchange among some tiles, all read before any is written (R222). -/
def exchanged (olds : List (Nat × Tile)) (m : Nat) (x : Tile) : Tile :=
  match x.exchangeAcc true with
  | none => x
  | some d =>
    let pm := permOf x.matrix.perm m
    let cells := olds.flatMap fun o =>
      match o.2.exchangeAcc false with
      | none => []
      | some a => (upFrom 0 32).flatMap fun i => (upFrom 0 8).map fun c => (i, 8 * o.1 + c, o.2.matrix.cell a i (8 * pm + c))
    { x with matrix := cells.foldl (fun mx c => mx.setCell d c.1 c.2.1 c.2.2) x.matrix }

/-- QUARTET_JOIN (R219, R220, R222): the pending join of a tile's quartet completes, fails, or goes on waiting. Members of one mask of which
some execute MGANG and some MXCHG join as an exchange among those that execute MXCHG (LOG 89 DESIGN CHOICE). -/
def execQuartetJoin (t : Nat) (s : State) : Host.Outcome State Fault Refusal :=
  .next (if !s.active t then s
    else
      let q := s.quartet t
      let here := q.filterMap fun x => ((s.tile x.2).arrivedMask).map fun mask => (x.1, x.2, mask)
      match here with
      | [] => s
      | (_, _, mask) :: _ =>
        if here.any fun x => x.2.2 != mask then here.foldl (fun s x => s.tellJoin x.2.1 1) s
        else if !((upFrom 0 4).all fun m => !mask.getLsbD m || here.any fun x => x.1 == m) then s.ask (.quartetJoin t)
        else
          let olds := here.map fun x => (x.1, s.tile x.2.1)
          let ex := olds.any fun o => (o.2.exchangeAcc true).isSome
          let perms := olds.map fun o => o.2.matrix.perm
          if ex && perms.any (fun p => p != perms.headD 0) then here.foldl (fun s x => s.tellJoin x.2.1 2) s
          else
            here.foldl (fun s x => (s.setTile x.2.1 (if ex then exchanged olds x.1 (s.tile x.2.1) else s.tile x.2.1)).tellJoin x.2.1 0) s)

/-! ## Set-up records (R223) -/

/-- A register operand of a record's word; no strand stands behind it (LOG 28 DESIGN CHOICE). -/
def recordReg (n : BitVec 6) : Word := if n = 0 then 0 else Config.recordReg n.toNat

/-- The entry of a record's word, whose queue operands name matrix ports. -/
def recordOp : Instr → Option MxOp
  | .mldsS a mf p => some (.loadSlot a.toNat mf.code.toNat p.toNat)
  | .mldsH a mf => some (.loadRing a.toNat mf.code.toNat)
  | .mswap => some .swap
  | .maccNH d a af rowb nm1 => some (.macc d.toNat false (.ring a.toNat) af.code.toNat rowb.toNat (nm1.toNat + 1))
  | .maccNQ d a af rowb nm1 => some (.macc d.toNat false (.port a.toNat) af.code.toNat rowb.toNat (nm1.toNat + 1))
  | .maccTH d a af rowb nm1 => some (.macc d.toNat true (.ring a.toNat) af.code.toNat rowb.toNat (nm1.toNat + 1))
  | .maccTQ d a af rowb nm1 => some (.macc d.toNat true (.port a.toNat) af.code.toNat rowb.toNat (nm1.toNat + 1))
  | .mzero d => some (.zero d.toNat)
  | .mscale a tgt => some (.scale tgt ((recordReg a).truncate 8))
  | .mscaleI tgt e => some (.scale tgt e)
  | .mdrain dst a df rnd zero =>
    let mode := if rnd = .dyn then 0 else rnd.code.toNat
    some (.drain a.toNat (match dst with | .ring h => .ring h.toNat | .queue q => .port (4 + q.toNat)) df.code.toNat mode zero)
  | .mgang mask => some (.gang mask)
  | .mperm a => some (.perm ((recordReg a).truncate 8))
  | .mxchg d a => some (.exchange d.toNat a.toNat)
  | _ => none

/-- The feature bits that a record's word needs are accepted: bit 1 for LOG6 planes and streams, bit 6 for SR (R223, R239). -/
def recordGate (log6 sr : Bool) : Instr → Bool
  | .mldsS _ mf _ => mf != .log6 || log6
  | .mldsH _ mf => mf != .log6 || log6
  | .maccNH _ _ af _ _ => af != .log6 || log6
  | .maccNQ _ _ af _ _ => af != .log6 || log6
  | .maccTH _ _ af _ _ => af != .log6 || log6
  | .maccTQ _ _ af _ _ => af != .log6 || log6
  | .mdrain _ _ _ rnd _ => rnd != .sr || sr
  | _ => true

/-- The words of record `e`, up to the first all-zero word. -/
def Matrix.recordWords (m : Matrix) (e : Nat) : List Word :=
  ((upFrom 0 4).map fun j => tabGet 0 m.records (4 * e + j)).takeWhile fun w => w != 0

end Sys2Proof.Machine
end

