-- ==== Sys2Proof/Machine/Inlay.lean ====
section
/-!
DEFINITION. The Inlay fabric (07_matrix_and_inlay.md R225 to R237): graphs and their checks, ILOAD, IUNLOAD, ISTAT, IRUN, IDRAIN,
and the execution of its queue entries.
-/
namespace Sys2Proof.Machine

/-! ## Node words (R226) -/

/-- The fields of a node word (Table 7.5). -/
structure Node where
  op : Nat
  sh : Nat
  wc : Nat
  a : Nat
  b : Nat
  low : Nat
deriving DecidableEq, Repr

/-- The fields of a word (Table 7.5). -/
def Node.ofWord (w : BitVec 32) : Node :=
  let v := w.toNat
  ⟨natBits v 29 3, natBits v 25 4, natBits v 23 2, natBits v 12 11, natBits v 1 11, natBits v 0 1⟩

/-- A reference to a graph input. -/
def isInput (r : Nat) : Bool := natBits r 10 1 == 1

/-- The operand references of a node. -/
def Node.refs (n : Node) : List Nat := if n.op ≤ 3 then [n.a, n.b] else if n.op ≤ 5 then [n.a] else []

/-- A node writes an output port. -/
def Node.isOut (n : Node) : Bool := n.op == 5 || n.op == 6

/-- The header's fields: NODES, NIN, NOUT and IW. -/
def headerOf (w : BitVec 32) : Graph :=
  let v := w.toNat
  ⟨0, natBits v 19 10 + 1, natBits v 13 6 + 1, natBits v 7 6 + 1, 0, natBits v 5 2⟩

/-- Item 1 of R228. -/
def headerOk (w : BitVec 32) : Bool := natBits w.toNat 29 3 == 7 && natBits w.toNat 5 2 != 3 && natBits w.toNat 0 5 == 0

/-! ## Well-formed graphs (R228 to R230) -/

/-- What a graph's checks come to. -/
inductive GraphCheck where
  | ok (depth : Nat)
  | malformed (index reason : Nat)
  | deep (depth : Nat)
  | wide (node : Nat)
deriving DecidableEq, Repr

/-- Item 2 of R228 for a node: its fields are defined, and zero where its row says. An input reference with a bit of [9:6] that is not 0 counts
here, which no item names (LOG 117 DEDUCED). -/
def Node.fieldsOk (n : Node) : Bool :=
  decide (1 ≤ n.op ∧ n.op ≤ 6) && n.wc != 3 && n.low == 0
    && (n.op != 4 || n.b == 0)
    && (!n.isOut || (n.sh == 0 && n.wc == 2 && natBits n.b 6 5 == 0))
    && (n.op != 6 || n.a == 0)
    && n.refs.all fun r => !isInput r || natBits r 6 4 == 0

/-- The item of R228 that node `i` breaks, if one; `outs` says which lower nodes write a port, `ports` which ports are written. -/
def Node.broken (n : Node) (g : Graph) (i : Nat) (outs : List Bool) (ports : List Nat) : Option Nat :=
  let p := natBits n.b 0 6
  if !n.fieldsOk then some 2
  else if n.refs.any fun r => !isInput r && decide (i ≤ r) then some 3
  else if n.refs.any fun r => isInput r && decide (g.nin ≤ natBits r 0 6) then some 4
  else if n.isOut && (decide (g.nout ≤ p) || ports.contains p) then some 5
  else if n.refs.any fun r => !isInput r && nth false outs r then some 6
  else none

/-- Items 2 to 6 of R228 over the nodes, in node order (LOG 29 DEDUCED). -/
def checkNodes (g : Graph) : List Node → Nat → List Bool → List Nat → Option (Nat × Nat)
  | [], _, _, ports => if ports.length = g.nout then none else some (0x400, 5)
  | n :: r, i, outs, ports =>
    match n.broken g i outs ports with
    | some k => some (i, k)
    | none => checkNodes g r (i + 1) (outs ++ [n.isOut]) (if n.isOut then ports ++ [natBits n.b 0 6] else ports)

/-- Level of an operand (R229). -/
def refLevel (lv : List Nat) (r : Nat) : Nat := if isInput r then 0 else nth 0 lv r

/-- The depth of a graph (R229). -/
def graphDepth : List Node → List Nat → Nat
  | [], lv => lv.foldl max 0
  | n :: r, lv => graphDepth r (lv ++ [if n.isOut then 0 else 1 + ((if n.op = 4 then [n.a] else n.refs).map (refLevel lv)).foldl max 0])

/-- The interval of an input (R230). -/
def inputRange (iw : Nat) : Int × Int := if iw = 0 then (-128, 127) else if iw = 1 then (-32768, 32767) else (-8, 7)

/-- The interval of a node (R230). -/
def nodeRange (n : Node) (x y : Int × Int) : Int × Int :=
  let s : Int := (2 ^ n.sh : Nat)
  match n.op with
  | 1 => (x.1 + s * y.1, x.2 + s * y.2)
  | 2 => (x.1 - s * y.2, x.2 - s * y.1)
  | 3 => (s * y.1 - x.2, s * y.2 - x.1)
  | _ => (s * x.1, s * x.2)

/-- The lowest node whose interval leaves its width (R230). -/
def widthFault (g : Graph) : List Node → Nat → List (Int × Int) → Option Nat
  | [], _, _ => none
  | n :: r, i, iv =>
    if n.isOut then widthFault g r (i + 1) (iv ++ [(0, 0)])
    else
      let at_ (q : Nat) : Int × Int := if isInput q then inputRange g.iw else nth (0, 0) iv q
      let v := nodeRange n (at_ n.a) (at_ n.b)
      let lim : Int := (2 ^ (15 + 8 * n.wc) : Nat)
      if v.1 < -lim ∨ lim ≤ v.2 then some i else widthFault g r (i + 1) (iv ++ [v])

/-- The checks of a graph whose words, header first, are `ws`; words past its nodes must be NONE (R228 to R230). -/
def checkGraph (ws : List (BitVec 32)) : GraphCheck :=
  let h := ws.headD 0
  if !headerOk h then .malformed 0x400 1
  else
    let g := headerOf h
    let nodes := (ws.tail.take g.nodes).map Node.ofWord
    match (checkNodes g nodes 0 [] []).filter (fun e => e.1 < 0x400) with
    | some (i, k) => .malformed i k
    | none =>
      match (upFrom (g.nodes + 1) (ws.length - (g.nodes + 1))).find? fun k => nth 0 ws k != 0 with
      | some k => .malformed (k - 1) 2
      | none =>
        match checkNodes g nodes 0 [] [] with
        | some (i, k) => .malformed i k
        | none =>
          let d := graphDepth nodes []
          if 64 < d then .deep d
          else match widthFault g nodes 0 [] with
            | some i => .wide i
            | none => .ok d

/-! ## Graph slots and positions (R225) -/

/-- Node positions of the fabric. -/
def inlayPositions : Nat := 2048

/-- The graph of a slot. -/
def Inlay.graph (x : Inlay) (n : Nat) : Option Graph := tabGet none x.graphs n

/-- The fabric with a graph slot replaced. -/
def Inlay.setGraph (x : Inlay) (n : Nat) (g : Option Graph) : Inlay := { x with graphs := tabSet none x.graphs n g }

/-- A position belongs to a resident graph. -/
def Inlay.taken (x : Inlay) (p : Nat) : Bool :=
  x.graphs.any fun e => match e.2 with
    | some g => decide (g.base ≤ p ∧ p ≤ g.base + g.nodes)
    | none => false

/-- The lengths of the free runs that start at each position, from the last position down to the first. -/
def freeRuns (x : Inlay) : Nat → List Nat
  | 0 => []
  | n + 1 =>
    let rest := freeRuns x n
    (if x.taken (inlayPositions - 1 - n) then 0 else rest.headD 0 + 1) :: rest

/-- The lowest position that starts a free run of a length. -/
def Inlay.place (x : Inlay) (len : Nat) : Option Nat := (freeRuns x inlayPositions).findIdx? fun n => decide (len ≤ n)

/-- Words written at consecutive positions. -/
def writeNodes : Table (BitVec 32) → Nat → List (BitVec 32) → Table (BitVec 32)
  | t, _, [] => t
  | t, p, w :: ws => writeNodes (tabSet 0 t p w) (p + 1) ws

/-- A checked graph placed at a position and in a slot. -/
def Inlay.install (x : Inlay) (slot base depth : Nat) (ws : List (BitVec 32)) : Inlay :=
  let g := { headerOf (ws.headD 0) with base := base, depth := depth }
  { x with nodes := writeNodes x.nodes base (ws.take (g.nodes + 1)) }.setGraph slot (some g)

/-- The preload scan from a position (R237): the fabric with its graphs, or none when a graph breaks a rule. A word of OP 0 ends the scan
whatever its other bits are (LOG 96 DESIGN CHOICE). -/
def inlayScan : Nat → Nat → Nat → Inlay → Option Inlay
  | 0, _, _, x => some x
  | fuel + 1, slot, p, x =>
    let w := tabGet 0 x.nodes p
    if 4 ≤ slot ∨ inlayPositions ≤ p ∨ natBits w.toNat 29 3 = 0 then some x
    else
      let n := (headerOf w).nodes
      if inlayPositions < p + n + 1 then none
      else
        let ws := (upFrom p (n + 1)).map fun q => tabGet 0 x.nodes q
        match checkGraph ws with
        | .ok d => inlayScan fuel (slot + 1) (p + n + 1) (x.install slot p d ws)
        | _ => none

/-! ## ILOAD, IUNLOAD, ISTAT (R231 to R233) -/

/-- The state with a tile's Inlay fabric replaced. -/
def State.setInlay (s : State) (t : Nat) (x : Inlay) : State := s.setTile t { s.tile t with inlay := x }

/-- The synchronous instructions wait until every earlier entry has executed (R203): until the queue is empty, entries that other strands issue
while they wait among them (LOG 120 DEDUCED). -/
def inlaySync (s : State) : M Unit := await s.curTile.inlay.queue.isEmpty s

/-- Whether `n` bytes from an offset lie in scratchpad banks. -/
def Tile.inBanks (t : Tile) (off n : Nat) : Bool :=
  decide (off + n ≤ 0xC0000) && (upFrom (off / 0x10000) ((off + n - 1) / 0x10000 + 1 - off / 0x10000)).all fun b => t.banks.getLsbD b

/-- Words of a graph image (R227). -/
def imageWords (t : Tile) (off n : Nat) : List (BitVec 32) :=
  (upFrom 0 n).map fun i => BitVec.ofNat 32 (readNat t.spad (off + 4 * i) 4)

/-- ILOAD. -/
def iloadEff (d a : BitVec 6) (s : State) : M Eff := do
  let off := s.curStrand.rg a
  demand (off.toNat % 32 == 0) s .misaligned off
  inlaySync s
  let t := s.curTile
  demand (t.inBanks off.toNat 32) s .spadRange off
  let h := (imageWords t off.toNat 1).headD 0
  let g := headerOf h
  let frames := if headerOk h then (g.nodes + 8) / 8 else 1
  demand (t.inBanks off.toNat (32 * frames)) s .spadRange off
  let ws := imageWords t off.toNat (8 * frames)
  match checkGraph ws with
  | .malformed i r => trapM s .inlayGraph (BitVec.ofNat 64 (i * 256 + r))
  | .deep n => trapM s .inlayCapacity (BitVec.ofNat 64 (n * 256 + 3))
  | .wide i => trapM s .inlayWidth (BitVec.ofNat 64 i)
  | .ok depth =>
    let x := t.inlay
    match (upFrom 0 4).find? fun n => (x.graph n).isNone with
    | none => trapM s .inlayCapacity 1
    | some slot =>
      match x.place (g.nodes + 1) with
      | none => trapM s .inlayCapacity (BitVec.ofNat 64 ((g.nodes + 1) * 256 + 2))
      | some base =>
        let s1 := s.setInlay s.cur.tile (x.install slot base depth ws)
        return .done ((s1.setCur (s1.curStrand.wg d (BitVec.ofNat 64 slot))).ask (.firingDispatch s.cur.tile))

/-- ILOAD (R231). -/
def execIload (d a : BitVec 6) (s : State) : Host.Outcome State Fault Refusal := issueM s [d, a] (iloadEff d a s)

/-- IUNLOAD (R232). -/
def execIunload (slot : BitVec 2) (s : State) : Host.Outcome State Fault Refusal :=
  issueM s [] (do
    inlaySync s
    return .done (s.setInlay s.cur.tile (s.curTile.inlay.setGraph slot.toNat none)))

/-- ISTAT's value for a graph slot (R233). -/
def graphStat (g : Option Graph) : Nat :=
  match g with
  | none => 0
  | some g => 2 ^ 63 + g.base * 2 ^ 52 + g.nodes * 2 ^ 41 + g.nin * 2 ^ 34 + g.nout * 2 ^ 27 + g.depth * 2 ^ 20 + g.iw * 2 ^ 18

/-- ISTAT's value for the fabric (R233). -/
def fabricStat (x : Inlay) : Nat :=
  let runs := freeRuns x inlayPositions
  let mask := (upFrom 0 4).foldl (fun n k => if (x.graph k).isSome then n + 2 ^ k else n) 0
  (runs.filter (· != 0)).length * 2 ^ 52 + runs.foldl max 0 * 2 ^ 40 + x.out.length * 2 ^ 33 + mask * 2 ^ 29

/-- ISTAT (R233). -/
def execIstat (d : BitVec 6) (sel : BitVec 3) (s : State) : Host.Outcome State Fault Refusal :=
  issueM s [d] (do
    inlaySync s
    let x := s.curTile.inlay
    let v := if sel.toNat < 4 then graphStat (x.graph sel.toNat) else fabricStat x
    return .done (s.setCur (s.curStrand.wg d (BitVec.ofNat 64 v))))

/-! ## IRUN and IDRAIN at issue (R234, R235) -/

/-- An entry of the issuing strand: it waits while the queue holds eight (R203). -/
def inIssue (op : InOp) (s : State) : M Eff := do
  let x := s.curTile.inlay
  await (decide (x.queue.length < 8)) s
  return .done ((s.setInlay s.cur.tile { x with queue := x.queue ++ [⟨op, s.issuer⟩] }).ask (.inlayEntryExecute s.cur.tile))

/-- IRUN from a ring (R234). -/
def execIrunH (a : BitVec 4) (slot : BitVec 2) (nm1 : BitVec 6) (s : State) : Host.Outcome State Fault Refusal :=
  issueM s [] (inIssue (.run (.ring a.toNat) slot.toNat (nm1.toNat + 1)) s)

/-- IRUN from a queue (R234). -/
def execIrunQ (a : BitVec 5) (slot : BitVec 2) (nm1 : BitVec 6) (s : State) : Host.Outcome State Fault Refusal :=
  issueM s [] (do
    engineQueue s a QBind.feedsRow
    inIssue (.run (.queue a.toNat) slot.toNat (nm1.toNat + 1)) s)

/-- IDRAIN (R235). -/
def execIdrain (dst : Dest) (nf : NFmt) (nm1 : BitVec 6) (s : State) : Host.Outcome State Fault Refusal :=
  issueM s [] (match dst with
    | .ring h => inIssue (.drain (.ring h.toNat) nf.code.toNat (nm1.toNat + 1)) s
    | .queue q => do
      engineQueue s q QBind.pushes
      inIssue (.drain (.queue q.toNat) nf.code.toNat (nm1.toNat + 1)) s)

/-! ## Execution (R234, R235) -/

/-- The Inlay fabric discards its head entry and every later entry of the same strand, and the fault is delivered (R205). -/
def State.inFault (s : State) (t : Nat) (e : InEntry) (c : Cause) (reason detail : Nat) : State :=
  let x := (s.tile t).inlay
  let left := x.queue.tail.filter fun q => q.who.strand != e.who.strand
  (s.setInlay t { x with queue := left, done := 0, part := [], slotPos := 0 }).engineFault t e.who c reason detail

/-- The firing that an entry acts for. -/
def State.inFiring (s : State) (t : Nat) (w : Issuer) : FiringRef :=
  match w.strand with
  | some k => (if s.issuerRuns t w then (s.strandOf t k).firing else none,
      fun s f => s.setStrandOf t k { s.strandOf t k with firing := some f })
  | none => ((s.tile t).inlay.firing, fun s f => s.setInlay t { (s.tile t).inlay with firing := some f })

/-- The head entry has completed. When it was the last of an Inlay firing, the firing may commit (R236). -/
def State.inDone (s : State) (t : Nat) : State :=
  let x := (s.tile t).inlay
  match x.queue with
  | [] => s
  | e :: rest =>
    let s1 := s.setInlay t { x with queue := rest, done := 0, part := [], slotPos := 0 }
    let s2 := if e.who.strand.isNone && !rest.any (fun q => q.who.strand.isNone) then s1.ask (.engineFiringCommit t 3) else s1
    s2.ask (.firingDispatch t)

/-- Bits of an input element (R226). -/
def iwBits (iw : Nat) : Nat := if iw = 0 then 8 else if iw = 1 then 16 else 4

/-- Bytes of an input vector (R234). -/
def vectorBytes (g : Graph) : Nat := (g.nin * iwBits g.iw + 7) / 8

/-- Tokens of an input vector (R234). -/
def vectorTokens (g : Graph) : Nat := (g.nin + 64 / iwBits g.iw - 1) / (64 / iwBits g.iw)

/-- The signed value of an element code. -/
def signedCode (w v : Nat) : Int := if v % 2 ^ w < 2 ^ (w - 1) then (v % 2 ^ w : Nat) else (v % 2 ^ w : Nat) - (2 ^ w : Nat)

/-- A value on the fabric with its exception bit. -/
abbrev InVal := Int × Bool

/-- The nodes of a graph evaluated in order on an input vector: the values of its ports (R225, R226). -/
def evalNodes (x : List InVal) : List Node → List InVal → Table InVal → Table InVal
  | [], _, out => out
  | n :: r, vals, out =>
    let at_ (q : Nat) : InVal := if isInput q then nth (0, false) x (natBits q 0 6) else nth (0, false) vals q
    let a := at_ n.a
    let b := at_ n.b
    let sb := b.1 * (2 ^ n.sh : Nat)
    let v : InVal := match n.op with
      | 1 => (a.1 + sb, a.2 || b.2)
      | 2 => (a.1 - sb, a.2 || b.2)
      | 3 => (sb - a.1, a.2 || b.2)
      | 4 => (a.1 * (2 ^ n.sh : Nat), a.2)
      | _ => (0, false)
    let out1 := if n.op = 5 then tabInsert (tabErase out (natBits n.b 0 6)) (natBits n.b 0 6) a else out
    evalNodes x r (vals ++ [v]) out1

/-- The output vector of a resident graph for an input vector. -/
def Inlay.eval (x : Inlay) (g : Graph) (v : List InVal) : OutVec :=
  let nodes := (upFrom (g.base + 1) g.nodes).map fun p => Node.ofWord (tabGet 0 x.nodes p)
  let out := evalNodes v nodes [] []
  ⟨(upFrom 0 g.nout).map fun p => let y := tabGet (0, false) out p; (BitVec.ofInt 32 y.1, y.2)⟩

/-- A vector enters the fabric. -/
def State.inVector (s : State) (t : Nat) (g : Graph) (v : List InVal) (pos : Nat) : State :=
  let x := (s.tile t).inlay
  s.setInlay t { x with out := x.out ++ [x.eval g v], done := x.done + 1, part := [], slotPos := pos }

/-- An IRUN goes on until its source waits or it faults; `fuel` bounds the takes. Of the reasons of INLAY_STATE that hold, the lowest number is
taken (LOG 119 DEDUCED). -/
def inRun (t : Nat) (e : InEntry) (src : Side) (slot n : Nat) : Nat → State → State
  | 0, s => s
  | fuel + 1, s =>
    let y := s.tile t
    let x := y.inlay
    if n ≤ x.done then
      (match src with
        | .ring h => s.setTile t (y.endDrain h x.slotPos)
        | _ => s).inDone t
    else match x.graph slot with
      | none => s.inFault t e .inlayState 1 slot
      | some g =>
        if 64 < x.out.length + (n - x.done) then s.inFault t e .inlayState 2 (64 - x.out.length)
        else
          let w := iwBits g.iw
          match src with
          | .ring h =>
            let bytes := vectorBytes g
            if (y.ring h).slotBytes < bytes then s.inFault t e .inlayState 4 bytes
            else match ringRowTake s t h bytes x.slotPos with
              | none => s
              | some (bs, s1, pos) =>
                let v := (unpackCodes w g.nin (leNat bs)).map fun c => (signedCode w c, false)
                inRun t e src slot n fuel (s1.inVector t g v pos)
          | side =>
            match engineTake s t side (s.inFiring t e.who) with
            | .wait => s
            | .rate ch => s.inFault t e .channelRate 1 ch
            | .ok s1 v _ =>
              if v.scale then inRun t e src slot n fuel s1
              else
                let part := x.part ++ [v]
                if part.length = vectorTokens g then
                  let vs := (part.flatMap fun v => (unpackCodes w (64 / w) v.payload.toNat).map fun c => (signedCode w c, v.exc)).take g.nin
                  inRun t e src slot n fuel (s1.inVector t g vs 0)
                else inRun t e src slot n fuel (s1.setInlay t { (s1.tile t).inlay with part := part })

/-- Bits of an element of an NF code (R235). -/
def nfBits (nf : Nat) : Nat := if nf = 0 then 32 else if nf = 1 then 16 else 8

/-- A vector's elements narrowed to NF with saturation: code, exception bit and the causes raised (R235). -/
def narrowVec (nf : Nat) (v : OutVec) : List (Nat × Bool × FlagSet) :=
  v.vals.map fun e =>
    let i := e.1.toInt
    let r := clampInt (nfBits nf) (decide (i < 0)) i.natAbs
    (r.1, e.2 || r.2, if r.2 then fSAT else 0)

/-- A list cut into pieces of `k`; `fuel` bounds their number. -/
def pieces {α : Type} (k : Nat) : Nat → List α → List (List α)
  | 0, _ => []
  | fuel + 1, l => if l.isEmpty then [] else l.take k :: pieces k fuel (l.drop k)

/-- The tokens of a narrowed vector (R235). -/
def vectorOut (nf : Nat) (l : List (Nat × Bool × FlagSet)) : List Token :=
  (pieces (64 / nfBits nf) 64 l).map fun p =>
    ⟨BitVec.ofNat 64 (packCodes (nfBits nf) (p.map (·.1))), false, p.any (·.2.1), Token.idle.origin⟩

/-- A vector written to a ring, from byte `x.slotPos` of its slot on; a slot that cannot hold it any more is advanced first, and one
that is full after it is advanced then, and so is one that could hold a shorter vector only (LOG 118 DEDUCED). None while the ring has no free
slot. -/
def inRingPut (s : State) (t h : Nat) (bs : List Byte) : Option State :=
  let y := s.tile t
  let at0 := y.inlay.slotPos
  let r := y.ring h
  let full := decide (at0 ≠ 0 ∧ r.slotBytes < at0 + bs.length)
  let r1 := if full then r.advFill 1 else r
  let pos := if full then 0 else at0
  if pos = 0 ∧ r1.free = 0 then (if full then some (s.setTile t { y.setRing h r1 with inlay := { y.inlay with slotPos := 0 } }) else none)
  else
    let z := (y.setRing h r1).spadWrite (r1.fillAt + pos) bs
    let next := pos + bs.length
    let last := r1.slotBytes < next + bs.length
    let z1 := if last then z.setRing h (r1.advFill 1) else z
    some (s.setTile t { z1 with inlay := { z1.inlay with slotPos := if last then 0 else next, done := z1.inlay.done + 1, out := z1.inlay.out.tail } })

/-- An IDRAIN goes on until its destination waits or it faults; `fuel` bounds the moves. -/
def inDrain (t : Nat) (e : InEntry) (dst : Side) (nf n : Nat) : Nat → State → State
  | 0, s => s
  | fuel + 1, s =>
    let y := s.tile t
    let x := y.inlay
    if n ≤ x.done then
      (match dst with
        | .ring h => s.setTile t (y.endFill h x.slotPos)
        | _ => s).inDone t
    else match dst, x.part, x.out with
      | .ring h, _, v :: _ =>
        if x.out.length < n - x.done then s.inFault t e .inlayState 3 x.out.length
        else
          let bytes := v.vals.length * nfBits nf / 8
          if (y.ring h).slotBytes < bytes then s.inFault t e .inlayState 4 bytes
          else
            let l := narrowVec nf v
            match inRingPut s t h (natLe bytes (packCodes (nfBits nf) (l.map (·.1)))) with
            | none => s
            | some s1 =>
              if (s1.tile t).inlay.done = x.done then s1
              else
                let who := e.who.sinkWho
                let s2 := s1.setTile t ((s1.tile t).raise (l.foldl (fun f p => f ||| p.2.2) 0) fSRCINL)
                let base := x.done * v.vals.length
                inDrain t e dst nf n fuel (sinkElems t 3 who.1 who.2 (fun k => (nth (0, false) v.vals (k - base)).2) base l s2)
      | side, v :: rest, _ =>
        match enginePut s t side (s.inFiring t e.who) v with
        | .wait => s
        | .rate ch => s.inFault t e .channelRate 1 ch
        | .ok s1 _ _ =>
          let z := (s1.tile t).inlay
          inDrain t e dst nf n fuel (s1.setInlay t (if rest.isEmpty then { z with part := [], done := z.done + 1, out := z.out.tail }
            else { z with part := rest }))
      | _, [], v :: _ =>
        if x.out.length < n - x.done then s.inFault t e .inlayState 3 x.out.length
        else
          let l := narrowVec nf v
          let s1 := s.setTile t (y.raise (l.foldl (fun f p => f ||| p.2.2) 0) fSRCINL)
          inDrain t e dst nf n fuel (s1.setInlay t { (s1.tile t).inlay with part := vectorOut nf l })
      | _, [], [] => s.inFault t e .inlayState 3 0

/-- The head entry of the Inlay queue executes as far as it can. -/
def State.inStep (s : State) (t : Nat) : State :=
  match (s.tile t).inlay.queue with
  | [] => s
  | e :: _ =>
    match e.op with
    | .run src slot n => inRun t e src slot n 4096 s
    | .drain dst nf n => inDrain t e dst nf n 4224 s

/-- INLAY_ENTRY_EXECUTE (R234): the head entry executes; the step follows again while the queue holds an entry. -/
def execInlayEntryExecute (t : Nat) (s : State) : Host.Outcome State Fault Refusal :=
  .next (if s.active t then
      let s1 := s.inStep t
      if (s1.tile t).inlay.queue.isEmpty then s1 else s1.ask (.inlayEntryExecute t)
    else s)

end Sys2Proof.Machine
end

