-- ==== Sys2Proof/Machine/Crc.lean ====
section
/-!
DEFINITION. CRC-32 with the IEEE 802.3 polynomial, which 12_wafer_fabric.md R390, R398 and 13_links_and_host.md R424 name (LOG 100 PRESUMED:
bits go in lowest first, and the remainder begins as, and is combined at the end with, all ones).
-/
namespace Sys2Proof.Machine

/-- One bit position of the remainder shifted out: the polynomial with its lowest power first. -/
def crcShift (c : BitVec 32) : BitVec 32 := (c >>> 1) ^^^ (if c.getLsbD 0 then 0xEDB88320#32 else 0)

/-- A byte taken into the remainder. -/
def crcByte (c : BitVec 32) (b : Byte) : BitVec 32 :=
  let x := c ^^^ b.zeroExtend 32
  crcShift (crcShift (crcShift (crcShift (crcShift (crcShift (crcShift (crcShift x)))))))

/-- CRC-32 of bytes. -/
def crc32 (bs : List Byte) : BitVec 32 := ~~~(bs.foldl crcByte 0xFFFFFFFF#32)

/-- CRC-32 of little-endian words. -/
def crcWords (ws : List Word) : BitVec 32 := crc32 (ws.flatMap fun w => natLe 8 w.toNat)

end Sys2Proof.Machine
end

