-- ==== Sys2Proof/Machine/Network.lean ====
section
/-!
DEFINITION. Routes on the mesh, dataflow tokens and chunks (08_network_version_system.md R240 to R253; 12_wafer_fabric.md R389 to
R394, R464): the route instructions, the network queue, packets on links, router combines, and chunk firings. Responses on VC 1, the memory
requests of VC 0 and the control messages of VC 3 beside dataflow tokens and free-space returns lie in no lane: what they carry takes effect in
the step that sends them (LOG 114 DEDUCED).
-/
namespace Sys2Proof.Machine

/-! ## Route entries (Table 12.3) -/

/-- Entry of a route at a tile. -/
def Tile.route (t : Tile) (n : Nat) : Word := tabGet 0 t.routes n

/-- VALID. -/
def rValid (e : Word) : Bool := e.getLsbD 63
/-- KIND: 0 point-to-point, 1 broadcast, 2 reduction. -/
def rKind (e : Word) : Nat := field e 61 2
/-- SRC. -/
def rSrc (e : Word) : Bool := e.getLsbD 60
/-- OUT of a port; ports are LOCAL 0, WEST 1, EAST 2, NORTH 3, SOUTH 4. -/
def rOut (e : Word) (p : Nat) : Bool := e.getLsbD (59 - p)
/-- IN of a port. -/
def rIn (e : Word) (p : Nat) : Bool := e.getLsbD (54 - p)
/-- RULE. -/
def rRule (e : Word) : Nat := field e 47 3
/-- Depth of the receive queue. -/
def rDepth (e : Word) : Nat := field e 41 6 + 1

/-- Virtual channel of a route's packets (Table 8.1). -/
def rVc (e : Word) : Nat := if rKind e = 2 then 2 else 0

/-- The tile next to a tile of a region in the direction of a port. -/
def Region.beside (r : Region) (t : Tile) (p : Nat) : Option Nat :=
  let at_ (row col : Nat) : Option Nat := if row < r.info.rows ∧ col < r.info.cols then some (r.physical (row * r.info.cols + col)) else none
  match p with
  | 1 => if t.col = 0 then none else at_ t.row (t.col - 1)
  | 2 => at_ t.row (t.col + 1)
  | 3 => if t.row = 0 then none else at_ (t.row - 1) t.col
  | 4 => at_ (t.row + 1) t.col
  | _ => none

/-- The tiles of a region that a route passes. -/
def State.routeTiles (s : State) (h : BitVec 32) (n : Nat) : List Nat :=
  (s.region h).tiles.filter fun t => rValid ((s.tile t).route n)

/-- The scope of a route (R240): the smallest level that contains its tiles. -/
def State.routeScope (s : State) (h : BitVec 32) (n : Nat) : Scope :=
  match s.routeTiles h n with
  | [] => .til
  | t :: r => if r.isEmpty then .til else if r.all fun u => clusterOf u == clusterOf t then .clu else .waf

/-- The destinations of a route: logical numbers and queue depths (R391). -/
def State.routeEnds (s : State) (h : BitVec 32) (n : Nat) : List (Nat × Nat) :=
  ((s.routeTiles h n).filter fun t => rOut ((s.tile t).route n) 0).map fun t =>
    (logicalOf (s.region h) (s.tile t), rDepth ((s.tile t).route n))

/-! ## Injection -/

/-- Packets in a tile's injection buffer of a virtual channel. -/
def Tile.injected (t : Tile) (vc : Nat) : List Packet := tabGet [] t.inject vc

/-- A tile with an injection buffer replaced. -/
def Tile.setInjected (t : Tile) (vc : Nat) (l : List Packet) : Tile := { t with inject := tabSet [] t.inject vc l }

/-- The injection buffer of a virtual channel has room (R244). -/
def Tile.injectRoom (t : Tile) (vc : Nat) : Bool := decide ((t.injected vc).length < 8)

/-- Output ports of a route at a tile, in port order. -/
def Tile.outsOf (t : Tile) (route : Nat) : List Nat := (upFrom 0 5).filter (rOut (t.route route))

/-- The routers of the logical hop of a tile in the direction of a logical port. -/
def State.outPath (s : State) (t d : Nat) : List Nat :=
  let x := s.tile t
  match (s.region x.handle).beside x d with
  | some u => s.passPath x.handle t u
  | none => []

/-- The output port of a tile's router that a logical output port uses: another one where the hop begins with a sidestep (R383). -/
def State.physPort (s : State) (t d : Nat) : Nat :=
  match s.outPath t d with
  | n :: _ => dirOf t n
  | [] => d

/-- The steps of a router that a packet asks for: each output port that has still to take it. -/
def State.askHops (s : State) (t : Nat) (p : Packet) : State := p.outs.foldl (fun s d => s.ask (.meshPacketHop t (s.physPort t d) 0)) s

/-- A packet as it stands in an injection buffer: its virtual channel, its region tag and the output ports that it waits for. -/
def Packet.stamp (p : Packet) (x : Tile) (vc : Nat) : Packet :=
  { p with vc := vc, tag := Config.regionTag x.handle, outs := if vc = 2 then [] else x.outsOf p.route }

/-- A packet put into an injection buffer of a tile. A contribution to a reduction goes on to its router's combine input. -/
def State.inject (s : State) (t vc : Nat) (p : Packet) : State :=
  let x := s.tile t
  let q := p.stamp x vc
  let s1 := s.setTile t (x.setInjected vc (x.injected vc ++ [q]))
  if vc = 2 then s1.ask (.routerCombine t p.route) else s1.askHops t q

/-- The network queue of a tile holds a send of a virtual channel. -/
def Tile.sendsQueued (t : Tile) (vc : Nat) : Bool := t.netq.any fun e => !e.recv && rVc (t.route e.route) == vc

/-- The four uses of a route (Table 8.1). -/
inductive RouteUse where
  | send | broadcast | reduce | receive
deriving DecidableEq, Repr

/-- A route is configured at a tile in the role that a use needs. -/
def RouteUse.allowed (u : RouteUse) (e : Word) : Bool :=
  rValid e && match u with
    | .send => rKind e == 0 && rSrc e
    | .broadcast => rKind e == 1 && rSrc e
    | .reduce => rKind e == 2 && rIn e 0
    | .receive => rOut e 0

/-- The check of R243 on the route. -/
def routeCheck (u : RouteUse) (route : BitVec 8) (s : State) : M Unit :=
  demand (u.allowed (s.curTile.route route.toNat)) s .netRoute (route.zeroExtend 64)

/-- The release of NSEND and NBCAST at the route's scope; NRED has none (R248). -/
def routeRelease (u : RouteUse) (route : BitVec 8) (s : State) : State :=
  match u with
  | .send | .broadcast => s.releaseAt s.cur.tile (s.routeScope s.curTile.handle route.toNat)
  | .reduce | .receive => s

/-- The elements of a rule's results are FP32 (R80, R390). -/
def ruleWide (rule : Nat) : Bool := rule != 2 && rule != 5

/-- Whether the elements of a contribution to a reduction are FP32 (R390, R394): a bfadd route takes BF16 from a strand (LOG 55 DEDUCED). -/
def sendWide (u : RouteUse) (e : Word) : Bool := u == .reduce && rRule e != 1 && ruleWide (rRule e)

/-- A packet that a tile makes: it is stamped where it is injected. -/
def Packet.make (route : Nat) (words : List Word) (last wide : Bool) (src : Nat) (sender : Option (Fin 4)) : Packet :=
  ⟨route, words, last, false, wide, src, sender, 0, 0, []⟩

/-- Bits 63 to 32 of a packet's sideband (R390). -/
def Packet.head (p : Packet) : BitVec 32 :=
  BitVec.ofNat 32 (p.route % 256 * 2 ^ 24 + p.vc % 4 * 2 ^ 22 + (p.words.length - 1) % 8 * 2 ^ 19 + (if p.last then 2 ^ 18 else 0)
    + (if p.exc then 2 ^ 17 else 0) + (if p.wide then 2 ^ 16 else 0) + p.tag.toNat)

/-- The sideband of a packet's flit (R390): its low half is the CRC-32 of the 512 payload bits and of the sideband's high half. -/
def Packet.sideband (p : Packet) : Word :=
  let pay := (upFrom 0 8).flatMap fun i => natLe 8 (nth 0 p.words i).toNat
  p.head ++ crc32 (pay ++ natLe 4 p.head.toNat)

/-- A register-form send (R244). It goes behind the sends of its channel that the network queue holds (R247). -/
def sendEff (u : RouteUse) (a : BitVec 6) (route : BitVec 8) (n : Nat) (s : State) : M Eff := do
  routeCheck u route s
  let s1 := routeRelease u route s
  let x := s1.curTile
  let e := x.route route.toNat
  await (x.injectRoom (rVc e) && !x.sendsQueued (rVc e)) s1
  let src := logicalOf s1.curRegion x
  return .done (s1.inject s.cur.tile (rVc e)
    (.make route.toNat (s.curStrand.rgs a.toNat n) true (sendWide u e) src (some s.cur.strand)))

/-- NSEND (R244). -/
def execNsend (a : BitVec 6) (route : BitVec 8) (nm1 : BitVec 3) (s : State) : Host.Outcome State Fault Refusal :=
  issueM s (gRange a (nm1.toNat + 1)) (sendEff .send a route (nm1.toNat + 1) s)

/-- NBCAST (R244). -/
def execNbcast (a : BitVec 6) (route : BitVec 8) (nm1 : BitVec 3) (s : State) : Host.Outcome State Fault Refusal :=
  issueM s (gRange a (nm1.toNat + 1)) (sendEff .broadcast a route (nm1.toNat + 1) s)

/-- NRED (R244). -/
def execNred (a : BitVec 6) (route : BitVec 8) (nm1 : BitVec 3) (s : State) : Host.Outcome State Fault Refusal :=
  issueM s (gRange a (nm1.toNat + 1)) (sendEff .reduce a route (nm1.toNat + 1) s)

/-! ## Receiving -/

/-- Packets in a tile's receive queue of a route. -/
def Tile.received (t : Tile) (n : Nat) : List Packet := tabGet [] t.recv n

/-- A tile with a receive queue replaced. -/
def Tile.setReceived (t : Tile) (n : Nat) (l : List Packet) : Tile := { t with recv := tabSet [] t.recv n l }

/-- Key of a pop count (R391). -/
def popKey (route src dst : Nat) : Nat := (route * 65536 + src) * 65536 + dst

/-- The head packet of a receive queue taken: the pop is counted for its source's credits. -/
def State.popPacket (s : State) (t route : Nat) (p : Packet) : State :=
  let x := s.tile t
  let s1 := s.setTile t (x.setReceived route (x.received route).tail)
  let r := s1.region x.handle
  let k := popKey route p.src (logicalOf r x)
  s1.setRegion x.handle { r with popped := tabSet 0 r.popped k (tabGet 0 r.popped k + 1) }

/-- The running firing counts a packet of a route; the result is the number it had popped before (R244). -/
def countPacket (f : Firing) (route : Nat) : Nat × Firing :=
  let n := tabGet 0 f.packets route
  (n, { f with packets := tabSet 0 f.packets route (n + 1) })

/-- NRECV. -/
def nrecvEff (d : BitVec 6) (route : BitVec 8) (n : Nat) (s : State) : M Eff := do
  routeCheck .receive route s
  let x := s.curTile
  match x.received route.toNat with
  | [] => waitM s
  | p :: _ =>
    demand (p.words.length == n) s .netOperand (BitVec.ofNat 64 (2 * 2 ^ 48 + route.toNat))
    let s1 := (s.popPacket s.cur.tile route.toNat p)
    let s2 := s1.setCur (s1.curStrand.wgs d.toNat p.words)
    let s3 := if rKind (x.route route.toNat) = 2 then s2 else s2.acquireAt s.cur.tile (s.routeScope x.handle route.toNat)
    let y := s3.curStrand
    let (k, f) := match y.firing with
      | some f => let c := countPacket f route.toNat; (c.1, some c.2)
      | none => (0, none)
    let s4 := s3.setCur { y with firing := f }
    let who := sinkWho y.firing
    return .done (if p.exc then s4.sink s.cur.tile ⟨4, 0, true, p.words.headD 0, k, who.1, who.2⟩ else s4)

/-- NRECV (R244). -/
def execNrecv (d : BitVec 6) (route : BitVec 8) (nm1 : BitVec 3) (s : State) : Host.Outcome State Fault Refusal :=
  issueM s (gRange d (nm1.toNat + 1)) (nrecvEff d route (nm1.toNat + 1) s)

/-! ## Ring forms at issue (R243, R245) -/

/-- A ring form: the checks of R243, the release of a send, and an entry of the network queue, or a wait while it holds eight. A
slot is a multiple of 32 bytes, so its check never fails. -/
def ringFormEff (u : RouteUse) (h : BitVec 4) (route : BitVec 8) (ns : BitVec 13) (s : State) : M Eff := do
  routeCheck u route s
  let _ ← ringStart s h (ns.zeroExtend 64)
  let s1 := routeRelease u route s
  if ns = 0 then return .done s1
  else
    let x := s1.curTile
    await (decide (x.netq.length < 8)) s1
    let e : NetEntry := ⟨u == .receive, route.toNat, h.toNat, ns.toNat, 0, 0, 0, false, 0, s.issuer⟩
    return .done ((s1.setCurTile { x with netq := x.netq ++ [e] }).ask (.networkQueueEntry s.cur.tile))

/-- NSEND from a ring (R245). -/
def execNsendH (a : BitVec 4) (route : BitVec 8) (ns : BitVec 13) (s : State) : Host.Outcome State Fault Refusal :=
  issueM s [] (ringFormEff .send a route ns s)

/-- NBCAST from a ring (R245). -/
def execNbcastH (a : BitVec 4) (route : BitVec 8) (ns : BitVec 13) (s : State) : Host.Outcome State Fault Refusal :=
  issueM s [] (ringFormEff .broadcast a route ns s)

/-- NRED from a ring (R245). -/
def execNredH (a : BitVec 4) (route : BitVec 8) (ns : BitVec 13) (s : State) : Host.Outcome State Fault Refusal :=
  issueM s [] (ringFormEff .reduce a route ns s)

/-- NRECV to a ring (R245). -/
def execNrecvH (d : BitVec 4) (route : BitVec 8) (ns : BitVec 13) (s : State) : Host.Outcome State Fault Refusal :=
  issueM s [] (ringFormEff .receive d route ns s)

/-! ## The network queue (R245, R246) -/

/-- 64-bit words of bytes, lowest first. -/
def wordsOf : Nat → List Byte → List Word
  | 0, _ => []
  | n + 1, bs => BitVec.ofNat 64 (leNat (bs.take 8)) :: wordsOf n (bs.drop 8)

/-- A tile with the head entry of its network queue replaced. -/
def Tile.setNetHead (t : Tile) (e : NetEntry) : Tile := { t with netq := e :: t.netq.tail }

/-- The fault of R246: the entry and the later entries of its strand are discarded. -/
def State.netFault (s : State) (t : Nat) (e : NetEntry) : State :=
  let x := s.tile t
  (s.setTile t { x with netq := x.netq.tail.filter fun q => q.who.strand != e.who.strand }).engineFault t e.who .netOperand 1 e.route

/-- The next packet of a send entry's current slot; DRAIN advances after the slot's last one. -/
def netSend (s : State) (t : Nat) (e : NetEntry) : State :=
  let x := s.tile t
  let entry := x.route e.route
  let r := x.ring e.h
  let total := r.slotBytes / 8
  let n := min 8 (total - e.word)
  let last := decide (total ≤ e.word + 8)
  let u : RouteUse := if rKind entry = 2 then .reduce else .send
  let p : Packet := .make e.route (wordsOf n (x.spadRead (r.drainAt + 8 * e.word) (8 * n))) last (sendWide u entry)
    (logicalOf (s.region x.handle) x) e.who.strand
  let y := if last then (x.setRing e.h (r.advDrain 1)).setNetHead { e with done := e.done + 1, word := 0 }
    else x.setNetHead { e with word := e.word + 8 }
  (s.setTile t y).inject t (rVc entry) p

/-- The head packet of a receive entry's route written into its slot; FILL advances after the message's last one. -/
def netRecv (s : State) (t : Nat) (e : NetEntry) (p : Packet) : State :=
  let s1 := s.popPacket t e.route p
  let x := s1.tile t
  let r := x.ring e.h
  let y := x.spadWrite (r.fillAt + 8 * e.word) (p.words.flatMap fun w => natLe 8 w.toNat)
  let first := if e.word = 0 then p.words.headD 0 else e.first
  let exc := e.exc || p.exc
  if p.last then
    let s2 := s1.setTile t ((y.setRing e.h (r.advFill 1)).setNetHead
      { e with done := e.done + 1, word := 0, first := 0, exc := false, src := 0 })
    if exc then s2.sink t ⟨4, 0, true, first, e.done, e.who.actor, e.who.seq⟩ else s2
  else s1.setTile t (y.setNetHead { e with word := e.word + p.words.length, first := first, exc := exc, src := p.src })

/-- The head entry of the network queue goes on until it waits; `fuel` bounds its packets. -/
def netRun (t : Nat) : Nat → State → State
  | 0, s => s
  | fuel + 1, s =>
    let x := s.tile t
    match x.netq with
    | [] => s
    | e :: rest =>
      if e.n ≤ e.done then netRun t fuel (s.setTile t { x with netq := rest })
      else if e.recv then
        if e.word = 0 ∧ (x.ring e.h).free = 0 then s
        else match x.received e.route with
          | [] => s
          | p :: _ =>
            if (x.ring e.h).slotBytes < 8 * (e.word + p.words.length) ∨ (e.word ≠ 0 ∧ p.src ≠ e.src) then s.netFault t e
            else netRun t fuel (netRecv s t e p)
      else if (e.word = 0 ∧ (x.ring e.h).filled = 0) ∨ !x.injectRoom (rVc (x.route e.route)) then s
      else netRun t fuel (netSend s t e)

/-- NETWORK_QUEUE_ENTRY (R245): the network queue of a tile executes; the step follows again while it holds an entry. -/
def execNetworkQueueEntry (t : Nat) (s : State) : Host.Outcome State Fault Refusal :=
  .next (if s.active t then
      let s1 := netRun t 64 s
      if (s1.tile t).netq.isEmpty then s1 else s1.ask (.networkQueueEntry t)
    else s)

/-! ## Packets on the mesh (R389 to R394) -/

/-- Key of a lane (R389): the input port, the virtual channel, and whether the lane is the local one, which holds packets that leave
the mesh at this router. -/
def laneKey (port vc : Nat) (home : Bool) : Nat := (port * 4 + vc) * 2 + if home then 1 else 0

/-- Packets in a lane of a tile's router. -/
def Tile.linkLane (t : Tile) (port vc : Nat) (home : Bool) : List Packet := tabGet [] t.links (laneKey port vc home)

/-- Packets at an input of a router: key 0 is the injection buffer of a virtual channel, another key that lane. -/
def Tile.input (t : Tile) (vc key : Nat) : List Packet := if key = 0 then t.injected vc else tabGet [] t.links key

/-- A tile with an input of its router replaced. -/
def Tile.setInput (t : Tile) (vc key : Nat) (l : List Packet) : Tile :=
  if key = 0 then t.setInjected vc l else { t with links := tabSet [] t.links key l }

/-- The inputs of a router on a virtual channel, in the order in which the model's own steps look at them (LOG 102 DESIGN CHOICE). -/
def inputKeys (vc : Nat) : List Nat := 0 :: (upFrom 1 4).flatMap fun p => [laneKey p vc false, laneKey p vc true]

/-- Packets in a combine buffer of a tile. -/
def Tile.combine (t : Tile) (route port : Nat) : List Packet := tabGet [] t.comb (route * 8 + port)

/-- A tile with a combine buffer replaced. -/
def Tile.setCombine (t : Tile) (route port : Nat) (l : List Packet) : Tile := { t with comb := tabSet [] t.comb (route * 8 + port) l }

/-- The receive queue of a route has a free place. -/
def Tile.recvRoom (t : Tile) (route : Nat) : Bool := decide ((t.received route).length < rDepth (t.route route))

/-- The smallest number of a list; 0 for none. -/
def minOf : List Nat → Nat
  | [] => 0
  | x :: r => r.foldl min x

/-- The source of a route holds a credit for its next packet (R391) (LOG 55 DEDUCED). -/
def State.hasCredit (s : State) (h : BitVec 32) (route src : Nat) : Bool :=
  let r := s.region h
  let ends := s.routeEnds h route
  decide (tabGet 0 r.sent (route * 65536 + src)
    < minOf (ends.map fun e => tabGet 0 r.popped (popKey route src e.1)) + minOf (ends.map (·.2)))

/-- The lane that a packet of a route enters at a tile: the local one where the route leaves the mesh (R389). -/
def Tile.leaves (t : Tile) (route : Nat) : Bool := rOut (t.route route) 0

/-- A lane of a router has room: the packets of its tile's own region, and those between routers (R389). -/
def State.laneRoom (s : State) (router port vc : Nat) (home : Bool) : Bool :=
  decide (((s.tile router).linkLane port vc home).length + (s.flightsIn router port vc home).length ≤ Config.laneDepth)

/-- What a path carries leaves the mesh at its next router: where it ends, unless it is a packet whose route goes on there. -/
def State.leavesNext (s : State) (c : Cargo) : List Nat → Bool
  | [u] => match c with
    | .packet p => (s.tile u).leaves p.route
    | _ => true
  | _ => false

/-- The lane that a packet enters at the next router of its path has room. -/
def State.roomAhead (s : State) (a : Nat) (c : Cargo) (path : List Nat) : Bool :=
  match path with
  | n :: _ => s.laneRoom n (facing (dirOf a n)) c.vc (s.leavesNext c path)
  | [] => false

/-- The place that a packet takes through a logical output port has room: the receive queue, or the lane at the next router (R389, R391). -/
def State.outRoom (s : State) (t d : Nat) (p : Packet) : Bool :=
  if d = 0 then (s.tile t).recvRoom p.route else s.roomAhead t (.packet p) (s.outPath t d)

/-- The head packet of an input of a tile's router can go through a logical output port: at its source it has a credit, and there is room
(R389, R391). -/
def State.takes (s : State) (t d key : Nat) (p : Packet) : Bool :=
  let x := s.tile t
  (key != 0 || p.outs != x.outsOf p.route || s.hasCredit x.handle p.route p.src) && s.outRoom t d p

/-- The inputs of a router on a virtual channel, from the `first` one on. -/
def inputsFrom (first vc : Nat) : List Nat := (inputKeys vc).drop (first % 9) ++ (inputKeys vc).take (first % 9)

/-- The input of a tile's router whose head packet an output port takes next on a virtual channel, with the logical output port that the packet
takes, when the router begins to look at the `first` input. R392 leaves the order open among the inputs of one channel. -/
def State.pickFlit (s : State) (t port vc first : Nat) : Option (Nat × Nat × Packet) :=
  (inputsFrom first vc).findSome? fun key =>
    match (s.tile t).input vc key with
    | p :: _ => (p.outs.find? fun d => s.physPort t d == port && s.takes t d key p).map fun d => (key, d, p)
    | [] => none

/-- A packet between routers stands at the head of its lane. -/
def State.atHead (s : State) (f : Flight) : Bool := s.flying.find? f.sameLane == some f

/-- The packet between routers that an output port takes next on a virtual channel: the head of a lane that has room ahead. -/
def State.pickFlight (s : State) (t port vc : Nat) : Option Flight :=
  s.flying.find? fun f => f.router == t && f.cargo.vc == vc && f.out == some port && s.atHead f && s.roomAhead t f.cargo f.path

/-- Logical number of the tile that owns the chunk of a dataflow token. -/
def FlowToken.owner (f : FlowToken) (r : Region) : Nat := f.row * r.info.cols + f.col

/-- The routers that a dataflow token of a tile passes, row then column as a channel's token does (LOG 113 DEDUCED). -/
def State.flowPath (s : State) (t : Nat) (f : FlowToken) : List Nat :=
  let x := s.tile t
  let r := s.region x.handle
  s.tilePath r (logicalOf r x) (f.owner r)

/-- The oldest dataflow token of a tile, when an output port of its router leads to the token's owner. -/
def State.flowAt (s : State) (t port : Nat) : Option FlowToken :=
  (s.tile t).flow.head?.filter fun f => match s.flowPath t f with
    | n :: _ => dirOf t n == port
    | [] => false

/-- The dataflow token that an output port takes next. -/
def State.pickFlow (s : State) (t port : Nat) : Option FlowToken := (s.flowAt t port).filter fun f => s.roomAhead t (.flow f) (s.flowPath t f)

/-- The step that the oldest dataflow token of a tile asks for: its first hop, or its arrival at the tile itself. -/
def State.askFlow (s : State) (t : Nat) : State :=
  match (s.tile t).flow with
  | [] => s
  | f :: _ => match s.flowPath t f with
    | n :: _ => s.ask (.meshPacketHop t (dirOf t n) 0)
    | [] => s.ask (.ntokArrival t)

/-- A packet that enters a lane of a tile's router through an input port. One whose route has no OUT there is discarded (LOG 55
DEDUCED). -/
def State.enter (s : State) (u port : Nat) (p : Packet) : State :=
  let y := s.tile u
  let q := { p with outs := y.outsOf p.route }
  let key := laneKey port p.vc (y.leaves p.route)
  if q.outs.isEmpty then s else (s.setTile u { y with links := tabSet [] y.links key (tabGet [] y.links key ++ [q]) }).askHops u q

/-- What a router sends on along a path: it enters a lane of the next router; a route packet whose logical hop ends there is at its next tile. -/
def State.forward (s : State) (h : BitVec 32) (a : Nat) (c : Cargo) : List Nat → State
  | [] => s
  | n :: rest => match c, rest with
    | .packet p, [] => s.enter n (facing (dirOf a n)) p
    | _, _ => s.fly ⟨h, c, n, facing (dirOf a n), rest⟩

/-- A packet delivered through a logical output port of a tile: into its receive queue, or on its way to a neighbour. -/
def State.deliver (s : State) (t d : Nat) (p : Packet) : State :=
  let x := s.tile t
  if d = 0 then s.setTile t (x.setReceived p.route (x.received p.route ++ [{ p with outs := [] }]))
  else s.forward x.handle t (.packet p) (s.outPath t d)

/-- The first copy of a packet that leaves its source uses a credit (R391). -/
def State.useCredit (s : State) (t key : Nat) (p : Packet) : State :=
  let x := s.tile t
  if key = 0 ∧ p.outs = x.outsOf p.route then
    let r := s.region x.handle
    let k := p.route * 65536 + p.src
    s.setRegion x.handle { r with sent := tabSet 0 r.sent k (tabGet 0 r.sent k + 1) }
  else s

/-- The channel that an output port of a router has served, for its turn among channels 0 to 2 (R392). -/
def State.serve (s : State) (t port vc : Nat) : State :=
  if vc < 3 then { s with served := tabSet 2 s.served (t * 8 + port) vc } else s

/-- The head packet of an input taken through a logical output port: once every one of its ports has taken it, the next packet stands at
the head. -/
def State.takeFlit (s : State) (t key d : Nat) (p : Packet) : State :=
  let s1 := s.useCredit t key p
  let x := s1.tile t
  let rest := (x.input p.vc key).tail
  let left := p.outs.filter (· != d)
  let s2 := (s1.setTile t (x.setInput p.vc key (if left.isEmpty then rest else { p with outs := left } :: rest))).deliver t d p
  if left.isEmpty then (rest.take 1).foldl (fun s q => s.askHops t q) s2 else s2

/-- A packet between routers moved on by its router. -/
def State.takeFlight (s : State) (f : Flight) : State := (s.unfly f).forward f.handle f.router f.cargo f.path

/-- The oldest dataflow token of a tile sent on its way. -/
def State.takeFlow (s : State) (t : Nat) (f : FlowToken) : State :=
  let x := s.tile t
  ((s.setTile t { x with flow := x.flow.tail }).forward x.handle t (.flow f) (s.flowPath t f)).askFlow t

/-- One element combined with the next by a rule (R80), with flags. -/
def combineElem (rule v c : Nat) : FRes :=
  match rule with
  | 2 => ⟨(v + c) % 2 ^ 32, 0⟩
  | 3 => fMax f32 v c
  | 4 => fMin f32 v c
  | 5 => ⟨v ||| c, 0⟩
  | _ => fAdd f32 .rne (unpack f32 v) (unpack f32 c)

/-- An input's element as it enters a combine: a narrow one is widened on a RULE 1 route (R394). -/
def combineIn (rule : Nat) (wide : Bool) (c : Nat) : FRes :=
  if rule = 1 ∧ !wide then convert .bf16 .fp32 true .rne 0 (c % 2 ^ 16) else ⟨c, 0⟩

/-- The elements of inputs in port order combined (R80). -/
def combineElems (rule : Nat) : List FRes → FRes
  | [] => ⟨0, 0⟩
  | x :: r => r.foldl (fun v c => let w := combineElem rule v.bits c.bits; ⟨w.bits, v.fl ||| c.fl ||| w.fl⟩) x

/-- Element `i` of a packet. -/
def Packet.elem (p : Packet) (i : Nat) : Nat := field (nth 0 p.words (i / 2)) (32 * (i % 2)) 32

/-- The combined packet of inputs with equal word counts (R394, R81). -/
def combinePackets (rule src : Nat) (ps : List Packet) : Packet :=
  let n := match ps with
    | p :: _ => p.words.length
    | [] => 0
  let es := (upFrom 0 (2 * n)).map fun i => combineElems rule (ps.map fun p => combineIn rule p.wide (p.elem i))
  let fl := es.foldl (fun f e => f ||| e.fl) (0 : FlagSet)
  { route := match ps with
      | p :: _ => p.route
      | [] => 0
    words := (upFrom 0 n).map fun i => BitVec.ofNat 64 ((nth ⟨0, 0⟩ es (2 * i)).bits + 2 ^ 32 * (nth ⟨0, 0⟩ es (2 * i + 1)).bits)
    last := match ps with
      | p :: _ => p.last
      | [] => true
    exc := ps.any (·.exc) || FlagSet.has fl (fNV ||| fDZ ||| fOF ||| fSAT)
    wide := ruleWide rule
    src := src
    sender := none
    vc := 2
    tag := match ps with
      | p :: _ => p.tag
      | [] => 0
    outs := [] }

/-- Where a combined packet goes. -/
inductive CombineTo where
  | recv | next (t port : Nat) | nowhere
deriving DecidableEq, Repr

/-- The OUT of a reduction entry of a tile. -/
def State.combineTo (s : State) (x : Tile) (e : Word) : CombineTo :=
  if rOut e 0 then .recv
  else match (upFrom 1 4).find? (rOut e) with
    | some d => match (s.region x.handle).beside x d with
      | some u => .next u (facing d)
      | none => .nowhere
    | none => .nowhere

/-- Results of combines on their way to a combine input of a tile. -/
def State.combining (s : State) (u route port : Nat) : List Flight :=
  s.flying.filter fun f => match f.cargo with
    | .combined d p => d == port && p.route == route && f.path.getLastD f.router == u
    | _ => false

/-- The place that a combined packet goes to has room: the receive queue; or one of the two combine buffers of the input, those counted that
results on their way will take, and the lane ahead (R391). -/
def State.combineRoom (s : State) (t route : Nat) : CombineTo → Bool
  | .recv => (s.tile t).recvRoom route
  | .next u port => decide (((s.tile u).combine route port).length + (s.combining u route port).length < 2)
      && s.roomAhead t (.combined port ⟨route, [], false, false, false, 0, none, 2, 0, []⟩) (s.passPath (s.tile t).handle t u)
  | .nowhere => true

/-- A combined packet sent on: into the receive queue, or on VC 2 to the next combining router. -/
def State.combineOut (s : State) (t route : Nat) (p : Packet) : CombineTo → State
  | .recv => s.setTile t ((s.tile t).setReceived route ((s.tile t).received route ++ [p]))
  | .next u port => s.forward (s.tile t).handle t (.combined port p) (s.passPath (s.tile t).handle t u)
  | .nowhere => s

/-- The inputs that a reduction entry of a tile declares, in port order. -/
def Tile.inputsOf (t : Tile) (route : Nat) : List Nat := (upFrom 0 5).filter (rIn (t.route route))

/-- The next packets of every declared input of a route, once a router holds them all (R394). -/
def Tile.combineHeads (t : Tile) (route : Nat) : Option (List Packet) :=
  let ports := t.inputsOf route
  let heads := ports.filterMap fun p => (t.combine route p).head?
  if rKind (t.route route) = 2 ∧ !heads.isEmpty ∧ heads.length = ports.length then some heads else none

/-- The output port of a reduction entry; none when it names no OUT. -/
def Tile.combinePort (t : Tile) (route : Nat) : Option Nat := (t.outsOf route).head?

/-- A combine of a route is ready, and the place that its result goes to has room. -/
def State.combineReady (s : State) (t route : Nat) : Bool :=
  let x := s.tile t
  (x.combineHeads route).isSome && s.combineRoom t route (s.combineTo x (x.route route))

/-- The route whose combine an output port takes next. -/
def State.pickCombine (s : State) (t port : Nat) : Option Nat :=
  let x := s.tile t
  ((x.comb.map fun e => e.1 / 8).eraseDups).find? fun n => (x.combinePort n).map (s.physPort t) == some port && s.combineReady t n

/-- A tile's own region offers an output port of its router a flit of a virtual channel: while the region runs (R338). -/
def State.offersOwn (s : State) (t port vc : Nat) : Bool :=
  s.active t && (if vc = 3 then (s.pickFlow t port).isSome
    else (s.pickFlit t port vc 0).isSome || vc == 2 && (s.pickCombine t port).isSome)

/-- A virtual channel has a flit that an output port can take. -/
def State.offers (s : State) (t port vc : Nat) : Bool := (s.pickFlight t port vc).isSome || s.offersOwn t port vc

/-- The virtual channel that an output port serves next: VC 3 first, then 0 to 2 in turn (R392). -/
def State.serves (s : State) (t port : Nat) : Option Nat :=
  let last := tabGet 2 s.served (t * 8 + port)
  if s.offers t port 3 then some 3 else ((upFrom 1 3).map fun k => (last + k) % 3).find? (s.offers t port)

/-- Something at a router waits for an output port. -/
def State.waitsAt (s : State) (t port : Nat) : Bool :=
  (s.flying.any fun f => f.router == t && f.out == some port)
    || s.active t && ((s.flowAt t port).isSome || [0, 1, 2].any fun vc => (inputKeys vc).any fun key => match (s.tile t).input vc key with
      | p :: _ => p.outs.any fun d => s.physPort t d == port
      | [] => false)

/-- A flit of a tile's own region taken by an output port on a virtual channel, if there is one. -/
def State.hopOwn (s : State) (t port vc first : Nat) : Option State :=
  if !s.active t then none
  else if vc = 3 then (s.pickFlow t port).map (s.takeFlow t)
  else (s.pickFlit t port vc first).map fun e => s.takeFlit t e.1 e.2.1 e.2.2

/-- A packet between routers taken by an output port on a virtual channel, if there is one. -/
def State.hopFlight (s : State) (t port vc : Nat) : Option State := (s.pickFlight t port vc).map s.takeFlight

/-- One flit taken by an output port on a virtual channel: of the tile's own region before one between routers, or, from the ninth input on, after
it (LOG 102 DESIGN CHOICE). -/
def State.hop (s : State) (t port vc first : Nat) : State :=
  let l := if first < 9 then [s.hopOwn t port vc first, s.hopFlight t port vc] else [s.hopFlight t port vc, s.hopOwn t port vc first]
  match l.findSome? id with
  | some s1 => s1.serve t port vc
  | none => s

/-- MESH_PACKET_HOP (R384, R389 to R392, R464): an output port of a router takes one flit, of the virtual channel whose turn it is and of an
input of the channel from the `first` one on, and the packet moves to the next router of its path or is received; the step follows again
while something waits for the port. A router serves the packets of every region, whether or not its tile's region runs. -/
def execMeshPacketHop (t port first : Nat) (s : State) : Host.Outcome State Fault Refusal :=
  let s1 := match s.serves t port with
    | some vc => s.hop t port vc first
    | none => s
  .next (if s1.waitsAt t port then s1.ask (.meshPacketHop t port first) else s1)

/-- The oldest contribution of a tile moved to the LOCAL combine input of its route, if that has room (R391). -/
def State.contribute (s : State) (t : Nat) : State :=
  let x := s.tile t
  match x.injected 2 with
  | [] => s
  | p :: rest =>
    if (x.combine p.route 0).length < 2 then
      (s.setTile t ((x.setInjected 2 rest).setCombine p.route 0 (x.combine p.route 0 ++ [p]))).ask (.routerCombine t p.route)
    else s

/-- A combine of a route at a router whose inputs are all there: packets of different word counts freeze the region (R247); otherwise the
result leaves when it is the turn of the reduction channel at its output port (R392), and one without an OUT is discarded (LOG 55
DEDUCED). -/
def State.combineStep (s : State) (t route : Nat) (heads : List Packet) : State :=
  let x := s.tile t
  if heads.any fun p => p.words.length != (heads.map fun q => q.words.length).headD 0 then
    s.freezeRegion x.handle (some .fabricFatal) none []
  else
    let y := (x.inputsOf route).foldl (fun y p => y.setCombine route p (y.combine route p).tail) x
    match x.combinePort route with
    | none => (s.setTile t y).ask (.routerCombine t route)
    | some d =>
      let port := s.physPort t d
      if s.serves t port = some 2 ∧ s.pickCombine t port = some route then
        (((s.setTile t y).serve t port 2).combineOut t route
          (combinePackets (rRule (x.route route)) (logicalOf (s.region x.handle) x) heads) (s.combineTo x (x.route route))).ask
            (.routerCombine t route)
      else s.ask (.routerCombine t route)

/-- Results of other routers' combines that have reached a tile's router enter their combine inputs, which their credits have kept free (R391). -/
def State.landCombined (s : State) (t route : Nat) : State :=
  s.flying.foldl (fun s f => match f.cargo with
    | .combined port p =>
      if f.router = t ∧ f.path = [] ∧ p.route = route then
        let s1 := s.unfly f
        s1.setTile t ((s1.tile t).setCombine route port ((s1.tile t).combine route port ++ [p]))
      else s
    | _ => s) s

/-- ROUTER_COMBINE (R80, R247, R394): a tile's oldest contribution and the results that have come to it enter their combine inputs, and a
router combines the next packet of every declared input of a route when it has them all and its result has a place. -/
def execRouterCombine (t route : Nat) (s : State) : Host.Outcome State Fault Refusal :=
  .next (if !s.active t then s
    else
      let s1 := (s.contribute t).landCombined t route
      match (s1.tile t).combineHeads route with
      | none => s1
      | some heads => s1.combineStep t route heads)

/-- LINK_FLIT_RETRY (R385): a flit that failed its CRC was asked for again. A success counts as transient for the link and direction;
a second failure retires a lane of the link. -/
def execLinkFlitRetry (t port : Nat) (clean : Bool) (s : State) : Host.Outcome State Fault Refusal :=
  let k := t * 8 + port
  .next (if clean then { s with laneTransients := tabSet 0 s.laneTransients k (min 255 (tabGet 0 s.laneTransients k + 1)) }
    else if s.laneRetired.contains k then s
    else { s with laneRetired := s.laneRetired ++ [k] })

/-! ## NFENCE (R253) -/

/-- An injection of a strand has not left its tile. -/
def Tile.injecting (t : Tile) (k : Fin 4) : Bool :=
  t.inject.any (fun e => e.2.any fun p => p.sender == some k)
    || t.comb.any (fun e => e.1 % 8 == 0 && e.2.any fun p => p.sender == some k)
    || t.flow.any (fun f => f.sender == some k)
    || t.netq.any fun e => !e.recv && e.who.strand == some k

/-- NFENCE (R253). -/
def execNfence (s : State) : Host.Outcome State Fault Refusal :=
  issueM s [] (do await (!s.curTile.injecting s.cur.strand) s; return .done s)

/-! ## Dataflow tokens and chunks (R250 to R252) -/

/-- A chunk of a tile. -/
def Tile.chunk (t : Tile) (c : Nat) : Chunk := tabGet Chunk.idle t.chunks c

/-- A tile with a chunk replaced. -/
def Tile.setChunk (t : Tile) (c : Nat) (x : Chunk) : Tile := { t with chunks := tabSet Chunk.idle t.chunks c x }

/-- NTOK: a token to the owning tile at a row and column of the region. -/
def ntokEff (row col source chunk : Nat) (s : State) : M Eff := do
  let r := s.curRegion
  demand (decide (row < r.info.rows ∧ col < r.info.cols)) s .netOperand (BitVec.ofNat 64 (4 * 2 ^ 48 + row * 2 ^ 40 + col * 2 ^ 32))
  let s1 := s.releaseAt s.cur.tile .waf
  let x := s1.curTile
  await (decide (x.flow.length < 8)) s1
  return .done ((s1.setCurTile { x with flow := x.flow ++ [⟨row, col, chunk, source, some s.cur.strand⟩] }).askFlow s.cur.tile)

/-- NTOK (R252). -/
def execNtok (a : BitVec 6) (s : State) : Host.Outcome State Fault Refusal :=
  let v := s.curStrand.rg a
  issueM s [a] (ntokEff (field v 40 8) (field v 32 8) (field v 8 4) (field v 0 2) s)

/-- NTOK with an immediate: the owning tile is the issuing tile (R251). -/
def execNtokI (imm : BitVec 32) (s : State) : Host.Outcome State Fault Refusal :=
  issueM s [] (ntokEff s.curTile.row s.curTile.col (field (zx32 imm) 8 4) (field (zx32 imm) 0 2) s)

/-- A dataflow token at the tile that owns its chunk: it raises the counter of its source. A token at a counter of 255 is lost, and a
context-error event names the chunk (R250, R252; LOG 31 DESIGN CHOICE). -/
def State.raiseCounter (s : State) (u : Nat) (f : FlowToken) : State :=
  let y := s.tile u
  let c := y.chunk f.chunk
  let n := tabGet 0 c.counters f.source
  if n = 255 then s.post 3 0x0301 [handleWord (s.region y.handle), Config.lostToken f.chunk]
  else (s.setTile u (y.setChunk f.chunk { c with counters := tabSet 0 c.counters f.source (n + 1) })).ask (.chunkFire u f.chunk)

/-- The oldest dataflow token that has come to a tile's router. -/
def State.landedFlow (s : State) (t : Nat) : Option (Flight × FlowToken) :=
  (s.landed fun f => f.router == t && f.cargo.vc == 3 && match f.cargo with
    | .flow _ => true
    | _ => false).bind fun f => match f.cargo with
      | .flow k => some (f, k)
      | _ => none

/-- A tile's oldest dataflow token is for one of its own chunks. -/
def State.ownFlow (s : State) (t : Nat) : Option FlowToken := (s.tile t).flow.head?.filter fun f => (s.flowPath t f).isEmpty

/-- NTOK_ARRIVAL (R250, R252): the oldest token that has come to a tile's router, or else the tile's own oldest one for itself, arrives at its
chunk. -/
def execNtokArrival (t : Nat) (s : State) : Host.Outcome State Fault Refusal :=
  .next (if s.active t then
      match s.landedFlow t with
      | some (f, k) =>
        let s1 := (s.unfly f).raiseCounter t k
        if (s1.landedFlow t).isSome || (s1.ownFlow t).isSome then s1.ask (.ntokArrival t) else s1
      | none => match s.ownFlow t with
        | some k => ((s.setTile t { s.tile t with flow := (s.tile t).flow.tail }).raiseCounter t k).askFlow t
        | none => s
    else s)

/-- Completion object of a chunk (R274). -/
def chunkObject (c : Nat) (arms : BitVec 32) : Word := BitVec.ofNat 64 (2 ^ 62 + c * 2 ^ 32 + arms.toNat)

/-- A chunk armed, with its object written. -/
def armChunk (d : BitVec 6) (c : Nat) (x : Chunk) (s : State) : State :=
  let y := { x with armed := true, arms := x.arms + 1 }
  let s1 := s.setCurTile (s.curTile.setChunk c y)
  (s1.setCur (s1.curStrand.wg d (chunkObject c y.arms))).ask (.chunkFire s.cur.tile c)

/-- NARM. -/
def narmEff (d : BitVec 6) (va v : Word) (s : State) : M Eff := do
  let route := field v 56 8
  let count := field v 27 13
  let c := field v 0 2
  demand (low va 56 % 64 == 0) s .misaligned ((va.truncate 56).zeroExtend 64)
  demand (RouteUse.allowed .reduce (s.curTile.route route)) s .netRoute (BitVec.ofNat 64 route)
  demand (decide (1 ≤ count ∧ count ≤ 4096)) s .netOperand (BitVec.ofNat 64 (3 * 2 ^ 48))
  let x := s.curTile.chunk c
  awaitStall (!x.armed) s
  return .done (armChunk d c { x with stored := true, va := va.truncate 56, route := route, mask := v.extractLsb' 40 16, count := count } s)

/-- NARM (R252). -/
def execNarm (d a b : BitVec 6) (s : State) : Host.Outcome State Fault Refusal :=
  issueM s [d, a, b] (narmEff d (s.curStrand.rg a) (s.curStrand.rg b) s)

/-- NARM with an immediate re-arms the stored descriptor (R252). -/
def narmIEff (d : BitVec 6) (c : Nat) (s : State) : M Eff := do
  let x := s.curTile.chunk c
  demand x.stored s .netOperand (BitVec.ofNat 64 (5 * 2 ^ 48))
  awaitStall (!x.armed) s
  return .done (armChunk d c x s)

/-- NARM with an immediate (R252). -/
def execNarmI (d : BitVec 6) (imm : BitVec 32) (s : State) : Host.Outcome State Fault Refusal :=
  issueM s [d] (narmIEff d (field (zx32 imm) 0 2) s)

/-- The sources of a chunk's MASK. -/
def Chunk.sources (c : Chunk) : List Nat := (upFrom 0 16).filter fun n => c.mask.getLsbD n

/-- A chunk may fire (R250). -/
def Chunk.ready (c : Chunk) : Bool := c.armed && c.left == 0 && c.sources.all fun n => decide (1 ≤ tabGet 0 c.counters n)

/-- A chunk fires: steps 1 to 3 of R250. -/
def Chunk.fire (c : Chunk) : Chunk :=
  { c with
    armed := false
    counters := c.sources.foldl (fun m n => tabSet 0 m n (tabGet 0 m n - 1)) c.counters
    fires := c.fires + 1
    left := c.count
    runVa := c.va
    runRoute := c.route
    runDone := 0 }

/-- Bytes read at their homes; none when one of them holds an uncorrectable error. -/
def State.homeReads (s : State) : List Nat → Option (List Byte)
  | [] => some []
  | pa :: r =>
    match s.homeRead pa, s.homeReads r with
    | some b, some bs => some (b :: bs)
    | _, _ => none

/-- The packets of a running chunk firing, until the buffer is full or the read is held; `fuel` bounds them (R250, R306, R326)
(LOG 62 DEDUCED). -/
def chunkPackets (t c : Nat) : Nat → State → State
  | 0, s => s
  | fuel + 1, s =>
    let x := s.tile t
    let k := x.chunk c
    if k.left = 0 ∨ k.fault.isSome ∨ !x.injectRoom 2 then s
    else match s.fabricPa t true x.handle 5 k.runVa false x.row x.col (16 * k.runDone % 4096) with
      | (s1, .frozen) => s1
      | (s1, .hold m) => s1.setTile t ((s1.tile t).setChunk c { k with fault := m })
      | (s1, .ok pa) =>
        let s1 := s1.burst (upFrom pa 64)
        match s1.homeReads (upFrom pa 64) with
        | none => s1.freezeRegion x.handle (some .stateUncorrectable) none []
        | some bs =>
          let y := (s1.tile t).setChunk c { k with left := k.left - 1, runVa := k.runVa + 64, runDone := k.runDone + 1 }
          let p : Packet := .make k.runRoute (wordsOf 8 bs) (k.left == 1) (ruleWide (rRule (x.route k.runRoute)))
            (logicalOf (s1.region x.handle) x) none
          chunkPackets t c fuel ((s1.setTile t y).inject t 2 p)

/-- CHUNK_FIRE (R250): a chunk that may fire does, and reads and injects its packets; the step follows again until they are all in the
injection buffer. Its acquire has nothing to do, since the interface reads at the homes (R288). -/
def execChunkFire (t c : Nat) (s : State) : Host.Outcome State Fault Refusal :=
  .next (if s.active t then
      let k := (s.tile t).chunk c
      let s1 := if k.ready then s.setTile t ((s.tile t).setChunk c k.fire) else s
      let s2 := chunkPackets t c 8 s1
      let k2 := (s2.tile t).chunk c
      if (k2.left ≠ 0 ∧ k2.fault.isNone) ∨ k2.ready then s2.ask (.chunkFire t c) else s2
    else s)

end Sys2Proof.Machine
end

