-- ==== Sys2Proof/Machine/Sha.lean ====
section
/-!
DEFINITION. SHA-256 (FIPS 180-4), which 03_encoding_and_assembly.md R102, 13_links_and_host.md R441 and R442 name (LOG 9 PRESUMED).
A digest in progress is one bit vector of 256 bits, and a block one of 512 bits: the standard's first word is the most significant
32 bits of either, so a round is a shift by 32 bits.
-/
namespace Sys2Proof.Machine

/-- The 32-bit word `i` of a bit vector of `n` words, counted from its most significant end. -/
def shaAt {w : Nat} (n i : Nat) (x : BitVec w) : BitVec 32 := x.extractLsb' (32 * (n - 1 - i)) 32

/-- The xor of three rotations to the right of a word. -/
def shaMix (x : BitVec 32) (i j k : Nat) : BitVec 32 := x.rotateRight i ^^^ (x.rotateRight j ^^^ x.rotateRight k)

/-- The round constants, four to a row: the first 32 bits of the fractional parts of the cube roots of the first 64 primes. -/
def shaRows : List (BitVec 128) :=
  [0x428a2f9871374491b5c0fbcfe9b5dba5#128, 0x3956c25b59f111f1923f82a4ab1c5ed5#128,
   0xd807aa9812835b01243185be550c7dc3#128, 0x72be5d7480deb1fe9bdc06a7c19bf174#128,
   0xe49b69c1efbe47860fc19dc6240ca1cc#128, 0x2de92c6f4a7484aa5cb0a9dc76f988da#128,
   0x983e5152a831c66db00327c8bf597fc7#128, 0xc6e00bf3d5a7914706ca635114292967#128,
   0x27b70a852e1b21384d2c6dfc53380d13#128, 0x650a7354766a0abb81c2c92e92722c85#128,
   0xa2bfe8a1a81a664bc24b8b70c76c51a3#128, 0xd192e819d6990624f40e3585106aa070#128,
   0x19a4c1161e376c082748774c34b0bcb5#128, 0x391c0cb34ed8aa4a5b9cca4f682e6ff3#128,
   0x748f82ee78a5636f84c878148cc70208#128, 0x90befffaa4506cebbef9a3f7c67178f2#128]

/-- The digest before the first block: the first 32 bits of the fractional parts of the square roots of the first eight primes. -/
def shaStart : BitVec 256 :=
  0x6a09e667bb67ae853c6ef372a54ff53a510e527f9b05688c1f83d9ab5be0cd19#256

/-- The block that the rounds of a block read next: its first word leaves and the schedule's next word enters. -/
def shaNext (m : BitVec 512) : BitVec 512 :=
  let old := shaAt 16 1 m
  let late := shaAt 16 14 m
  let w := shaAt 16 0 m + (old.rotateRight 7 ^^^ (old.rotateRight 18 ^^^ old >>> 3)) + shaAt 16 9 m +
    (late.rotateRight 17 ^^^ (late.rotateRight 19 ^^^ late >>> 10))
  m <<< 32 ||| w.zeroExtend 512

/-- One round: the words shift down by one, and the sum of the standard's two temporaries enters at the top; word 4 takes in the
first of them. -/
def shaRound (x : BitVec 256) (kw : BitVec 32) : BitVec 256 :=
  let p := shaAt 8 4 x
  let q := shaAt 8 0 x
  let choice := shaAt 8 6 x ^^^ (p &&& (shaAt 8 5 x ^^^ shaAt 8 6 x))
  let most := (q &&& (shaAt 8 1 x ||| shaAt 8 2 x)) ||| (shaAt 8 1 x &&& shaAt 8 2 x)
  let up := shaAt 8 7 x + shaMix p 6 11 25 + choice + kw
  let top := up + shaMix q 2 13 22 + most
  top ++ x.extractLsb' 160 96 ++ (shaAt 8 3 x + up) ++ x.extractLsb' 32 96

/-- The four rounds of a row of constants. -/
def shaFour (row : BitVec 128) (xm : BitVec 256 × BitVec 512) : BitVec 256 × BitVec 512 :=
  (upFrom 0 4).foldl (fun y i => (shaRound y.1 (shaAt 4 i row + shaAt 16 0 y.2), shaNext y.2)) xm

/-- The digest after a block: the eight words of the rounds' result added, each modulo 2^32, to those before. -/
def shaBlock (x : BitVec 256) (m : BitVec 512) : BitVec 256 :=
  let y := (shaRows.foldl (fun xm row => shaFour row xm) (x, m)).1
  (upFrom 0 8).foldl (fun z i => z <<< 32 ||| (shaAt 8 i x + shaAt 8 i y).zeroExtend 256) 0

/-- The number that bytes hold, first byte most significant. -/
def beNat (bs : List Byte) : Nat := bs.foldl (fun n b => 256 * n + b.toNat) 0

/-- The 512-bit blocks of bytes whose number is a multiple of 64; `n` bounds their number. -/
def shaBlocks : Nat → List Byte → List (BitVec 512)
  | 0, _ => []
  | n + 1, bs => if bs.isEmpty then [] else BitVec.ofNat 512 (beNat (bs.take 64)) :: shaBlocks n (bs.drop 64)

/-- What follows a message of `n` bytes: a 1 bit, zeros up to a length of 56 bytes modulo 64, and its length in bits. -/
def shaTail (n : Nat) : List Byte :=
  0x80 :: List.replicate ((119 - n % 64) % 64) 0 ++ (natLe 8 (8 * n)).reverse

/-- The digest of a message as the standard's 256-bit number. -/
def shaDigest (msg : List Byte) : BitVec 256 :=
  (shaBlocks (msg.length / 64 + 2) (msg ++ shaTail msg.length)).foldl shaBlock shaStart

/-- The 32 bytes of the digest, first byte first. -/
def sha256 (msg : List Byte) : List Byte := (natLe 32 (shaDigest msg).toNat).reverse

/-- A digest as a 256-bit value: digest byte j at bits [8j+7:8j] (R102). -/
def shaValue (msg : List Byte) : BitVec 256 := BitVec.ofNat 256 (leNat (sha256 msg))

end Sys2Proof.Machine
end

