-- ==== Sys2Proof/Machine/Image.lean ====
section
/-!
DEFINITION. Configuration images (03_encoding_and_assembly.md R101 to R109): their frames and payloads, the checks of R109 with
those of 12_wafer_fabric.md R393 and R403 to R406, 06_lane_row_instructions.md R192 and 07_matrix_and_inlay.md R236 and R237, and
what each payload gives the element that it names.
-/
namespace Sys2Proof.Machine

/-- A frame of an image. -/
abbrev Frame := BitVec 256

/-- Bits `lo + n - 1` to `lo` of a frame. -/
def fr (f : Frame) (lo n : Nat) : Nat := natBits f.toNat lo n

/-- A frame of an image by number. -/
def frameAt (im : List Frame) (n : Nat) : Frame := nth 0 im n

/-- BLOCKS of H0. -/
def blocksOf (h0 : Frame) : Nat := fr h0 160 32

/-- Frames of an image, by its H0 (R101). -/
def imageFrames (h0 : Frame) : Nat := 4 + 9 * blocksOf h0

/-- A payload: its target address, its frame's number, and the number of its address frame. -/
structure Payload where
  target : Nat
  frame : Nat
  addr : Nat
  data : Frame
deriving DecidableEq, Repr

/-- CLASS of a target address (R104). -/
def tClass (t : Nat) : Nat := natBits t 28 4
/-- TILE. -/
def tTile (t : Nat) : Nat := natBits t 12 16
/-- INDEX. -/
def tIndex (t : Nat) : Nat := natBits t 0 12

/-- A target address. -/
def targetOf (cls tile index : Nat) : Nat := cls * 2 ^ 28 + tile * 2 ^ 12 + index

/-- The payloads of `n` blocks, null slots among them; `k` is the number of the first frame. -/
def payloadsFrom : Nat → Nat → List Frame → List Payload
  | 0, _, _ => []
  | n + 1, k, fs =>
    let a := fs.headD 0
    ((upFrom 0 8).map fun i => (⟨fr a (32 * i) 32, k + 1 + i, k, nth 0 fs (i + 1)⟩ : Payload)) ++ payloadsFrom n (k + 9) (fs.drop 9)

/-- The payloads of an image in image order. -/
def payloads (im : List Frame) : List Payload := payloadsFrom (blocksOf (im.headD 0)) 4 (im.drop 4)

/-- The payload that holds for each element: the later one of two that name it (R107). -/
abbrev Elements := Table Payload

/-- The elements of an image. -/
def elements (ps : List Payload) : Elements :=
  (ps.filter fun p => tClass p.target != 0).foldl (fun t p => tabInsert (tabErase t p.target) p.target p) []

/-- The payload of an element, if one names it. -/
def Elements.get? (e : Elements) (cls tile index : Nat) : Option Payload :=
  (e.find? fun x => x.1 == targetOf cls tile index).map (·.2)

/-- The data of an element; 0 when no payload names it. -/
def Elements.data (e : Elements) (cls tile index : Nat) : Frame :=
  match e.get? cls tile index with
  | some p => p.data
  | none => 0

/-- The elements of a class on a tile. -/
def Elements.of (e : Elements) (cls tile : Nat) : List Payload :=
  (e.map (·.2)).filter fun p => tClass p.target == cls && tTile p.target == tile

/-- The tiles, or ports, that elements of a class name. -/
def Elements.tilesOf (e : Elements) (cls : Nat) : List Nat :=
  ((e.filter fun x => tClass x.1 == cls).map fun x => tTile x.1).eraseDups

/-! ## Fields of the memory-class records (Table 3.11) -/

/-- Words of a frame. -/
def frWord (f : Frame) (j : Nat) : Nat := fr f (64 * j) 64

/-- A handle record. -/
def handleAt (f : Frame) (lo : Nat) : Handle := Handle.ofBits (BitVec.ofNat 74 (fr f lo 74))

/-- A bank ownership token. -/
def bankTokenAt (f : Frame) (j : Nat) : BankToken :=
  ⟨BitVec.ofNat 32 (fr f (80 * j) 32), BitVec.ofNat 32 (fr f (80 * j + 32) 32), fr f (80 * j + 64) 1 == 1⟩

/-- KIND, channel and port fields of a queue binding. -/
structure QRec where
  kind : Nat
  ch : Nat
  port : Nat
deriving DecidableEq, Repr

/-- A queue binding of a word. -/
def QRec.of (w : Nat) : QRec := ⟨natBits w 61 3, natBits w 51 10, natBits w 43 8⟩

/-- The bits that a binding's KIND does not define are 0. -/
def qRecOk (w : Nat) : Bool :=
  let q := QRec.of w
  natBits w 0 43 == 0 && (match q.kind with
    | 0 => q.ch == 0 && q.port == 0
    | 1 => q.port == 0
    | 2 => q.port == 0
    | 3 => q.ch == 0
    | 4 => q.ch == 0
    | 5 => q.ch == 0 && decide (q.port < 8)
    | _ => false)

/-- The binding that a record gives. -/
def QRec.bind (q : QRec) : QBind :=
  match q.kind with
  | 1 => .producer q.ch
  | 2 => .consumer q.ch
  | 3 => .input q.port
  | 4 => .output q.port
  | 5 => .arrive q.port
  | _ => .unbound

/-- A slot of an actor frame: channel and rate. -/
def slotOfFrame (f : Frame) (k : Nat) : Rate := ⟨fr f (18 * k + 8) 10, fr f (18 * k) 8⟩

/-- The slots of an actor frame; a slot of rate 0 is unused. -/
def ratesOf (f : Frame) : List Rate := (upFrom 0 8).map (slotOfFrame f)

/-- A channel record on a tile (Table 3.11). -/
structure ChanRec where
  tile : Nat
  ch : Nat
  frame : Nat
  depth : Nat
  ends : Nat
  peer : Nat
  pport : Nat
  cport : Nat
deriving DecidableEq, Repr

/-- The channel record of a word. -/
def ChanRec.of (tile ch frame w : Nat) : ChanRec :=
  ⟨tile, ch, frame, natBits w 52 12 + 1, natBits w 50 2, natBits w 34 16, natBits w 14 8, natBits w 6 8⟩

/-- The producer end is here. -/
def ChanRec.prodHere (r : ChanRec) : Bool := r.ends == 1 || r.ends == 3
/-- The consumer end is here. -/
def ChanRec.consHere (r : ChanRec) : Bool := r.ends == 2 || r.ends == 3

/-- A payload holds channel records. -/
def isChanFrame (p : Payload) : Bool := tClass p.target == 5 && decide (0x100 ≤ tIndex p.target ∧ tIndex p.target < 0x200)

/-- The channel records of an image whose END is not 0. -/
def chanRecs (e : Elements) : List ChanRec :=
  (((e.map (·.2)).filter isChanFrame).flatMap fun p => (upFrom 0 4).map fun j =>
      ChanRec.of (tTile p.target) (4 * (tIndex p.target - 0x100) + j) p.frame (frWord p.data j)).filter fun r => r.ends != 0

/-- The queue bindings of an image: tile, register, frame and record. -/
def queueRecs (e : Elements) : List (Nat × Nat × Nat × QRec) :=
  ((e.map (·.2)).filter fun p => tClass p.target == 5 && decide (0x020 ≤ tIndex p.target ∧ tIndex p.target < 0x028)).flatMap fun p =>
    (upFrom 0 4).map fun j => (tTile p.target, 4 * (tIndex p.target - 0x020) + j, p.frame, QRec.of (frWord p.data j))

/-- An engine port that its engine reads (Table 1.13). -/
def isInputPort (n : Nat) : Bool := decide (n ≤ 3) || n == 8 || n == 10
/-- An engine port that its engine writes. -/
def isOutputPort (n : Nat) : Bool := decide (4 ≤ n ∧ n ≤ 7) || n == 9 || n == 11

/-! ## Checks on one payload -/

/-- A frame's number when a check fails. -/
def failAt (n : Nat) (b : Bool) : List Nat := if b then [] else [n]

/-- CLASS, TILE and INDEX are in range (R104, R105, Table 3.11). -/
def targetOk (tiles : Nat) (t : Nat) : Bool :=
  let i := tIndex t
  let inTile := decide (tTile t < tiles)
  match tClass t with
  | 0 => tTile t == 0 && i == 0
  | 1 => inTile && decide (i < 2048)
  | 2 => inTile && decide (i < 64)
  | 3 => inTile && decide (i < 16)
  | 4 => inTile && decide (i < 256)
  | 5 => inTile && (decide (i ≤ 5) || decide (0x10 ≤ i ∧ i < 0x18) || decide (0x20 ≤ i ∧ i < 0x28) || decide (0x40 ≤ i ∧ i < 0xC0)
      || decide (0x100 ≤ i ∧ i < 0x200))
  | 6 => inTile && decide (i < 64)
  | 7 => decide (0xFF00 ≤ tTile t ∧ tTile t < 0xFF40) && decide (i < 256)
  | 14 => false
  | 15 => false
  | _ => inTile

/-- A channel record of END 0 names no port (R106). A word of zeros is no record: it fills a frame of four records that declares fewer (LOG 92
DEDUCED). -/
def absentRecOk (w : Nat) : Bool := natBits w 50 2 != 0 || w == 0 || (natBits w 14 8 == 0xFF && natBits w 6 8 == 0xFF)

/-- A memory-class record defines no bit that must be 0, and holds no value that makes the image invalid by itself (R106). The geometry of a
handle or stash record is not checked: R32 gives its limits and a trap of CBSET, and R109 does not list them (LOG 93 DESIGN CHOICE). -/
def recordOk (i : Nat) (f : Frame) : Bool :=
  if i = 0 then fr f 0 231 == 0 && decide (((upFrom 244 12).filter fun b => fr f b 1 == 0).length ≤ 4)
  else if i = 1 then fr f 90 166 == 0
  else if i ≤ 5 then fr f 240 16 == 0 && (upFrom 0 3).all fun j => fr f (80 * j + 65) 15 == 0
  else if i < 0x18 then fr f 74 54 == 0 && fr f 202 54 == 0
  else if i < 0x28 then (upFrom 0 4).all fun j => qRecOk (frWord f j)
  else if i < 0xC0 then
    if i % 2 = 0 then fr f 144 91 == 0 && decide (fr f 235 3 < 6) else fr f 144 112 == 0
  else (upFrom 0 4).all fun j => fr f (64 * j) 6 == 0 && fr f (64 * j + 22) 12 == 0 && absentRecOk (frWord f j)

/-- The frames of an image's header that break R102. `sr`: feature bit 6 is accepted (R239). An H0 whose SINKVA is no multiple of 64 is
accepted, and the address used as it stands: R109 does not list it (LOG 94 DESIGN CHOICE). -/
def headerFails (sr : Bool) (rows cols : Nat) (im : List Frame) : List Nat :=
  let h0 := frameAt im 0
  let digest := shaValue ((im.take 3 ++ im.drop 4).flatMap fun f => natLe 32 f.toNat)
  failAt 0 (fr h0 240 16 == 1 && fr h0 232 8 == 4 && fr h0 224 8 == 0 && fr h0 96 44 == 0 && fr h0 0 16 == 0
      && fr h0 152 8 == rows && fr h0 144 8 == cols && decide (1 ≤ rows ∧ rows ≤ 180 ∧ 1 ≤ cols ∧ cols ≤ 184)
      && decide (fr h0 141 3 ≤ if sr then 4 else 3))
    ++ failAt 2 (fr (frameAt im 2) 30 226 == 0) ++ failAt 3 (frameAt im 3 == digest)

/-! ## Checks across elements -/

/-- Bank assignment of a tile in an image: bit n is 1 for scratchpad. -/
def banksOf (e : Elements) (tile : Nat) : BitVec 12 :=
  match e.get? 5 tile 0 with
  | some p => BitVec.ofNat 12 (fr p.data 244 12)
  | none => 0xFFF

/-- Scratchpad offset of a data payload (R105). -/
def dataOffset (t : Nat) : Nat := 0x20000 * (tClass t - 8) + 32 * tIndex t

/-- A class of scratchpad data. -/
def isDataClass (c : Nat) : Bool := decide (8 ≤ c ∧ c ≤ 13)

/-- The checks of the channel ends of an image (R24, R106, R463). A channel with a producer-end record on one tile and a consumer-end record
on another whose PEERs name a port instead of each other is accepted, and the tiles' own ends hold (LOG 95 DESIGN CHOICE). -/
def channelFails (e : Elements) : List Nat :=
  let rs := chanRecs e
  let qs := queueRecs e
  let binds (kind : Nat) (r : ChanRec) : Nat := (qs.filter fun q => q.1 == r.tile && q.2.2.2.kind == kind && q.2.2.2.ch == r.ch).length
  let endOk (here : Bool) (kind port : Nat) (dir : Nat → Bool) (r : ChanRec) : Bool :=
    if here then binds kind r + (if port = 0xFF then 0 else 1) == 1 && (port == 0xFF || dir port) else port == 0xFF
  let peerOk (r : ChanRec) : Bool :=
    r.ends == 3 || r.peer == 0xFFFF || (decide (0xFF00 ≤ r.peer) && (e.tilesOf 7).contains r.peer)
      || rs.any fun x => x.tile == r.peer && x.ch == r.ch && x.peer == r.tile && x.ends == 3 - r.ends
  let single (p : ChanRec → Bool) (r : ChanRec) : Bool := !p r || (rs.filter fun x => x.ch == r.ch && p x).length == 1
  let portOnce (r : ChanRec) : Bool := decide (r.peer < 0xFF00) || r.peer == 0xFFFF || r.ends == 3
    || (rs.filter fun x => x.peer == r.peer && x.ends == r.ends).length == 1
  rs.flatMap fun r => failAt r.frame (endOk r.prodHere 1 r.pport isOutputPort r && endOk r.consHere 2 r.cport isInputPort r && peerOk r
    && single ChanRec.prodHere r && single ChanRec.consHere r && portOnce r)

/-- How many parties an engine port of a tile is bound to (R463). -/
def partiesOf (e : Elements) (tile port : Nat) : Nat :=
  ((queueRecs e).filter fun q => q.1 == tile && (q.2.2.2.kind == 3 || q.2.2.2.kind == 4) && q.2.2.2.port == port).length
    + ((chanRecs e).filter fun r => r.tile == tile && r.prodHere && r.pport == port).length
    + ((chanRecs e).filter fun r => r.tile == tile && r.consHere && r.cport == port).length

/-- The checks of the queue bindings of an image. -/
def queueFails (e : Elements) : List Nat :=
  let rs := chanRecs e
  (queueRecs e).flatMap fun q =>
    let (tile, _, frame, x) := q
    failAt frame (match x.kind with
      | 1 => rs.any fun r => r.tile == tile && r.ch == x.ch && r.prodHere
      | 2 => rs.any fun r => r.tile == tile && r.ch == x.ch && r.consHere
      | 3 => isInputPort x.port && partiesOf e tile x.port == 1
      | 4 => isOutputPort x.port && partiesOf e tile x.port == 1
      | _ => true)

/-- The engine ports that channel records of an image bind are bound once. -/
def enginePortFails (e : Elements) : List Nat :=
  (chanRecs e).flatMap fun r =>
    failAt r.frame ((!r.prodHere || r.pport == 0xFF || partiesOf e r.tile r.pport == 1)
      && (!r.consHere || r.cport == 0xFF || partiesOf e r.tile r.cport == 1))

/-- Only slot 0 of an actor frame is used. -/
def onlyFirst (f : Frame) : Bool := (slotOfFrame f 0).rate != 0 && (upFrom 1 7).all fun k => (slotOfFrame f k).rate == 0

/-- An engine actor's one input and one output go through engine ports of its tile. -/
def engineEnds (e : Elements) (tile inp out : Nat) (fi fo : Frame) : Bool :=
  onlyFirst fi && onlyFirst fo
    && ((chanRecs e).any fun r => r.tile == tile && r.ch == (slotOfFrame fi 0).ch && r.consHere && r.cport == inp)
    && (chanRecs e).any fun r => r.tile == tile && r.ch == (slotOfFrame fo 0).ch && r.prodHere && r.pport == out

/-- The actor entries of an image that R192, R223 or R236 refuses. -/
def actorFails (e : Elements) : List Nat :=
  ((e.map (·.2)).filter fun p => tClass p.target == 5 && decide (0x40 ≤ tIndex p.target ∧ tIndex p.target < 0xC0)
      && tIndex p.target % 2 == 0 && fr p.data 255 1 == 1).flatMap fun p =>
    let tile := tTile p.target
    let fo := e.data 5 tile (tIndex p.target + 1)
    let entry := fr p.data 238 13
    failAt p.frame (match fr p.data 251 2 with
      | 1 => engineEnds e tile 8 9 p.data fo && (slotOfFrame p.data 0).rate == (slotOfFrame fo 0).rate && decide (entry < 8)
      | 2 => decide (entry < 16)
      | 3 => engineEnds e tile 10 11 p.data fo && decide (entry < 4)
      | _ => true)

/-- The scratchpad data payloads that lie in an L1 bank. -/
def dataFails (e : Elements) (ps : List Payload) : List Nat :=
  (ps.filter fun p => isDataClass (tClass p.target)).flatMap fun p =>
    failAt p.frame ((banksOf e (tTile p.target)).getLsbD (dataOffset p.target / 0x10000))

/-- The node words of a tile in an image. -/
def nodesOf (e : Elements) (tile : Nat) : Table (BitVec 32) :=
  (e.of 4 tile).foldl (fun t p => writeNodes t (8 * tIndex p.target) ((upFrom 0 8).map fun j => BitVec.ofNat 32 (fr p.data (32 * j) 32))) []

/-- The tiles whose preloaded graphs break a rule (R237). -/
def inlayFails (e : Elements) : List Nat :=
  (e.tilesOf 4).flatMap fun t =>
    match inlayScan 5 0 0 { Inlay.idle with nodes := nodesOf e t }, e.of 4 t with
    | none, p :: _ => [p.frame]
    | _, _ => []

/-! ### Routes (R393) -/

/-- The route entry of a tile. -/
def routeEntry (e : Elements) (tile n : Nat) : Word := BitVec.ofNat 64 (frWord (e.data 6 tile (n / 4)) (n % 4))

/-- The tile beside a tile of a region, through a port of Table 12.3's order. -/
def besideOf (rows cols tile p : Nat) : Option Nat :=
  let y := tile / cols
  let x := tile % cols
  if p = 1 then (if 0 < x then some (tile - 1) else none)
  else if p = 2 then (if x + 1 < cols then some (tile + 1) else none)
  else if p = 3 then (if 0 < y then some (tile - cols) else none)
  else if y + 1 < rows then some (tile + cols) else none

/-- An entry's own fields are legal: no reserved value or bit, valid or not, no field that its KIND does not use, and at a valid entry the
directions that its KIND allows. -/
def routeFieldsOk (w : Word) : Bool :=
  let outs := ((upFrom 0 5).filter fun p => rOut w p).length
  field w 0 41 == 0 && rKind w != 3 && decide (rRule w < 6)
    && (if rKind w = 2 then !rSrc w else field w 50 5 == 0 && rRule w == 0)
    && (!rValid w || rKind w == 1 || (decide (outs ≤ 1) && (rKind w != 2 || field w 50 5 != 0)))

/-- An entry agrees with its neighbours' entries. -/
def routeLinksOk (e : Elements) (rows cols tile n : Nat) (w : Word) : Bool :=
  !rValid w || (upFrom 1 4).all fun p =>
    let other (f : Word → Bool) : Bool := match besideOf rows cols tile p with
      | some t => let x := routeEntry e t n; rValid x && rKind x == rKind w && f x
      | none => false
    (!rOut w p || other fun x => rKind w != 2 || rIn x (facing p)) && (!(rKind w == 2 && rIn w p) || other fun x => rOut x (facing p))

/-- The checks of the route entries of an image. -/
def routeFails (e : Elements) (rows cols : Nat) : List Nat :=
  let ts := e.tilesOf 6
  let entries (p : Payload) : List (Nat × Word) := (upFrom 0 4).map fun j =>
    (4 * tIndex p.target + j, BitVec.ofNat 64 (frWord p.data j))
  let roots (n : Nat) : Nat := (ts.filter fun t => let w := routeEntry e t n; rValid w && rKind w == 2 && rOut w 0).length
  let depth (t : Nat) : Nat := (((e.of 6 t).flatMap entries).filter fun x => rValid x.2 && rOut x.2 0).foldl (fun n x => n + rDepth x.2) 0
  ((e.map (·.2)).filter fun p => tClass p.target == 6).flatMap fun p =>
    let t := tTile p.target
    failAt p.frame (decide (depth t ≤ 256) && (entries p).all fun x => routeFieldsOk x.2 && routeLinksOk e rows cols t x.1 x.2
      && (!(rValid x.2 && rKind x.2 == 2 && rOut x.2 0) || roots x.1 == 1))

/-! ### Faceplate ports (R403 to R406) -/

/-- The words of a port in an image. -/
def portWordsOf (e : Elements) (n : Nat) : Table Word :=
  (e.of 7 (0xFF00 + n)).foldl (fun t p => (upFrom 0 4).foldl (fun t j => tabSet 0 t (4 * tIndex p.target + j) (BitVec.ofNat 64 (frWord p.data j))) t) []

/-- Bits of a delivered element: those of OUTF, or 8 for raw bytes (R407). -/
def outWidth (fmt outf : Nat) : Nat :=
  if fmt = 0 then 8 else nth 8 [32, 16, 16, 6, 4, 8, 16, 32, 64] outf

/-- Bytes that `n` delivered elements take, packed (R56, R66). -/
def packedBytes (w n : Nat) : Nat := if w = 6 then (n + 3) / 4 * 3 else (n * w + 7) / 8

/-- Bytes that `n` stored elements of a format take from the start of their array. -/
def storedBytes (p : Word) (n : Nat) : Nat :=
  let f := field p 59 5
  let b := 32 * 2 ^ field p 56 3
  if f = 7 then (n + 3) / 4 * 3
  else if f = 8 then (n + 1) / 2
  else if f = 9 then (n + b - 1) / b * (4 + 3 * b / 4)
  else n * (if f = 2 ∨ f = 4 ∨ f = 5 then 2 else if f = 3 ∨ f = 6 then 4 else 1)

/-- Fields of an access pattern (R405). -/
structure Pattern where
  ptr : Word
  per : Nat
  rows : Nat
  stride : Word
  c : Word
  fmt : Nat
  outf : Nat
  rnd : Nat
  decode : Bool
  transpose : Bool
  scaleIns : Bool
  passEnd : Bool
  handoff : Bool
  group : Nat
  tile : Nat
  off : Nat
  note : Bool
deriving DecidableEq, Repr

/-- Access pattern k of a port's words. -/
def patternOf (ws : Table Word) (k : Nat) : Pattern :=
  let w (j : Nat) : Word := tabGet 0 ws (4 + 4 * k + j)
  let c := w 2
  { ptr := w 0
    per := field (w 1) 32 32 + 1
    rows := field (w 1) 16 16 + 1
    stride := w 3
    c := c
    fmt := field (w 0) 59 5
    outf := field c 59 4
    rnd := field c 56 3
    decode := c.getLsbD 63
    transpose := c.getLsbD 55
    scaleIns := c.getLsbD 54
    passEnd := c.getLsbD 53
    handoff := c.getLsbD 52
    group := field c 40 12
    tile := field c 24 16
    off := field c 4 20
    note := c.getLsbD 3 }

/-- Elements of a pattern. -/
def Pattern.count (p : Pattern) : Nat := p.per * p.rows

/-- MODE of a port (R404). -/
def modeOf (ws : Table Word) : Nat := field (tabGet 0 ws 0) 60 4
/-- VERSIONED. -/
def versioned (ws : Table Word) : Bool := (tabGet 0 ws 0).getLsbD 59
/-- WSET. -/
def wsetOf (ws : Table Word) : Nat := field (tabGet 0 ws 0) 53 6
/-- Number of patterns. -/
def npat (ws : Table Word) : Nat := field (tabGet 0 ws 0) 48 5 + 1
/-- REPEAT. -/
def repeats (ws : Table Word) : Bool := (tabGet 0 ws 0).getLsbD 47

/-- The scratchpad range of a FILL or DRAIN pattern. -/
def Pattern.spadRange (p : Pattern) (mode : Nat) : Nat × Nat :=
  (p.off, if mode = 2 then packedBytes (outWidth p.fmt p.outf) p.count else storedBytes p.ptr p.count)

/-- The valid group entries of a port: entry number and word (R406). -/
def groupWords (ws : Table Word) : List (Nat × Word) :=
  ((upFrom 0 256).map fun g => (g, tabGet 0 ws (512 + g))).filter fun x => x.2.getLsbD 63

/-- LGROUP of a group entry. -/
def lgroupOf (w : Word) : Nat := field w 51 12

/-- A range lies in scratchpad banks. -/
def inScratch (banks : BitVec 12) (off n : Nat) : Bool :=
  decide (off + n ≤ 0xC0000) && (n == 0 || (upFrom (off / 0x10000) ((off + n - 1) / 0x10000 + 1 - off / 0x10000)).all banks.getLsbD)

/-- A pattern is valid (R405). -/
def patternOk (e : Elements) (tiles n : Nat) (ws : Table Word) (p : Pattern) (b : Word) : Bool :=
  let mode := modeOf ws
  let spad := mode == 2 || mode == 3
  field b 0 16 == 0 && field p.c 0 3 == 0 && decide (p.outf ≤ 8) && decide (p.rnd ≤ 3)
    && (if mode = 1 then (groupWords ws).any fun g => lgroupOf g.2 == p.group else p.group == 0)
    && (if spad then decide (p.tile < tiles) && p.off % 32 == 0
          && inScratch (banksOf e p.tile) (p.spadRange mode).1 (p.spadRange mode).2
        else p.tile == 0 && p.off == 0)
    && (!p.handoff || spad)
    && (!p.note || (chanRecs e).any fun r => r.ends == 2 && r.peer == 0xFF00 + n)
    && !(p.decode && decide (1 < p.rows))
    && !(p.transpose && (p.count % 1024 != 0 || p.outf == 4 || p.outf == 3))

/-- A group entry is legal (R406); its LGROUP stands once in the region. -/
def groupOk (e : Elements) (rows cols : Nat) (w : Word) : Bool :=
  field w 0 17 == 0 && decide (field w 41 8 + field w 25 8 + 1 ≤ rows) && decide (field w 33 8 + field w 17 8 + 1 ≤ cols)
    && (((e.tilesOf 7).flatMap fun t => groupWords (portWordsOf e (t - 0xFF00))).filter fun x => lgroupOf x.2 == lgroupOf w).length == 1

/-- A word of a port is legal. -/
def portWordOk (e : Elements) (rows cols n : Nat) (ws : Table Word) (k : Nat) (w : Word) : Bool :=
  if k = 0 then field w 0 47 == 0 && decide (field w 60 4 ≤ 5)
  else if 4 ≤ k ∧ k < 132 then
    k % 4 != 0 || modeOf ws == 0 || decide (npat ws ≤ (k - 4) / 4) || patternOk e (rows * cols) n ws (patternOf ws ((k - 4) / 4)) (tabGet 0 ws (k + 1))
  else if 512 ≤ k ∧ k < 768 then !w.getLsbD 63 || groupOk e rows cols w
  else w == 0

/-- The checks of the port words of an image. A pattern of a port in use is checked where its words stand, or would stand. -/
def portFails (e : Elements) (rows cols : Nat) : List Nat :=
  (e.tilesOf 7).flatMap fun t =>
    let ws := portWordsOf e (t - 0xFF00)
    let here := (e.of 7 t).flatMap fun p => failAt p.frame ((upFrom 0 4).all fun j =>
      portWordOk e rows cols (t - 0xFF00) ws (4 * tIndex p.target + j) (BitVec.ofNat 64 (frWord p.data j)))
    let absent := (upFrom 0 (npat ws)).filter fun k => (e.get? 7 t (k + 1)).isNone
    let first := match e.of 7 t with
      | p :: _ => p.frame
      | [] => 0
    here ++ absent.flatMap fun k => failAt first (portWordOk e rows cols (t - 0xFF00) ws (4 + 4 * k) 0)

/-! ## The whole check (R109) -/

/-- The least of some numbers. -/
def leastOf : List Nat → Option Nat
  | [] => none
  | x :: r => match leastOf r with
    | some y => some (min x y)
    | none => some x

/-- The first failing frame of an image under R109, its feature item aside (R350, check 3): the least index of a frame that fails any check
(LOG 64 DEDUCED). -/
def checkImage (sr : Bool) (rows cols : Nat) (im : List Frame) : Option Nat :=
  let ps := payloads im
  let e := elements ps
  let local_ := ps.flatMap fun p => failAt p.addr (targetOk (rows * cols) p.target)
    ++ failAt p.frame (tClass p.target != 5 || recordOk (tIndex p.target) p.data)
  leastOf (headerFails sr rows cols im ++ local_ ++ channelFails e ++ queueFails e ++ enginePortFails e ++ actorFails e ++ dataFails e ps
    ++ inlayFails e ++ routeFails e rows cols ++ portFails e rows cols)

/-- The features that an image requires: FEATREQ, and bit 2 for Inlay payloads and actors (R53, R239). -/
def requiredFeatures (im : List Frame) : BitVec 256 :=
  let e := elements (payloads im)
  let inlay := (e.tilesOf 4).length != 0 || e.any fun x => tClass x.1 == 5 && decide (0x40 ≤ tIndex x.1 ∧ tIndex x.1 < 0xC0)
    && tIndex x.1 % 2 == 0 && fr x.2.data 255 1 == 1 && fr x.2.data 251 2 == 3
  frameAt im 1 ||| (if inlay then 4 else 0)

/-! ## What payloads give (R107, R108) -/

/-- Words of a frame written to consecutive keys of a table. -/
def putWords (t : Table Word) (k : Nat) (f : Frame) : Table Word :=
  (upFrom 0 4).foldl (fun t j => tabSet 0 t (k + j) (BitVec.ofNat 64 (frWord f j))) t

/-- A tile with a memory-class record delivered. -/
def Tile.record (t : Tile) (i : Nat) (f : Frame) : Tile :=
  if i = 0 then { t with banks := BitVec.ofNat 12 (fr f 244 12), ktvec := BitVec.ofNat 64 (fr f 231 13) }
  else if i = 1 then { t with stash := ⟨handleAt f 0, fr f 74 16, []⟩ }
  else if i ≤ 5 then
    { t with bankTokens := (upFrom 0 3).foldl (fun b j => tabSet BankToken.idle b (3 * (i - 2) + j) (bankTokenAt f j)) t.bankTokens }
  else if i < 0x18 then (t.setRing (2 * (i - 0x10)) (handleAt f 0)).setRing (2 * (i - 0x10) + 1) (handleAt f 128)
  else if i < 0x28 then
    { t with queues := (upFrom 0 4).foldl (fun q j => tabSet .unbound q (4 * (i - 0x20) + j) (QRec.of (frWord f j)).bind) t.queues }
  else if i < 0xC0 then
    let n := (i - 0x40) / 2
    let a := t.actor n
    if i % 2 = 0 then t.setActor n { a with
      valid := fr f 255 1 == 1
      cls := fr f 253 2
      target := fr f 251 2
      entry := BitVec.ofNat 13 (fr f 238 13)
      substream := fr f 235 3
      ins := ratesOf f }
    else t.setActor n { a with outs := ratesOf f }
  else t

/-- A tile with a payload delivered. -/
def Tile.deliver (t : Tile) (p : Payload) : Tile :=
  let i := tIndex p.target
  match tClass p.target with
  | 1 => { t with code := putWords t.code (4 * i) p.data }
  | 2 => { t with laneCfg := tabSet 0 t.laneCfg i p.data }
  | 3 => { t with matrix := { t.matrix with records := putWords t.matrix.records (4 * i) p.data } }
  | 4 => { t with inlay := { t.inlay with
      nodes := writeNodes t.inlay.nodes (8 * i) ((upFrom 0 8).map fun j => BitVec.ofNat 32 (fr p.data (32 * j) 32)) } }
  | 5 => t.record i p.data
  | 6 => { t with routes := putWords t.routes (4 * i) p.data }
  | c => if isDataClass c then { t with spad := writeBytes t.spad (dataOffset p.target) (natLe 32 p.data.toNat) } else t

/-- The preloaded graphs of a tile at the end of configuration load (R237). -/
def Tile.preload (t : Tile) : Tile :=
  match inlayScan 5 0 0 t.inlay with
  | some x => { t with inlay := x }
  | none => t

/-- The bank tokens of a configuration that names none: held by its handle (R108). -/
def heldTokens (h : BitVec 32) : Table BankToken :=
  (upFrom 0 12).foldl (fun t n => tabSet BankToken.idle t n ⟨h, 0, false⟩) []

/-- The channel of a region that records declare (R22, R24): an end on a tile holds against a port that the other end's PEER names (LOG 95
DESIGN CHOICE). -/
def channelOf (rs : List ChanRec) (e : Elements) (ch : Nat) : Channel :=
  let mine := rs.filter fun r => r.ch == ch
  let far (r : ChanRec) : End := if r.peer = 0xFFFF then .region else .fport (r.peer - 0xFF00)
  let queue (kind : Nat) (r : ChanRec) : End :=
    match (queueRecs e).find? fun q => q.1 == r.tile && q.2.2.2.kind == kind && q.2.2.2.ch == ch with
    | some q => .queue r.tile q.2.1
    | none => .unbound
  let prod : End := match mine.find? ChanRec.prodHere, mine with
    | some r, _ => if r.pport = 0xFF then queue 1 r else .engine r.tile r.pport
    | none, r :: _ => far r
    | none, [] => .unbound
  let cons : End := match mine.find? ChanRec.consHere, mine with
    | some r, _ => if r.cport = 0xFF then queue 2 r else .engine r.tile r.cport
    | none, r :: _ => far r
    | none, [] => .unbound
  let depth := match mine with
    | r :: _ => r.depth
    | [] => 1
  { Channel.idle with depth := depth, prod := prod, cons := cons, space := depth }

/-- The channels of an image. -/
def channelsOf (e : Elements) : Table Channel :=
  let rs := chanRecs e
  ((rs.map (·.ch)).eraseDups).foldl (fun t ch => tabSet Channel.idle t ch (channelOf rs e ch)) []

/-- The ports that an image names, with their words. -/
def portsOf (e : Elements) : Table (Table Word) :=
  (e.tilesOf 7).foldl (fun t n => tabInsert (tabErase t (n - 0xFF00)) (n - 0xFF00) (portWordsOf e (n - 0xFF00))) []

/-- The frames of an image's port payloads, key port × 256 + INDEX. -/
def portFramesOf (e : Elements) : Table Nat :=
  ((e.map (·.2)).filter fun p => tClass p.target == 7).foldl (fun t p =>
    tabSet 0 t ((tTile p.target - 0xFF00) * 256 + tIndex p.target) p.frame) []

end Sys2Proof.Machine
end

