-- ==== Sys2Proof/Machine/Veneer.lean ====
section
/-!
DEFINITION. Light blocks and landing slots: VNWAIT and VNREL (08_network_version_system.md R254 to R258), arrivals at cluster drops
(01_machine_state.md R36, 12_wafer_fabric.md R397, R398), and release tokens (R401).
-/
namespace Sys2Proof.Machine

/-- The region-local group and block ID that g[OPA] of VNWAIT names (R256). -/
def expectedBlock (v : Word) : BitVec 12 × BitVec 32 := (v.extractLsb' 32 12, v.extractLsb' 0 32)

/-- A FULL slot that ends a wait: any, or the expected block's. -/
def Slot.ends (x : Slot) (e : Option Word) : Bool :=
  x.state == .full && match e with
    | none => true
    | some v => x.group == (expectedBlock v).1 && x.blockId == (expectedBlock v).2

/-- A FULL slot that shows that the expected block was passed over (R256). -/
def Slot.passed (x : Slot) (v : Word) : Bool :=
  x.state == .full && x.group == (expectedBlock v).1
    && decide (1 ≤ (x.blockId - (expectedBlock v).2).toNat ∧ (x.blockId - (expectedBlock v).2).toNat < 2 ^ 31)

/-- The version tracker after a VNWAIT that returned a block of a version (R263). -/
def Strand.track (x : Strand) (v : BitVec 16) : Strand :=
  if !x.trackValid then { x with trackValid := true, trackVer := v }
  else if v ≠ x.trackVer then { x with trackMixed := true }
  else x

/-- The word that VNWAIT writes. -/
def slotWord (n : Nat) (x : Slot) : Word :=
  BitVec.ofNat 64 (x.blockId.toNat * 2 ^ 32 + x.version.toNat * 2 ^ 16 + x.group.toNat * 16 + (if x.scale then 8 else 0) + n)

/-- A list without the first element that a predicate picks. -/
def dropFirst {α : Type} (p : α → Bool) : List α → List α
  | [] => []
  | x :: r => if p x then r else x :: dropFirst p r

/-- VNWAIT. `e` is the value of g[OPA]; none with ANY. -/
def vnwaitEff (d : BitVec 6) (e : Option Word) (mask : BitVec 4) (s : State) : M Eff := do
  let t := s.curTile
  let slots := (upFrom 0 4).filter fun n => mask.getLsbD n
  match slots.find? fun n => (t.slot n).ends e with
  | some n =>
    let x := t.slot n
    return .done (s.setCur ((s.curStrand.wg d (slotWord n x)).track x.version))
  | none =>
    match e with
    | none => waitM s
    | some v =>
      let b := expectedBlock v
      demand (!t.drops.any fun r => !r.hdrBad && r.group == b.1 && r.blockId == b.2) s .veneerGap v
      demand (!slots.any fun n => (t.slot n).passed v) s .veneerGap v
      demand (!t.drops.any (·.hdrBad)) (s.setCurTile { t with drops := dropFirst (·.hdrBad) t.drops }) .veneerGap v
      waitM s

/-- VNWAIT (R256). -/
def execVnwait (d : BitVec 6) (sel : VnSel) (mask : BitVec 4) (s : State) : Host.Outcome State Fault Refusal :=
  match sel with
  | .any => issueM s [d] (vnwaitEff d none mask s)
  | .expected a => issueM s [d, a] (vnwaitEff d (some (s.curStrand.rg a)) mask s)

/-- VNREL: the slot is freed once no issued MLDS of it is left to execute, and the release is counted for its group (R401). -/
def vnrelEff (n : Nat) (s : State) : M Eff := do
  let t := s.curTile
  let x := t.slot n
  demand (x.state == .full) s .slotState (BitVec.ofNat 64 (0xC0000 + 0x1000 * n))
  await (x.loads == 0) s
  let g := x.group.toNat
  let t1 := t.setSlot n { x with state := .free }
  let t2 := { t1 with released := tabSet 0 t1.released g ((tabGet 0 t1.released g + 1) % 2 ^ 32) }
  return .done ((s.setCurTile t2).ask (.releaseTokenArrive t.handle g))

/-- VNREL (R257). -/
def execVnrel (a : BitVec 6) (s : State) : Host.Outcome State Fault Refusal :=
  issueM s [a] (vnrelEff (field (s.curStrand.rg a) 0 2) s)

/-- VNREL with an immediate (R257). -/
def execVnrelI (imm : BitVec 32) (s : State) : Host.Outcome State Fault Refusal := issueM s [] (vnrelEff (field (zx32 imm) 0 2) s)

/-! ## Arrivals (R36, R254, R255, R397, R398) -/

/-- A tile with a drop entered: the four most recent drops are kept, oldest first. -/
def Tile.addDrop (t : Tile) (d : Drop) : Tile :=
  let l := t.drops ++ [d]
  { t with drops := l.drop (l.length - 4) }

/-- The physical tiles of a cluster that a 16-bit mask names: bit 4 × (PROW mod 4) + (PCOL mod 4). -/
def clusterTiles (c : Nat) (mask : BitVec 16) : List Nat :=
  ((upFrom 0 16).filter fun i => mask.getLsbD i).map fun i => (c / 48 * 4 + i / 4) * 192 + (c % 48 * 4 + i % 4)

/-- A drop is counted at its cluster (R398, R401). -/
def State.countDrop (s : State) (c : Nat) : State := s.setCluster c { s.cluster c with drops := (s.cluster c).drops + 1 }

/-- Fields of a block's header (R398): wafer group, block ID, version, scale, weight set, leaf mask, pass, and the CRC-32 of the payload. -/
def Block.wgroup (b : Block) : Nat := field b.w0 4 12
def Block.blockId (b : Block) : BitVec 32 := b.w0.extractLsb' 32 32
def Block.version (b : Block) : BitVec 16 := b.w0.extractLsb' 16 16
def Block.scale (b : Block) : Bool := b.w0.getLsbD 3
def Block.wset (b : Block) : Nat := field b.w1 58 6
def Block.leafMask (b : Block) : BitVec 4 := b.w1.extractLsb' 54 4
def Block.pass (b : Block) : BitVec 32 := b.w1.extractLsb' 0 32
def Block.payloadCrc (b : Block) : BitVec 32 := b.w2.extractLsb' 0 32

/-- The header's own CRC-32 checks. -/
def Block.headerGood (b : Block) : Bool := b.w3.extractLsb' 0 32 == crcWords [b.w0, b.w1, b.w2]

/-- A block as a faceplate builds it (R398). -/
def Block.make (wgroup : Nat) (id : BitVec 32) (version : Nat) (scale : Bool) (wset leaf : Nat) (pass : Nat) (payload : List Byte) : Block :=
  let w0 : Word := BitVec.ofNat 64 (id.toNat * 2 ^ 32 + version % 65536 * 2 ^ 16 + wgroup % 4096 * 16 + if scale then 8 else 0)
  let w1 : Word := BitVec.ofNat 64 (wset % 64 * 2 ^ 58 + leaf % 16 * 2 ^ 54 + pass % 2 ^ 32)
  let w2 : Word := (crc32 payload).zeroExtend 64
  ⟨w0, w1, w2, (crcWords [w0, w1, w2]).zeroExtend 64, payload⟩

/-- A block whose header arrives with some bits turned over. -/
def Block.damaged (b : Block) (d : BitVec 256) : Block :=
  { b with
    w0 := b.w0 ^^^ d.extractLsb' 0 64
    w1 := b.w1 ^^^ d.extractLsb' 64 64
    w2 := b.w2 ^^^ d.extractLsb' 128 64
    w3 := b.w3 ^^^ d.extractLsb' 192 64 }

/-- A block with a good header at one member tile: it takes the lowest FREE slot, which lands, or is dropped. -/
def State.blockAt (s : State) (c t : Nat) (g : BitVec 12) (b : Block) : State :=
  let x := s.tile t
  match (upFrom 0 4).find? fun n => (x.slot n).state == .free with
  | some n =>
    let y : Slot := ⟨.landing, b.scale, g, b.version, b.blockId, writeBytes [] 0 b.payload, 0, b.payloadCrc⟩
    (s.setTile t (x.setSlot n y)).push (.lightBlockLanded t n [])
  | none => (s.countDrop c).setTile t (x.addDrop ⟨false, g, b.blockId⟩)

/-- A block with a bad header at a drop: every tile that a membership entry masks records it. -/
def State.badHeader (s : State) (c : Nat) : State :=
  let ts := ((s.cluster c).members.flatMap fun m => clusterTiles c m.mask).eraseDups
  ts.foldl (fun s t => s.setTile t ((s.tile t).addDrop ⟨true, 0, 0⟩)) (s.countDrop c)

/-- LIGHT_BLOCK_HEADER_ARRIVE (R254, R397, R398): the oldest block on its way to a cluster's drop arrives, with the header bits of `damage`
turned over on the way. A drop accepts it when its header's CRC checks, its leaf bit is set and the membership table holds its group. -/
def execLightBlockHeaderArrive (c : Nat) (damage : BitVec 256) (s : State) : Host.Outcome State Fault Refusal :=
  let x := s.cluster c
  .next (match x.incoming with
    | [] => s
    | sent :: rest =>
      let s1 := s.setCluster c { x with incoming := rest }
      let b := sent.damaged damage
      if !b.headerGood then s1.badHeader c
      else if b.leafMask.getLsbD (c % 4) then
        (x.members.filter fun m => m.wgroup == b.wgroup).foldl (fun s m =>
          (clusterTiles c m.mask).foldl (fun s t => s.blockAt c t (BitVec.ofNat 12 m.lgroup) b) s) s1
      else s1)

/-- A payload with some bytes turned over on the way. -/
def damagedPayload (m : Memory) (damage : List (Nat × Byte)) : Memory :=
  damage.foldl (fun m d => writeByte m (d.1 % 4096) (readByte m (d.1 % 4096) ^^^ d.2)) m

/-- LIGHT_BLOCK_LANDED (R36): the payload of a landing slot has landed, with the bytes of `damage` turned over. With a good CRC the slot is
FULL; otherwise it is FREE again and the block counts as dropped. -/
def execLightBlockLanded (t slot : Nat) (damage : List (Nat × Byte)) (s : State) : Host.Outcome State Fault Refusal :=
  let x := s.tile t
  let y := x.slot slot
  let m := damagedPayload y.payload damage
  .next (if y.state ≠ .landing then s
    else if crc32 (readBytes m 0 4096) = y.crc then s.setTile t (x.setSlot slot { y with state := .full, payload := m })
    else (s.countDrop (clusterOf t)).setTile t ((x.setSlot slot { y with state := .free }).addDrop ⟨false, y.group, y.blockId⟩))

/-! ## Release tokens (R401) -/

/-- A faceplate port of a region. -/
def Region.port (r : Region) (n : Nat) : FPort := tabGet FPort.idle r.ports n

/-- A region with a faceplate port replaced. -/
def Region.setPort (r : Region) (n : Nat) (p : FPort) : Region := { r with ports := tabSet FPort.idle r.ports n p }

/-- The least release count of a group's members, which are logical tiles of the region. -/
def State.leastReleased (s : State) (r : Region) (g : Group) : Nat :=
  minOf (g.members.map fun n => tabGet 0 (s.tile (r.physical n)).released g.lgroup)

/-- RELEASE_TOKEN_ARRIVE (R401): the minimum of the members' release counts reaches the faceplate that owns a group. -/
def execReleaseTokenArrive (h : BitVec 32) (group : Nat) (s : State) : Host.Outcome State Fault Refusal :=
  let r := s.region h
  .next (if s.live h && r.phase == .running then
      match r.ports.find? fun p => p.2.groups.any fun g => g.lgroup == group with
      | some (n, p) =>
        let gs := p.groups.map fun g => if g.lgroup = group then { g with mrel := BitVec.ofNat 32 (s.leastReleased r g) } else g
        (s.setRegion h (r.setPort n { p with groups := gs })).ask (.faceplateBlockSend h n)
      | none => s
    else s)

end Sys2Proof.Machine
end

