-- ==== Sys2Proof/Machine/Grid.lean ====
section
/-!
DEFINITION. The enabled grid (12_wafer_fabric.md R377 to R382): which physical tiles it enables, and where a logical tile lies. A tile is numbered PROW × 192 + PCOL, a die 8 × die row + die column, and a column or row of a die
64 × die + index.
-/
namespace Sys2Proof.Machine

/-- The die of a physical tile (R377). -/
def dieOf (t : Nat) : Nat := prowOf t / 32 * 8 + pcolOf t / 24

/-- CB of a die-column band. -/
def State.cb (s : State) (b : Nat) : Nat := tabGet 0 s.colCount b

/-- RB of a die-row band. -/
def State.rb (s : State) (a : Nat) : Nat := tabGet 0 s.rowCount a

/-- Columns of the enabled grid (R380). -/
def State.gridCols (s : State) : Nat := ((upFrom 0 8).map s.cb).foldl (· + ·) 0

/-- Rows of the enabled grid. -/
def State.gridRows (s : State) : Nat := ((upFrom 0 6).map s.rb).foldl (· + ·) 0

/-- The enabled columns of a die, ascending; surplus columns are the highest ones (R380). -/
def State.dieCols (s : State) (d : Nat) : List Nat :=
  ((upFrom 0 24).filter fun c => !s.offCols.contains (64 * d + c)).take (s.cb (d % 8))

/-- The enabled rows of a die, ascending. -/
def State.dieRows (s : State) (d : Nat) : List Nat :=
  ((upFrom 0 32).filter fun r => !s.offRows.contains (64 * d + r)).take (s.rb (d / 8))

/-- The band that a grid index falls into, and the index within the band. -/
def bandOf (count : Nat → Nat) (x : Nat) : Nat → Nat → Option (Nat × Nat)
  | _, 0 => none
  | b, fuel + 1 => if x < count b then some (b, x) else bandOf count (x - count b) (b + 1) fuel

/-- The physical tile of an enabled-grid position (R382). -/
def State.physAt (s : State) (x y : Nat) : Option Nat :=
  match bandOf s.cb x 0 8, bandOf s.rb y 0 6 with
  | some (b, c), some (a, r) =>
    match (s.dieCols (8 * a + b))[c]?, (s.dieRows (8 * a + b))[r]? with
    | some pc, some pr => some ((32 * a + pr) * 192 + 24 * b + pc)
    | _, _ => none
  | _, _ => none

/-- A physical tile is enabled. -/
def State.enabled (s : State) (t : Nat) : Bool :=
  (s.dieCols (dieOf t)).contains (pcolOf t % 24) && (s.dieRows (dieOf t)).contains (prowOf t % 32)

/-- The number of enabled columns or rows before a position among a list. -/
def countBefore (l : List Nat) (n : Nat) : Nat := (l.filter fun x => decide (x < n)).length

/-- The enabled-grid column and row of an enabled physical tile. -/
def State.gridAt (s : State) (t : Nat) : Nat × Nat :=
  let d := dieOf t
  (((upFrom 0 (d % 8)).map s.cb).foldl (· + ·) 0 + countBefore (s.dieCols d) (pcolOf t % 24),
    ((upFrom 0 (d / 8)).map s.rb).foldl (· + ·) 0 + countBefore (s.dieRows d) (prowOf t % 32))

/-- KGRID of a tile (R45). -/
def State.kgrid (s : State) (t : Nat) : Word :=
  let x := s.tile t
  let r := s.region x.handle
  BitVec.ofNat 64 (s.gridVersion.toNat * 2 ^ 48 + x.row * 2 ^ 40 + x.col * 2 ^ 32 + r.info.rows * 2 ^ 24 + r.info.cols * 2 ^ 16
    + s.gridRows * 256 + s.gridCols)

/-! ## Victim frames (09_memory_model.md R307) -/

/-- The tiles that a placement has reserved (R354). -/
def State.reservedTiles (s : State) : List Nat :=
  (s.dist.placing.toList ++ s.dist.interrupted).flatMap fun j => j.reserved.flatMap fun r => r.tiles

/-- An idle tile: enabled, and no region binds it. A tile that a placement has reserved takes no page any more (R311). -/
def State.idleTile (s : State) (t : Nat) : Bool := (s.tile t).bound.isNone && s.enabled t && !s.reservedTiles.contains t

/-- A victim frame, 48 × tile + index, holds nothing and may be used. -/
def State.frameFree (s : State) (f : Nat) : Bool := !tabGet false s.frames f && s.idleTile (f / 48)

/-- The free frame of the lowest tile and index (R309), if feature bit 3 is accepted and there is one. -/
def State.firstFrame (s : State) : Option Nat :=
  if s.feature 3 then
    match (upFrom 0 36864).find? fun t => s.idleTile t && (upFrom 0 48).any fun i => s.frameFree (48 * t + i) with
    | some t => ((upFrom 0 48).map fun i => 48 * t + i).find? s.frameFree
    | none => none
  else none

/-- `n` frames taken, or none when there are not as many. -/
def takeFrames : Nat → State → Option (List Nat × State)
  | 0, s => some ([], s)
  | n + 1, s =>
    match s.firstFrame with
    | none => none
    | some f => match takeFrames n { s with frames := tabSet false s.frames f true } with
      | some (fs, s1) => some (f :: fs, s1)
      | none => none

/-- Frames given back. -/
def State.freeFrames (s : State) (fs : List Nat) : State :=
  { s with frames := fs.foldl (fun t f => tabSet false t f false) s.frames }

end Sys2Proof.Machine
end

