-- ==== Sys2Proof/Machine/Barrier.lean ====
section
/-!
DEFINITION. Barriers and the gradient arm (08_network_version_system.md R259, R260, R270), and SRSEED (R269).
-/
namespace Sys2Proof.Machine

/-- A barrier of a region. -/
def Region.barrier (r : Region) (b : Nat) : Barrier := tabGet Barrier.idle r.barriers b

/-- A region with a barrier replaced. -/
def Region.setBarrier (r : Region) (b : Nat) (x : Barrier) : Region := { r with barriers := tabSet Barrier.idle r.barriers b x }

/-- A generation ends with a status: its pass is on its way to `n` waiters, and the barrier is empty. -/
def Barrier.close (x : Barrier) (status n : Nat) : Barrier :=
  { x with gen := x.gen + 1, count := 0, arrived := 0, passing := x.passing ++ [(x.gen, ⟨status, n⟩)] }

/-- An arrival with a COUNT. The last one passes the generation; one with another COUNT fails it (LOG 17 DEDUCED). -/
def Barrier.arrive (x : Barrier) (count : Nat) : Barrier :=
  let y := { x with count := if x.arrived = 0 then count else x.count, arrived := x.arrived + 1 }
  if y.count ≠ count then y.close 2 y.arrived
  else if y.arrived = count then y.close 0 y.arrived
  else y

/-- One waiter of a finished generation resumes. -/
def Barrier.leave (x : Barrier) (gen : Nat) (d : BarDone) : Barrier :=
  let o : BarDone := ⟨0, 0⟩
  { x with done := tabSet o x.done gen (if d.left ≤ 1 then o else { d with left := d.left - 1 }) }

/-- BAR: the first try arrives, and later ones wait for the generation that it arrived at. -/
def barEff (d : BitVec 6) (b count : Nat) (sync : Bool) (s : State) : M Eff := do
  if count = 0 then return .done (s.setCur (s.curStrand.wg d 0))
  else
    let r := s.curRegion
    let x := r.barrier b
    match s.curStrand.hold with
    | .arrived gen =>
      let st := tabGet ⟨0, 0⟩ x.done gen
      awaitStall (st.left != 0) s
      let s1 := s.setCurRegion (r.setBarrier b (x.leave gen st))
      let s2 := s1.setCur (s1.curStrand.wg d (BitVec.ofNat 64 st.status))
      return .done (if sync && st.status == 0 then s2.acquireAt s.cur.tile .waf else s2)
    | _ =>
      let s1 := if sync then s.releaseAt s.cur.tile .waf else s
      let y := x.arrive count
      let s2 := (s1.setCurRegion (s1.curRegion.setBarrier b y)).setCur { s1.curStrand with hold := .arrived x.gen }
      stallM (if y.gen = x.gen then s2 else s2.push (.barrierPass s.curTile.handle b))

/-- BAR (R260). -/
def execBar (d a : BitVec 6) (sync : Bool) (s : State) : Host.Outcome State Fault Refusal :=
  let v := s.curStrand.rg a
  issueM s [d, a] (barEff d (field v 0 6) (field v 16 16) sync s)

/-- BAR with an immediate (R260). -/
def execBarI (d bar : BitVec 6) (sync : Bool) (count : BitVec 16) (s : State) : Host.Outcome State Fault Refusal :=
  issueM s [d] (barEff d bar.toNat count.toNat sync s)

/-- A region's arm ends when a generation of its barrier completes (R270). -/
def State.disarm (s : State) (h : BitVec 32) (b : Nat) : State :=
  let r := s.region h
  if r.arm = some b then (s.setRegion h { r with arm := none }).mapTiles r.tiles fun t => { t with armed := none } else s

/-- BARRIER_PASS (R259): the oldest ended generation of a barrier reaches its waiters. -/
def execBarrierPass (h : BitVec 32) (b : Nat) (s : State) : Host.Outcome State Fault Refusal :=
  let r := s.region h
  let x := r.barrier b
  .next (match x.passing with
    | [] => s
    | (gen, d) :: rest =>
      (s.setRegion h (r.setBarrier b { x with passing := rest, done := tabSet ⟨0, 0⟩ x.done gen d })).disarm h b)

/-- GRADARM (R270): the region is armed, and the arm travels to its tiles. -/
def execGradarm (bar : BitVec 6) (s : State) : Host.Outcome State Fault Refusal :=
  let r := s.curRegion
  issue s [] (.done (r.tiles.foldl (fun s t => s.push (.gradarmArrive t)) (s.setCurRegion { r with arm := some bar.toNat })))

/-- GRADARM_ARRIVE (R270): the arm in force reaches a tile. -/
def execGradarmArrive (t : Nat) (s : State) : Host.Outcome State Fault Refusal :=
  let x := s.tile t
  .next (if x.bound.isSome then (s.setTile t { x with armed := (s.regionOf t).arm }).ask (.firingDispatch t) else s)

/-- Whether the engine entries that SRSEED waits for are done: Spindle entries for substream 6, matrix entries for 7. -/
def seedReady (t : Tile) (sub : Nat) : Bool :=
  if sub = 6 then t.spindle.entries.isEmpty && t.spindle.runs.isEmpty
  else if sub = 7 then t.matrix.queue.isEmpty
  else true

/-- SRSEED (R269). -/
def execSrseed (a : BitVec 6) (sub : BitVec 3) (s : State) : Host.Outcome State Fault Refusal :=
  issueM s [a] (do
    awaitStall (seedReady s.curTile sub.toNat) s
    let t := s.curTile
    return .done (s.setCurTile { t with draws := tabSet 0 t.draws sub.toNat ((s.curStrand.rg a).truncate 48) }))

end Sys2Proof.Machine
end

