-- ==== Sys2Proof/Machine/Version.lean ====
section
/-!
DEFINITION. The policy-version registry and its instructions (01_machine_state.md R48 to R50, 08_network_version_system.md R261 to
R266), and version admission (11_scheduling.md R375).
-/
namespace Sys2Proof.Machine

/-! ## The registry -/

/-- A slot set of a weight set. -/
def WeightSet.slot (x : WeightSet) (n : Nat) : SlotSet := tabGet SlotSet.idle x.slots n

/-- A weight set with a slot set replaced. -/
def WeightSet.setSlot (x : WeightSet) (n : Nat) (y : SlotSet) : WeightSet := { x with slots := tabSet SlotSet.idle x.slots n y }

/-- The slot set that holds a version; a version is present while one does (R264). -/
def WeightSet.holder (x : WeightSet) (v : Nat) : Option Nat := if v = 0 then none else (upFrom 0 4).find? fun n => (x.slot n).version == v

/-- A version is neither retired nor unpublished. -/
def WeightSet.present (x : WeightSet) (v : Nat) : Bool := (x.holder v).isSome

/-- The reference count of a version. -/
def WeightSet.count (x : WeightSet) (v : Nat) : Nat := tabGet 0 x.refs v

/-- A version retires when nothing refers to it and it is not published (R48): its slot set holds no version any more
(LOG 56 DEDUCED). -/
def WeightSet.settle (x : WeightSet) (v : Nat) : WeightSet :=
  if x.count v = 0 ∧ v ≠ x.published then
    match x.holder v with
    | some n => x.setSlot n { x.slot n with version := 0 }
    | none => x
  else x

/-- One more reference to a version; version 0 has none. -/
def WeightSet.addRef (x : WeightSet) (v : Nat) : WeightSet := if v = 0 then x else { x with refs := tabSet 0 x.refs v (x.count v + 1) }

/-- A reference given back. -/
def WeightSet.dropRef (x : WeightSet) (v : Nat) : WeightSet :=
  if v = 0 then x else WeightSet.settle { x with refs := tabSet 0 x.refs v (x.count v - 1) } v

/-- The state with a weight set changed. -/
def State.onWeights (s : State) (w : Nat) (f : WeightSet → WeightSet) : State := s.setWeights w (f (s.weights w))

/-- A region's standing in a weight set. -/
def Region.pvOf (r : Region) (w : Nat) : PvBind := tabGet PvBind.idle r.pv w

/-- A region with its standing in a weight set replaced. -/
def Region.setPv (r : Region) (w : Nat) (p : PvBind) : Region := { r with pv := tabSet PvBind.idle r.pv w p }

/-! ## Steps that follow -/

/-- The transfer step of a faceplate port, by its MODE (R404). -/
def portStep (h : BitVec 32) (n : Nat) (p : FPort) : Option Instr :=
  match field (tabGet 0 p.words 0) 60 4 with
  | 1 => some (.faceplateBlockSend h n)
  | 2 => some (.fillDrainPortTransfer h n)
  | 3 => some (.fillDrainPortTransfer h n)
  | 4 => some (.streamPortPush h n)
  | 5 => some (.collectPortPop h n)
  | _ => none

/-- The steps of a region's ports put on the agenda. -/
def State.wakePorts (s : State) (h : BitVec 32) : State :=
  (s.region h).ports.foldl (fun s e => match portStep h e.1 e.2 with
    | some i => s.ask i
    | none => s) s

/-- The re-evaluation of version admission of every region that watches a weight set (R375). -/
def State.watchVersions (s : State) (w : Nat) : State :=
  s.regions.foldl (fun s e => if e.2.info.wset = w ∧ 0 < e.2.info.maxLag then s.ask (.versionLag e.2.info.handle) else s) s

/-! ## Instructions (R264, R265) -/

/-- KTVAL of PV_STATE, STASH_STATE and COPY_OPERAND: the reason in [63:48], and 0 below it, where the spec gives no content (LOG 122 DESIGN
CHOICE). -/
def reasonTval (n : Nat) : Word := BitVec.ofNat 64 (n * 2 ^ 48)

/-- The word of PVGET. -/
def pvWord (x : WeightSet) (p : PvBind) : Word :=
  BitVec.ofNat 64 (x.published * 2 ^ 48 + p.bound * 2 ^ 32 + min (x.count p.bound) 0xFFFF * 2 ^ 16 + p.pending.getD 0)

/-- PVGET (R264). -/
def execPvget (d a : BitVec 6) (s : State) : Host.Outcome State Fault Refusal :=
  let w := field (s.curStrand.rg a) 0 6
  issueStrand s [d, a] (s.curStrand.wg d (pvWord (s.weights w) (s.curRegion.pvOf w)))

/-- PVGET with an immediate (R264). -/
def execPvgetI (d : BitVec 6) (imm : BitVec 32) (s : State) : Host.Outcome State Fault Refusal :=
  let w := field (zx32 imm) 0 6
  issueStrand s [d] (s.curStrand.wg d (pvWord (s.weights w) (s.curRegion.pvOf w)))

/-- PVPIN. -/
def pvpinEff (d : BitVec 6) (v : Word) (s : State) : M Eff := do
  let w := field v 0 6
  let x := s.weights w
  let named := field v 16 16
  let ver := if named = 0 then (s.curRegion.pvOf w).bound else named
  demand (x.present ver) s .versionRetired v
  let t := s.curTile
  match (upFrom 0 8).find? fun n => !(tabGet Pin.idle t.pins n).valid with
  | none => trapM s .pvState (reasonTval 1)
  | some n =>
    let s1 := s.setCurTile { t with pins := tabSet Pin.idle t.pins n ⟨true, w, BitVec.ofNat 16 ver⟩ }
    let s2 := s1.onWeights w (·.addRef ver)
    return .done (s2.setCur (s2.curStrand.wg d (BitVec.ofNat 64 n)))

/-- PVPIN (R264). -/
def execPvpin (d a : BitVec 6) (s : State) : Host.Outcome State Fault Refusal := issueM s [d, a] (pvpinEff d (s.curStrand.rg a) s)

/-- PVUNPIN (R264): an invalid entry is left as it is. -/
def execPvunpin (a : BitVec 6) (s : State) : Host.Outcome State Fault Refusal :=
  let n := field (s.curStrand.rg a) 0 3
  let t := s.curTile
  let p := tabGet Pin.idle t.pins n
  issue s [a] (.done (if p.valid then
      (s.setCurTile { t with pins := tabSet Pin.idle t.pins n Pin.idle }).onWeights p.wset (·.dropRef p.version.toNat)
    else s))

/-- The lowest slot set of a weight set that is placed and free (R261). -/
def WeightSet.freeSlot (x : WeightSet) : Option Nat := (upFrom 0 4).find? fun n => (x.slot n).placed && (x.slot n).version == 0

/-- PVPUB.RES: a fat pointer with FMT 0 and BLK 0 is the address alone (R71). -/
def pvpubResEff (d : BitVec 6) (v : Word) (s : State) : M Eff := do
  let w := field v 0 6
  let x := s.weights w
  demand (x.published != 0xFFFF) s .pvState (reasonTval 3)
  match x.reserved, x.freeSlot with
  | none, some n =>
    let s1 := s.setWeights w { x with reserved := some (s.curTile.handle, n) }
    return .done (s1.setCur (s1.curStrand.wg d ((x.slot n).va.zeroExtend 64)))
  | _, _ => waitM s

/-- PVPUB.RES (R264). -/
def execPvpubRes (d a : BitVec 6) (s : State) : Host.Outcome State Fault Refusal :=
  issueM s [d, a] (pvpubResEff d (s.curStrand.rg a) s)

/-- PVPUB.COM: the release, then one registry step. -/
def pvpubComEff (d : BitVec 6) (v : Word) (s : State) : M Eff := do
  let w := field v 0 6
  let x := s.weights w
  match x.reserved with
  | some (h, n) =>
    demand (h == s.curTile.handle) s .pvState (reasonTval 2)
    let s1 := s.releaseAt s.cur.tile .waf
    let old := x.published
    let y := { x.setSlot n { x.slot n with version := old + 1 } with published := old + 1, reserved := none }
    let s2 := (s1.setWeights w (y.settle old)).watchVersions w
    return .done (s2.setCur (s2.curStrand.wg d (BitVec.ofNat 64 (old + 1))))
  | none => trapM s .pvState (reasonTval 2)

/-- PVPUB.COM (R264). -/
def execPvpubCom (d a : BitVec 6) (s : State) : Host.Outcome State Fault Refusal :=
  issueM s [d, a] (pvpubComEff d (s.curStrand.rg a) s)

/-- A region's binding of a weight set moves to a version: its reference moves with it (R265). `held` says that the pending
reference becomes the binding reference. -/
def State.bindVersion (s : State) (h : BitVec 32) (w v : Nat) (held : Bool) : State :=
  let r := s.region h
  let p := r.pvOf w
  let s1 := s.onWeights w fun x => (if held then x else x.addRef v).dropRef p.bound
  (s1.setRegion h (r.setPv w { p with reads := true, bound := v, pending := none })).watchVersions w

/-- PVSWITCH. -/
def pvswitchEff (d : BitVec 6) (v : Word) (s : State) : M Eff := do
  let w := field v 0 6
  let x := s.weights w
  let named := field v 16 16
  let target := if named = 0 then x.published else named
  demand (x.present target) s .versionRetired v
  let h := s.curTile.handle
  let p := s.curRegion.pvOf w
  let word (pass : Nat) : Word := BitVec.ofNat 64 (p.bound * 2 ^ 48 + target * 2 ^ 32 + pass % 2 ^ 32)
  let put (s : State) (pass : Nat) : Eff := .done (s.setCur (s.curStrand.wg d (word pass)))
  if p.bound = 0 ∧ !p.started then return put ((s.bindVersion h w target false).wakePorts h) 0
  else if p.bound = target ∧ p.pending.isNone then return put s p.passes
  else
    let s1 := s.onWeights w fun x => match p.pending with
      | some q => (x.addRef target).dropRef q
      | none => x.addRef target
    return put (s1.setRegion h (s1.curRegion.setPv w { p with reads := true, pending := some target })) p.passes

/-- PVSWITCH (R265). -/
def execPvswitch (d a : BitVec 6) (s : State) : Host.Outcome State Fault Refusal :=
  issueM s [d, a] (pvswitchEff d (s.curStrand.rg a) s)

/-- PASS_BOUNDARY_SWITCH (R265): the pending switch of a region's weight set takes effect. -/
def execPassBoundarySwitch (h : BitVec 32) (w : Nat) (s : State) : Host.Outcome State Fault Refusal :=
  .next (match ((s.region h).pvOf w).pending with
    | some v => if s.live h then (s.bindVersion h w v true).wakePorts h else s
    | none => s)

/-- PVTAG (R263). -/
def execPvtag (d a : BitVec 6) (s : State) : Host.Outcome State Fault Refusal :=
  let x := s.curStrand
  let ver := if x.trackValid then x.trackVer else 0
  let v := BitVec.ofNat 64 (ver.toNat * 2 ^ 48 + (if x.trackMixed then 2 ^ 47 else 0) + low (x.rg a) 47)
  issueStrand s [d, a] { x.wg d v with trackValid := false, trackVer := 0, trackMixed := false }

/-! ## Version admission (R375) -/

/-- A region's lag (R375). -/
def State.lag (s : State) (r : Region) : Nat :=
  let b := (r.pvOf r.info.wset).bound
  if b = 0 then 0 else ((s.weights r.info.wset).published + 65536 - b) % 65536

/-- VERSION_LAG (R375): a region's version admission is evaluated again; an event reports that it closed. -/
def execVersionLag (h : BitVec 32) (s : State) : Host.Outcome State Fault Refusal :=
  let r := s.region h
  .next (if s.live h && decide (0 < r.info.maxLag) then
      let isOpen := decide (s.lag r ≤ r.info.maxLag)
      let s1 := s.setRegion h { r with versionOpen := isOpen }
      if isOpen then s1.ask (.seedDelivery h)
      else if r.versionOpen then
        s1.post 1 0x0106 [handleWord r, BitVec.ofNat 64 (r.info.wset * 2 ^ 48 + (s.weights r.info.wset).published * 2 ^ 32
          + (r.pvOf r.info.wset).bound * 2 ^ 16)]
      else s1
    else s)

end Sys2Proof.Machine
end

