-- ==== Sys2Proof/Machine/Stash.lean ====
section
/-!
DEFINITION. STASH and UNSTASH (01_machine_state.md R38, 08_network_version_system.md R267, R268) and stash pressure
(11_scheduling.md R373, R374).
-/
namespace Sys2Proof.Machine

/-- Fields of a stash header (R38): micro-batch, version, weight set, length in bytes. -/
def hdrBatch (h : Word) : Nat := field h 48 16
/-- Policy version of a header. -/
def hdrVersion (h : Word) : Nat := field h 32 16
/-- Weight set of a header. -/
def hdrSet (h : Word) : Nat := field h 26 6
/-- Length of a header. -/
def hdrLength (h : Word) : Nat := field h 0 26

/-- Entries live in stash slots: the fill level (LOG 14 DEDUCED). -/
def Stash.fill (x : Stash) : Nat := (x.entries.filter fun e => e.slot.isSome).length

/-- The lowest free stash slot. -/
def Stash.freeSlot (x : Stash) : Option Nat := (upFrom 0 x.capacity).find? fun n => !x.entries.any fun e => e.slot == some n

/-- Scratchpad offset of a stash slot. -/
def Stash.slotAt (x : Stash) (n : Nat) : Nat := x.handle.base.toNat + n * x.handle.slotBytes

/-- The regions of a region's gang, or the region itself when it has none. -/
def State.gangOf (s : State) (h : BitVec 32) : List (BitVec 32) :=
  let g := (s.region h).info.gangTag
  if g = 0 then [h]
  else (s.regions.filter fun e => e.2.info.gangTag == g && e.2.info.ctx == (s.region h).info.ctx).map fun e => e.2.info.handle

/-- The first byte of a scratchpad range that an access may not touch, and why. -/
def Tile.spadFault (t : Tile) (off n : Nat) (store : Bool) : Option (Nat × Cause) :=
  (upFrom off n).findSome? fun o => (t.spadCause o store).map fun c => (o, c)

/-- Every byte of a scratchpad range may be touched. -/
def spadRange (s : State) (off n : Nat) (store : Bool) : M Unit :=
  match s.curTile.spadFault off n store with
  | some (o, c) => trapM s c (BitVec.ofNat 64 o)
  | none => .ok ()

/-- Bytes of a scratchpad range that may cross from slot to slot. -/
def Tile.spadBytes (t : Tile) (off n : Nat) : List Byte := (upFrom off n).flatMap fun o => t.spadRead o 1

/-- Victim frames of 16 KiB that an entry of a length takes. -/
def entryFrames (length : Nat) : Nat := (length + 8 + 16383) / 16384

/-- A waiting STASH is reported once: the event is posted for its gang while admission is open, and admission closes (R373). -/
def State.stashPressure (s : State) : State :=
  let t := s.curTile
  let r := s.curRegion
  if s.curStrand.hold = .stashing then s
  else
    let s1 := if r.stashOpen then
        s.post 1 0x0104 [handleWord r, BitVec.ofNat 64 (r.info.gangTag.toNat * 2 ^ 42 + t.row * 256 + t.col)]
      else s
    let s2 := (s1.gangOf t.handle).foldl (fun s h => s.setRegion h { s.region h with stashOpen := false }) s1
    s2.setCur { s2.curStrand with hold := .stashing }

/-- STASH; one that waits when its strand is saved or halted issues anew afterwards (LOG 57 DEDUCED). -/
def stashEff (off hdr : Word) (s : State) : M Eff := do
  let t := s.curTile
  let x := t.stash
  let n := hdrLength hdr
  demand (off.toNat % 8 == 0) s .misaligned off
  demand (decide (n + 8 ≤ x.handle.slotBytes)) s .stashState (reasonTval 1)
  demand (x.capacity != 0) s .stashState (reasonTval 2)
  let w := hdrSet hdr
  demand (hdrVersion hdr == 0 || (s.feature 5 && (s.weights w).present (hdrVersion hdr))) s .versionRetired hdr
  spadRange s off.toNat n false
  let data := t.spadBytes off.toNat n
  match x.freeSlot with
  | some k =>
    let t1 := t.spadWrite (x.slotAt k) (natLe 8 hdr.toNat ++ data)
    let s1 := s.setCurTile { t1 with stash := { x with entries := x.entries ++ [⟨hdr, some k, [], []⟩] } }
    return .done (s1.onWeights w (·.addRef (hdrVersion hdr)))
  | none =>
    match takeFrames (entryFrames n) s with
    | some (fs, s1) =>
      let s2 := s1.setCurTile { t with stash := { x with entries := x.entries ++ [⟨hdr, none, writeBytes [] 0 data, fs⟩] } }
      return .done (s2.onWeights w (·.addRef (hdrVersion hdr)))
    | none => stallM s.stashPressure

/-- STASH (R267). -/
def execStash (a b : BitVec 6) (s : State) : Host.Outcome State Fault Refusal :=
  issueM s [a, b] (stashEff (s.curStrand.rg a) (s.curStrand.rg b) s)

/-- The data of an entry: in its stash slot, or in its victim frames. -/
def Tile.stashData (t : Tile) (e : StashEntry) : List Byte :=
  match e.slot with
  | some k => readBytes t.spad (t.stash.slotAt k + 8) (hdrLength e.header)
  | none => readBytes e.data 0 (hdrLength e.header)

/-- A list without its element of a number. -/
def dropNth {α : Type} : List α → Nat → List α
  | [], _ => []
  | _ :: r, 0 => r
  | x :: r, n + 1 => x :: dropNth r n

/-- UNSTASH: the alignment, the entry, then the range of its length (LOG 57 DEDUCED). An entry in the victim tier is recalled
in the same step (LOG 115 DEDUCED). -/
def unstashEff (d : BitVec 6) (off key : Word) (s : State) : M Eff := do
  let t := s.curTile
  let x := t.stash
  demand (off.toNat % 8 == 0) s .misaligned off
  match x.entries.findIdx? fun e => hdrBatch e.header == field key 0 16 && hdrSet e.header == field key 16 6 with
  | none => trapM s .stashState (reasonTval 3)
  | some i =>
    let e := nth ⟨0, none, [], []⟩ x.entries i
    let n := hdrLength e.header
    spadRange s off.toNat n true
    let t1 := t.spadWrite off.toNat (t.stashData e)
    let s1 := s.setCurTile { t1 with stash := { x with entries := dropNth x.entries i } }
    let s2 := (s1.freeFrames e.frames).onWeights (hdrSet e.header) (·.dropRef (hdrVersion e.header))
    let s3 := s2.setCur (s2.curStrand.wg d e.header)
    return .done (if s3.curRegion.stashOpen then s3 else s3.ask (.stashRelief t.handle))

/-- UNSTASH (R268). -/
def execUnstash (d a b : BitVec 6) (s : State) : Host.Outcome State Fault Refusal :=
  issueM s [d, a, b] (unstashEff d (s.curStrand.rg a) (s.curStrand.rg b) s)

/-- The tile asks for no more than three quarters of its stash, and holds no entry in the victim tier (R374). -/
def Stash.relieved (x : Stash) : Bool := decide (4 * x.fill ≤ 3 * x.capacity) && x.entries.all fun e => e.slot.isSome

/-- The tiles of a region as they stand, or as they were saved. -/
def State.tilesOf (s : State) (r : Region) : List Tile := r.ownTiles.map s.tile ++ r.saved.map (·.2)

/-- STASH_RELIEF (R374): stash admission of a gang reopens when every tile of it is relieved, a frozen region's as it was saved. -/
def execStashRelief (h : BitVec 32) (s : State) : Host.Outcome State Fault Refusal :=
  let r := s.region h
  let gang := s.gangOf h
  .next (if s.live h && !r.stashOpen && gang.all fun g => (s.tilesOf (s.region g)).all fun t => t.stash.relieved then
      let s1 := gang.foldl (fun s g => (s.setRegion g { s.region g with stashOpen := true }).ask (.seedDelivery g)) s
      s1.post 1 0x0105 [handleWord r, BitVec.ofNat 64 (r.info.gangTag.toNat * 2 ^ 42)]
    else s)

end Sys2Proof.Machine
end

