-- ==== Sys2Proof/Machine/Copy.lean ====
section
/-!
DEFINITION. The copy engine (08_network_version_system.md R271 to R275): COPY, CTEST, CWAIT, and the elements of an operation.
-/
namespace Sys2Proof.Machine

/-! ## COPY at issue (R271, R272) -/

/-- Format code of a fat pointer (R71). -/
def ptrFmt (p : Word) : Nat := field p 59 5

/-- Bytes that the first `n` elements of a pointer take, from its address. -/
def extentBytes (p : Word) (n : Nat) : Nat :=
  if n = 0 then 0
  else
    let x := elemAt p ((n - 1 : Nat) : Int)
    (x.addr - p.truncate 56).toNat + fmtBytes (ptrFmt p)

/-- A scratchpad extent lies in scratchpad banks. -/
def Tile.extentOk (t : Tile) (off n : Nat) : Bool :=
  n == 0 || (decide (off + n ≤ 0xC0000)
    && (upFrom (off / 0x10000) ((off + n - 1) / 0x10000 + 1 - off / 0x10000)).all fun b => t.banks.getLsbD b)

/-- The first element of a side is aligned (R153). -/
def ptrAligned (p : Word) : Bool := low p 56 % (if ptrFmt p = 7 ∨ ptrFmt p = 9 then 1 else fmtBytes (ptrFmt p)) == 0

/-- A queue register of the tile binds a copy-arrival stream. -/
def Tile.bindsStream (t : Tile) (st : Nat) : Bool := t.queues.any fun e => e.2 == .arrive st

/-- The checks of one side's extent. -/
def sideExtent (s : State) (spad : Bool) (p : Word) (n : Nat) : M Unit :=
  demand (!spad || s.curTile.extentOk (low p 56) (extentBytes p n)) s .spadRange ((p.truncate 56).zeroExtend 64)

/-- COPY (LOG 58 DEDUCED). -/
def copyEff (d : BitVec 6) (dst src count : Word) (dsp ssp : Bool) (rnd : Rnd) (stream : Option Nat) (s : State) : M Eff := do
  demand (decide (ptrFmt dst < 10)) s .formatReserved dst
  demand (decide (ptrFmt src < 10)) s .formatReserved src
  demand ((ptrFmt dst == 0) == (ptrFmt src == 0)) s .copyOperand (reasonTval 1)
  let n := low count 32
  sideExtent s dsp dst n
  sideExtent s ssp src n
  demand (ptrAligned dst) s .misaligned ((dst.truncate 56).zeroExtend 64)
  demand (ptrAligned src) s .misaligned ((src.truncate 56).zeroExtend 64)
  let t := s.curTile
  match stream with
  | some st => demand (t.bindsStream st) s .copyOperand (reasonTval 3)
  | none => .ok ()
  let x := t.copy
  await (decide (x.ops.length < 16)) s
  let op : CopyOp := ⟨dst, src, dsp, ssp, n, (arithMode rnd s.curStrand).code, stream, 0⟩
  let s1 := s.setCurTile { t with copy := { x with ops := x.ops ++ [op], issued := x.issued + 1 } }
  return .done ((s1.setCur (s1.curStrand.wg d (x.issued.zeroExtend 64))).ask (.copyOperation s.cur.tile))

/-- COPY (R271). -/
def execCopy (d a b c : BitVec 6) (dsp ssp : Bool) (rnd : Rnd) (arrive : Bool) (st : BitVec 3) (s : State) :
    Host.Outcome State Fault Refusal :=
  let x := s.curStrand
  issueM s [d, a, b, c]
    (copyEff d (x.rg a) (x.rg b) (x.rg c) dsp ssp rnd (if arrive then some st.toNat else none) s)

/-! ## Elements (R273) -/

/-- The state with a tile's copy engine replaced. -/
def State.setCopy (s : State) (t : Nat) (x : CopyEngine) : State := s.setTile t { s.tile t with copy := x }

/-- A source element converted to the destination format. `se` and `de` are the scale bytes of the two sides' blocks. -/
def copyConvert (sf df : Nat) (mode : RMode) (se de code : Nat) : FRes :=
  if sf = 0 then ⟨code, 0⟩
  else if sf ≠ 9 ∧ df ≠ 9 then convert (fmtOf sf) (fmtOf df) true mode 0 code
  else
    let v : FpNum := if sf = 9 then (if se = 255 then .nan true else (log6Num code).scale ((se : Int) - 127)) else cvtNum (fmtOf sf) code
    if df = 9 then (if de = 255 then ⟨0x20, fNV⟩ else convertNum .log6 mode 0 (v.scale (127 - (de : Int))))
    else convertNum (fmtOf df) mode 0 v

/-- How the copy engine, or a port, reaches a place. -/
inductive Reach (α : Type) where
  | ok (s : State) (v : α)
  | hold (s : State) (m : Option Mark)
  | frozen (s : State)
deriving DecidableEq, Repr

/-- The home addresses of some bytes for the copy engine of a tile. -/
def copyPas (t e : Nat) (write : Bool) : State → List (BitVec 56) → Reach (List Nat)
  | s, [] => .ok s []
  | s, va :: vs =>
    let x := s.tile t
    match s.fabricPa t true x.handle 4 va write x.row x.col (e % 4096) with
    | (s1, .frozen) => .frozen s1
    | (s1, .hold m) => .hold s1 m
    | (s1, .ok pa) =>
      match copyPas t e write s1 vs with
      | .ok s2 pas => .ok s2 (pa :: pas)
      | r => r

/-- The places of some bytes of a side: scratchpad offsets, or home addresses. -/
def copyPlaces (s : State) (t e : Nat) (spad write : Bool) (vas : List (BitVec 56)) : Reach (List Nat) :=
  if spad then .ok s (vas.map BitVec.toNat) else copyPas t e write s vas

/-- Bytes read at places of a side; none for an uncorrectable error. -/
def copyRead (s : State) (t : Nat) (spad : Bool) (ps : List Nat) : Option (List Byte) :=
  if spad then some (ps.map fun o => readByte (s.tile t).spad o) else s.homeReads ps

/-- The note that the operation in progress, whose ticket is the number of completed operations (R274), has written a line. -/
def CopyEngine.note (x : CopyEngine) (line : Nat) : CopyEngine :=
  if x.wrote.contains (x.completed, line) then x else { x with wrote := x.wrote ++ [(x.completed, line)] }

/-- A byte of a copy written at its home, never in an L1 (R288); its join will make the line visible through the tile's L1 (R275). -/
def State.copyByte (s : State) (t p : Nat) (b : Byte) : State :=
  let s1 := s.homeWrite p b
  s1.setCopy t ((s1.tile t).copy.note (p / 32))

/-- Bytes written at places of a side. -/
def copyWrite (t : Nat) (spad : Bool) : State → List Nat → List Byte → State
  | s, p :: ps, b :: bs =>
    copyWrite t spad (if spad then s.setTile t { s.tile t with spad := writeByte (s.tile t).spad p b } else s.copyByte t p b) ps bs
  | s, _, _ => s

/-- Packed bytes without the fields after the last element of an array (R56, R66): a device store writes them 0. -/
def padLast (f fieldNo raw : Nat) : Nat :=
  if f = 8 then raw % 2 ^ (4 * (fieldNo + 1)) else if f = 7 ∨ f = 9 then raw % 2 ^ (6 * (fieldNo + 1)) else raw

/-- The places of an element: its scale byte when it has one, and its bytes. -/
def elemPlaces (s : State) (t e : Nat) (spad write : Bool) (p : Word) : Reach (List Nat × List Nat) :=
  let x := elemAt p (e : Int)
  match copyPlaces s t e spad false x.scaleAt.toList with
  | .ok s1 sc =>
    match copyPlaces s1 t e spad write (vaRange x.addr (fmtBytes (ptrFmt p))) with
    | .ok s2 ps => .ok s2 (sc, ps)
    | .hold s2 m => .hold s2 m
    | .frozen s2 => .frozen s2
  | .hold s1 m => .hold s1 m
  | .frozen s1 => .frozen s1

/-- Element `op.next` of the head operation moved: the state after it, or how it is held (LOG 32 DEDUCED). -/
def copyElement (s : State) (t : Nat) (op : CopyOp) : Reach Unit :=
  let e := op.next
  let sf := ptrFmt op.src
  let df := ptrFmt op.dst
  match elemPlaces s t e op.ssp false op.src with
  | .hold s1 m => .hold s1 m
  | .frozen s1 => .frozen s1
  | .ok s1 (ssc, sp) =>
    match elemPlaces s1 t e op.dsp true op.dst with
    | .hold s2 m => .hold s2 m
    | .frozen s2 => .frozen s2
    | .ok s2 (dsc, dp) =>
      let packed := df = 7 ∨ df = 8 ∨ df = 9
      let s2 := s2.burst ((if op.ssp then [] else ssc ++ sp) ++ if op.dsp then [] else dsc ++ if packed then dp else [])
      match copyRead s2 t op.ssp ssc, copyRead s2 t op.ssp sp, copyRead s2 t op.dsp dsc,
          (if packed then copyRead s2 t op.dsp dp else some []) with
      | some se, some sv, some de, some old =>
        let code := elemCode sf (elemAt op.src (e : Int)).fieldNo (leNat sv)
        let r := copyConvert sf df (RMode.ofCode op.mode) (leNat se) (leNat de) code
        let k := (elemAt op.dst (e : Int)).fieldNo
        let put := elemPut df k (leNat old) r.bits
        let raw := if e + 1 = op.count then padLast df k put else put
        let s3 := copyWrite t op.dsp s2 dp (natLe dp.length raw)
        let x := (s3.tile t).raise r.fl fSRCSCAL
        let y := match op.stream with
          | some st =>
            let v := if df = 0 then BitVec.ofNat 64 r.bits else cvtPlace (fmtOf df) r.bits
            x.setPort (arrivePort st) (x.port (arrivePort st) ++ [⟨v, false, false, Token.idle.origin⟩])
          | none => x
        .ok (s3.setTile t y) ()
      | _, _, _, _ => .frozen (s2.freezeRegion (s2.tile t).handle (some .stateUncorrectable) none [])

/-- The stream of an operation, if it has one, has a free place. -/
def Tile.streamRoom (t : Tile) (op : CopyOp) : Bool :=
  match op.stream with
  | some st => decide (0 < t.portRoom (arrivePort st))
  | none => true

/-- The copy engine goes on: operations in order, elements in order, until a fault holds it or a stream is full; `fuel` bounds them. -/
def copyRun (t : Nat) : Nat → State → State
  | 0, s => s
  | fuel + 1, s =>
    let x := s.tile t
    match x.copy.ops with
    | [] => s
    | op :: rest =>
      if x.copy.fault.isSome then s
      else if op.count ≤ op.next then
        copyRun t fuel (s.setCopy t { x.copy with ops := rest, completed := x.copy.completed + 1 })
      else if !x.streamRoom op then s
      else match copyElement s t op with
        | .frozen s1 => s1
        | .hold s1 m => s1.setCopy t { (s1.tile t).copy with fault := m }
        | .ok s1 _ => copyRun t fuel (s1.setCopy t { (s1.tile t).copy with ops := { op with next := op.next + 1 } :: rest })

/-- COPY_OPERATION (R271, R273): the copy engine of a tile moves elements; the step follows again while an operation is held and no
fault holds the engine. -/
def execCopyOperation (t : Nat) (s : State) : Host.Outcome State Fault Refusal :=
  .next (if s.active t then
      let s1 := copyRun t 64 s
      let x := (s1.tile t).copy
      if x.ops.isEmpty || x.fault.isSome then s1 else s1.ask (.copyOperation t)
    else s)

/-! ## Completion objects (R274, R275) -/

/-- a has not passed b, modulo 2^32 over a half range: a - b lies in 0 to 2^31 - 1. -/
def atOrPast (a b : BitVec 32) : Bool := decide ((a - b).toNat < 2 ^ 31)

/-- What an object says: 0 not done, 1 done, 2 invalid. -/
def objectState (t : Tile) (o : Word) : Nat :=
  let n : BitVec 32 := o.truncate 32
  match field o 62 2 with
  | 0 =>
    if field o 32 30 ≠ 0 then 2
    else if atOrPast n t.copy.issued then 2
    else if atOrPast t.copy.completed (n + 1) then 1 else 0
  | 1 =>
    if field o 34 28 ≠ 0 then 2
    else if atOrPast (t.chunk (field o 32 2)).fires n then 1 else 0
  | _ => 2

/-- The clean bytes of a line of a tile's L1 as their home has them; dirty bytes stay, since nothing orders their stores against the
copy (LOG 104 DEDUCED). -/
def State.refreshLine (s : State) (t line : Nat) : State :=
  let x := s.tile t
  match l1Find x.l1 line with
  | some l =>
    let y := (upFrom 0 32).foldl (fun l i =>
      match s.homeRead (32 * line + i) with
      | some b => if l.dirty.getLsbD i then l else l.put i b false
      | none => l) l
    s.setTile t { x with l1 := l1Put x.l1 line y }
  | none => s

/-- The join of an object that is done: what its operation and every earlier one of the tile wrote is visible to later accesses, through
the tile's L1 too (R275, R300). A chunk firing writes nothing. -/
def State.join (s : State) (t : Nat) (o : Word) : State :=
  if field o 62 2 = 0 then
    let past := fun e : BitVec 32 × Nat => atOrPast (o.truncate 32) e.1
    let s1 := ((s.tile t).copy.wrote.filter past).foldl (fun s e => s.refreshLine t e.2) s
    let x := (s1.tile t).copy
    s1.setCopy t { x with wrote := x.wrote.filter fun e => !past e }
  else s

/-- The state after CTEST or CWAIT has found an object done: the join, and the register written. -/
def State.joined (s : State) (d : BitVec 6) (o v : Word) : State :=
  let s1 := s.join s.cur.tile o
  s1.setCur (s1.curStrand.wg d v)

/-- CTEST (R275). -/
def execCtest (d a : BitVec 6) (s : State) : Host.Outcome State Fault Refusal :=
  let o := s.curStrand.rg a
  issue s [d, a] (match objectState s.curTile o with
    | 1 => .done (s.joined d o 1)
    | n => .done (s.setCur (s.curStrand.wg d (BitVec.ofNat 64 n))))

/-- CWAIT. -/
def cwaitEff (d : BitVec 6) (o : Word) (s : State) : M Eff :=
  match objectState s.curTile o with
  | 0 => waitM s
  | 1 => .ok (.done (s.joined d o 0))
  | _ => .ok (.done (s.setCur (s.curStrand.wg d 2)))

/-- CWAIT (R275). -/
def execCwait (d a : BitVec 6) (s : State) : Host.Outcome State Fault Refusal :=
  issueM s [d, a] (cwaitEff d (s.curStrand.rg a) s)

end Sys2Proof.Machine
end

