-- ==== Sys2Proof/Machine/System.lean ====
section
/-!
DEFINITION. The system and debug instructions (08_network_version_system.md R276 to R285), the control registers
(01_machine_state.md R29, R39 to R47, R51), and the removal of translations (09_memory_model.md R304,
10_translation_and_traps.md R333, R334).
-/
namespace Sys2Proof.Machine

/-- Check 4 of R97 for a privileged instruction. -/
def privileged (s : State) : M Unit := demand s.curStrand.priv s .privilege s.word

/-! ## TRAP, ERET, BRK, FEATRD (R277, R278, R283, R284) -/

/-- TRAP (R277). -/
def execTrap (a : BitVec 6) (s : State) : Host.Outcome State Fault Refusal :=
  issue s [a] (.after s .softwareTrap (s.curStrand.rg a))

/-- TRAP with an immediate (R277). -/
def execTrapI (imm : BitVec 32) (s : State) : Host.Outcome State Fault Refusal := issue s [] (.after s .softwareTrap (zx32 imm))

/-- The transfer that an ERET restarts: from register K on, at the address of the word that faulted (R166). -/
def Transfer.restart (x : Transfer) (kspill : Word) : Transfer :=
  { x with first := kspill.truncate 6, count := x.count - x.next, ea := x.addr, next := 0 }

/-- An interrupted transfer restarted, with KSPILL.VALID cleared (R166). -/
def State.restartSpill (s : State) : State :=
  let x := s.curStrand
  if x.kspill.getLsbD 6 then
    let y := { x with kspill := setBit x.kspill 6 false }
    match x.interrupted with
    | some t =>
      (s.setCur { y with spillq := t.restart x.kspill :: x.spillq, interrupted := none }).ask (.spillTransfer s.cur.tile s.cur.strand)
    | none => s.setCur y
  else s

/-- ERET (R278). -/
def execEret (s : State) : Host.Outcome State Fault Refusal :=
  issueM s [] (do
    privileged s
    let s1 := s.restartSpill
    return .resume (s1.setCur s1.curStrand.returnFromTrap))

/-- Debug is enabled for a region's context (R341). -/
def State.debugOn (s : State) (r : Region) : Bool :=
  match s.context r.info.ctx with
  | some c => c.debug
  | none => false

/-- BRK (R284): with debug enabled it retires and the strand halts; otherwise it takes BREAKPOINT after it
(LOG 60 DEDUCED). -/
def execBrk (code : BitVec 16) (s : State) : Host.Outcome State Fault Refusal :=
  issue s [] (if s.debugOn s.curRegion then
      .done { s.setCur (s.curStrand.setStatus 15 true) with debugBreak := some (s.cur, code) }
    else .after s .breakpoint (code.zeroExtend 64))

/-- The word of FEATRD. -/
def State.featWord (s : State) (n : Nat) : Word := if s.feature n then 1 else 0

/-- FEATRD (R283). -/
def execFeatrd (d a : BitVec 6) (s : State) : Host.Outcome State Fault Refusal :=
  issueStrand s [d, a] (s.curStrand.wg d (s.featWord (low (s.curStrand.rg a) 8)))

/-- FEATRD with an immediate (R283). -/
def execFeatrdI (d : BitVec 6) (imm : BitVec 32) (s : State) : Host.Outcome State Fault Refusal :=
  issueStrand s [d] (s.curStrand.wg d (s.featWord (low (zx32 imm) 8)))

/-! ## DHALT and DRESUME (R285) -/

/-- A strand of the issuing tile changed, with privilege. -/
def strandEff (v : Word) (f : Strand → Strand) (s : State) : M Eff := do
  privileged s
  let k : Fin 4 := Fin.ofNat 4 (field v 0 2)
  let t := s.curTile
  return .done (s.setCurTile (t.setStrand k (f (t.strand k))))

/-- A strand halted: an instruction that waits without having performed anything reissues on resume (R342). -/
def Strand.halt (x : Strand) : Strand := x.settle.setStatus 15 true

/-- A strand resumed. -/
def Strand.resume (x : Strand) : Strand := x.setStatus 15 false

/-- DHALT (R285): the issuing strand halts after the instruction has retired. -/
def execDhalt (a : BitVec 6) (s : State) : Host.Outcome State Fault Refusal := issueM s [a] (strandEff (s.curStrand.rg a) Strand.halt s)

/-- DRESUME (R285). -/
def execDresume (a : BitVec 6) (s : State) : Host.Outcome State Fault Refusal := issueM s [a] (strandEff (s.curStrand.rg a) Strand.resume s)

/-! ## Control registers (Table 1.11) -/

/-- KCTX of a region (R44). -/
def kctx (r : Region) : Word :=
  BitVec.ofNat 64 (r.gen.toNat * 2 ^ 48 + r.info.prio * 2 ^ 38 + r.info.gangTag.toNat * 2 ^ 16 + r.info.ctx.toNat)

/-- KFEATn (R51). -/
def State.kfeat (s : State) (n : Nat) : Word :=
  (s.offered.extractLsb' (32 * n) 32).zeroExtend 64 <<< 32 ||| (s.accepted.extractLsb' (32 * n) 32).zeroExtend 64

/-- KSINKLOG of a region (R40). -/
def ksinklog (r : Region) : Word := BitVec.ofNat 64 (r.sinkLost.toNat * 2 ^ 32 + r.sinkCount.toNat)

/-- The value of a control register for a strand of a tile; none for an index that Table 1.11 does not list. -/
def State.kreg (s : State) (t : Nat) (k : Fin 4) (n : Nat) : Option Word :=
  let x := s.strandOf t k
  let r := s.regionOf t
  match n with
  | 0x000 => some x.kstatus
  | 0x001 => some x.kcause
  | 0x002 => some x.ktval
  | 0x003 => some x.kepc
  | 0x004 => some (s.tile t).ktvec
  | 0x008 => some (tabGet 0 x.kscratch 0)
  | 0x009 => some (tabGet 0 x.kscratch 1)
  | 0x00A => some (tabGet 0 x.kscratch 2)
  | 0x00B => some (tabGet 0 x.kscratch 3)
  | 0x010 => some (s.tile t).kflags
  | 0x011 => some r.info.seed
  | 0x012 => some x.kspill
  | 0x018 => some (ksinklog r)
  | 0x020 => some (s.kfeat 0)
  | 0x021 => some (s.kfeat 1)
  | 0x022 => some (s.kfeat 2)
  | 0x023 => some (s.kfeat 3)
  | 0x024 => some (s.kfeat 4)
  | 0x025 => some (s.kfeat 5)
  | 0x026 => some (s.kfeat 6)
  | 0x027 => some (s.kfeat 7)
  | 0x030 => some (kctx r)
  | 0x031 => some s.ktopo
  | 0x032 => some (s.kgrid t)
  | 0x040 => some s.lateAns
  | _ => none

/-- A register that Table 1.11 lists as priv. -/
def kregPriv (n : Nat) : Bool := [0x001, 0x002, 0x003, 0x004, 0x008, 0x009, 0x00A, 0x00B, 0x012].contains n

/-- KSTATUS with its writable fields taken from a value; a reserved RM is not taken (R29, R239). -/
def newStatus (sr : Bool) (old v : Word) : Word :=
  let rm := field v 4 3
  let m1 := if rm < 4 ∨ (rm = 4 ∧ sr) then 0x40FA#64 else 0x408A#64
  (old &&& ~~~m1) ||| (v &&& m1)

/-- The read-only fields of KSTATUS: HALTED, FIRING, STRAND, PRIV (R43). -/
def statusFixed : Word := 0xB801

/-- SSTEP and SRT. -/
def statusPriv : Word := 0x4080

/-- A control register written; reserved bits are ignored (R30, R39, R40). None for a read-only register. -/
def State.setKreg (s : State) (t : Nat) (k : Fin 4) (n : Nat) (v : Word) : Option State :=
  let y := s.tile t
  let x := y.strand k
  let put (z : Strand) : Option State := some (s.setTile t (y.setStrand k z))
  match n with
  | 0x000 => put { x with kstatus := newStatus (s.feature 6) x.kstatus v }
  | 0x001 => put { x with kcause := v &&& 0x7F }
  | 0x002 => put { x with ktval := v }
  | 0x003 => put { x with kepc := v &&& 0x1FFF }
  | 0x004 => some (s.setTile t { y with ktvec := v &&& 0x1FFF })
  | 0x008 => put { x with kscratch := tabSet 0 x.kscratch 0 v }
  | 0x009 => put { x with kscratch := tabSet 0 x.kscratch 1 v }
  | 0x00A => put { x with kscratch := tabSet 0 x.kscratch 2 v }
  | 0x00B => put { x with kscratch := tabSet 0 x.kscratch 3 v }
  | 0x010 => some (s.setTile t { y with kflags := v &&& 0x9F7F })
  | 0x012 => put { x with kspill := v &&& 0xFF }
  | 0x018 => some (s.setRegion y.handle { s.regionOf t with sinkCount := 0, sinkLost := 0 })
  | _ => none

/-- KTVAL of KREG_ACCESS. -/
def kregTval (creg : BitVec 10) : Word := creg.zeroExtend 64

/-- Items 1 and 2 of R43, with the register's value. -/
def kregCheck (creg : BitVec 10) (s : State) : M Word :=
  match s.kreg s.cur.tile s.cur.strand creg.toNat with
  | none => trapM s .kregAccess (kregTval creg)
  | some v => do
    demand (s.curStrand.priv || !kregPriv creg.toNat) s .privilege s.word
    return v

/-- KRD (R279). -/
def execKrd (d : BitVec 6) (creg : BitVec 10) (s : State) : Host.Outcome State Fault Refusal :=
  issueM s [d] (do
    let v ← kregCheck creg s
    return .done (s.setCur (s.curStrand.wg d v)))

/-- KWR: items 3 and 4 of R43, and the write. -/
def kwrEff (v : Word) (creg : BitVec 10) (s : State) : M Eff := do
  let old ← kregCheck creg s
  let isStatus := creg == 0
  demand (!(isStatus && (v ^^^ old) &&& statusFixed != 0)) s .kregAccess (kregTval creg)
  demand (!(isStatus && (v ^^^ old) &&& statusPriv != 0 && !s.curStrand.priv)) s .privilege s.word
  match s.setKreg s.cur.tile s.cur.strand creg.toNat v with
  | some s1 => return .done s1
  | none => trapM s .kregAccess (kregTval creg)

/-- KWR (R279). -/
def execKwr (a : BitVec 6) (creg : BitVec 10) (s : State) : Host.Outcome State Fault Refusal :=
  issueM s [a] (kwrEff (s.curStrand.rg a) creg s)

/-! ## Removing translations (R280, R281, R304) -/

/-- A TLB entry's page meets a range of `len` bytes; a range of no bytes meets none (R280, R281). -/
def TlbEntry.meets (e : TlbEntry) (start len : Nat) : Bool :=
  decide (0 < len ∧ e.vpage * 2 ^ e.z < start + len ∧ start < (e.vpage + 1) * 2 ^ e.z)

/-- A TLB without the entries of a context that a range meets. -/
def tlbRemove (ctx : BitVec 16) (r : ShootRange) (l : List TlbEntry) : List TlbEntry :=
  l.filter fun e => !(e.ctx == ctx && (r.whole || e.meets r.start.toNat r.len))

/-- A tile's TLBs without a range. -/
def Tile.tlbRemove (t : Tile) (r : ShootRange) : Tile :=
  { t with dtlb := Machine.tlbRemove r.ctx r t.dtlb, itlb := Machine.tlbRemove r.ctx r t.itlb }

/-- The L2-TLB of a cluster without a range. -/
def State.clusterRemove (s : State) (c : Nat) (r : ShootRange) : State :=
  s.setCluster c { s.cluster c with l2tlb := Machine.tlbRemove r.ctx r (s.cluster c).l2tlb }

/-- TLBINV and TLBINVR: a range removed at the issuing tile and its cluster. -/
def tlbinvEff (start : BitVec 56) (len : Nat) (s : State) : M Eff := do
  privileged s
  let r : ShootRange := ⟨s.curRegion.info.ctx, false, start, len⟩
  return .done ((s.setCurTile (s.curTile.tlbRemove r)).clusterRemove (clusterOf s.cur.tile) r)

/-- TLBINV (R280): the page containing the address, at each leaf size. -/
def execTlbinv (a : BitVec 6) (s : State) : Host.Outcome State Fault Refusal :=
  issueM s [a] (tlbinvEff ((s.curStrand.rg a).truncate 56) 1 s)

/-- TLBINVR (R280): a length of 0 removes nothing. -/
def execTlbinvr (a b : BitVec 6) (s : State) : Host.Outcome State Fault Refusal :=
  issueM s [a, b] (if s.curStrand.priv && s.curStrand.rg b == 0 then .ok (.done s)
    else tlbinvEff ((s.curStrand.rg a).truncate 56) (s.curStrand.rg b).toNat s)

/-- A range removed from every TLB of the module. -/
def State.removeEverywhere (s : State) (r : ShootRange) : State :=
  let s1 := s.mapTiles (s.tiles.map (·.1)) fun t => t.tlbRemove r
  (s1.clusters.map (·.1)).foldl (fun s c => s.clusterRemove c r) s1

/-- Every L1 line of every tile that a region of a context binds written back and invalidated. -/
def State.emptyL1 (s : State) (ctx : BitVec 16) : State :=
  ((s.tiles.filter fun e => e.2.bound.isSome && (s.region e.2.handle).info.ctx == ctx).map (·.1)).foldl State.invalL1 s

/-- A port that a re-latch token of a range has passed: it has discarded its latched bases in the range (R305). A step of the port begins
and ends its accesses, so none is in progress when the token comes. -/
def FPort.relatch (p : FPort) (r : ShootRange) : FPort := { p with bases := Machine.tlbRemove r.ctx r p.bases }

/-- A table's values changed by a function. -/
def mapValues {α : Type} (f : α → α) (t : Table α) : Table α := t.map fun e => (e.1, f e.2)

/-- The re-latch token of a range passed through every address-generator node of a context (R281, R305). -/
def State.relatchAll (s : State) (r : ShootRange) : State :=
  s.regions.foldl (fun s e =>
    if e.2.info.ctx == r.ctx && e.2.ports.any fun p => p.2.relatch r != p.2 then
      s.setRegion e.2.info.handle { e.2 with ports := mapValues (fun p => p.relatch r) e.2.ports }
    else s) s

/-- The effect of a SHOOT on one module (R304). -/
def State.shootHere (s : State) (r : ShootRange) : State := ((s.emptyL1 r.ctx).removeEverywhere r).relatchAll r

/-- A range recorded for a module: a seventeenth one turns the entries of the target into one whole-context entry, which absorbs
later ranges of its context (R334). -/
def recordRange (l : List ShootRange) (r : ShootRange) : List ShootRange :=
  if l.any fun x => x.whole && x.ctx == r.ctx then l
  else if l.length < 16 then l ++ [r]
  else [⟨r.ctx, true, 0, 0⟩]

/-- This module is the home module of a context: it holds the root of its page table (R312). -/
def State.isHome (s : State) (ctx : BitVec 16) : Bool :=
  match s.context ctx with
  | some c => natBits c.root.toNat 48 8 == s.moduleNumber.toNat
  | none => false

/-- A range entered for a module in the pending-shootdown set, which the home module of its context keeps (R334): for a context whose home
is elsewhere, this module keeps none (LOG 59 DEDUCED). -/
def State.recordShoot (s : State) (m : Nat) (r : ShootRange) : State :=
  if s.isHome r.ctx then { s with pendingShoot := tabSet [] s.pendingShoot m (recordRange (tabGet [] s.pendingShoot m) r) } else s

/-- Other modules of the domain; without feature bit 7 there are none (R239). -/
def State.others (s : State) : List Nat := if s.feature 7 then s.domain.filter fun m => m != s.moduleNumber.toNat else []

/-- Other modules of the domain that hold a context: to these a SHOOT goes (R281, R333). -/
def State.holders (s : State) (ctx : BitVec 16) : List Nat := s.others.filter fun m => Config.holdsContext m ctx s.steps

/-- A shoot in progress. -/
def State.shootOf (s : State) (id : Nat) : Option Shoot := tabGet none s.shoots id

/-- A shoot is complete: every reachable module has acknowledged, and every removal that it waits for has been granted (R281, R333). -/
def Shoot.complete (x : Shoot) : Bool := x.asked.isEmpty && x.removing.isEmpty

/-- The state with a shoot replaced, or removed. -/
def State.setShoot (s : State) (id : Nat) (x : Option Shoot) : State := { s with shoots := tabSet none s.shoots id x }

/-- A removal recorded for the unreachable modules that hold the context, and asked of the others that do (R304, R333, R334)
(LOG 59 DEDUCED). -/
def State.askShoot (s : State) (r : ShootRange) : State :=
  let far := (s.holders r.ctx).filter fun m => s.unreachable.contains m
  let near := (s.holders r.ctx).filter fun m => !s.unreachable.contains m
  let s1 := far.foldl (fun s m => s.recordShoot m r) s
  let id := s1.nextShoot
  let s2 := { (s1.setShoot id (some ⟨r, near, [], far.length⟩)) with nextShoot := id + 1 }
  near.foldl (fun s m => s.push (.shootAcknowledge id m)) s2

/-- A SHOOT sent: released at domain scope, performed on this module, and asked of the others. -/
def State.sendShoot (s : State) (r : ShootRange) : State :=
  let s1 := (s.releaseAt s.cur.tile .dom).shootHere r
  let s2 := s1.askShoot r
  s2.setCur { s2.curStrand with hold := .shoot s1.nextShoot }

/-- SHOOT: the first try sends it, and later ones wait until it is complete (LOG 59 DEDUCED). -/
def shootEff (d : BitVec 6) (start len : Word) (s : State) : M Eff := do
  privileged s
  match s.curStrand.hold with
  | .shoot id =>
    match s.shootOf id with
    | some x =>
      awaitStall x.complete s
      let s1 := s.setShoot id none
      return .done (s1.setCur (s1.curStrand.wg d (BitVec.ofNat 64 x.recorded)))
    | none => return .done (s.setCur (s.curStrand.wg d 0))
  | _ => stallM (s.sendShoot ⟨s.curRegion.info.ctx, false, start.truncate 56, len.toNat⟩)

/-- SHOOT (R281). -/
def execShoot (d a b : BitVec 6) (s : State) : Host.Outcome State Fault Refusal :=
  issueM s [d, a, b] (shootEff d (s.curStrand.rg a) (s.curStrand.rg b) s)

/-- SHOOT_ACKNOWLEDGE (R333): a module has performed a SHOOT. -/
def execShootAcknowledge (id m : Nat) (s : State) : Host.Outcome State Fault Refusal :=
  .next (match s.shootOf id with
    | some x => s.setShoot id (some { x with asked := x.asked.filter fun n => n != m })
    | none => s)

/-! ## FREEZE and THAW (R282) -/

/-- The regions of a context, by handle. -/
def State.regionsOf (s : State) (ctx : BitVec 16) : List Region :=
  (s.regions.map (·.2)).filter fun r => r.info.ctx == ctx && s.live r.info.handle

/-- The cluster memberships of a region removed, and the pass entries of its routers. -/
def State.dropMembers (s : State) (h : BitVec 32) : State :=
  let s := { s with passEntries := s.passEntries.filter fun e => e.handle != h }
  (s.clusters.map (·.1)).foldl (fun s c =>
    let x := s.cluster c
    if x.members.any fun m => m.handle == h then s.setCluster c { x with members := x.members.filter fun m => m.handle != h } else s) s

/-- A job put at the head of the queue of its priority, without what it had reserved. -/
def State.putBack (s : State) (j : Job) : State :=
  let s1 := j.reserved.foldl (fun s x => s.dropMembers x.handle) s
  let q := tabGet [] s1.dist.queues j.prio
  { s1 with dist := { s1.dist with queues := tabSet [] s1.dist.queues j.prio ({ j with reserved := [], committing := false } :: q) } }

/-- A job that joins the queue of its priority. A job of lower priority in its reserve phase releases every reservation, and starts
again after the job (R355). -/
def State.joinQueue (s : State) (j : Job) : State :=
  let s1 := match s.dist.placing with
    | some k =>
      if !k.committing && decide (j.prio < k.prio) then
        let s2 := s.putBack k
        { s2 with dist := { s2.dist with placing := none } }
      else s
    | none => s
  let q := tabGet [] s1.dist.queues j.prio
  { s1 with dist := { s1.dist with queues := tabSet [] s1.dist.queues j.prio (q ++ [j]) } }.ask .placementReserve

/-- A thaw queued with the distributor, at the region's PRIO (R340, R356). A chained launch that waits for its producer's tiles needs
none of its own to be bound: its save is checked at once. -/
def State.startThaw (s : State) (h : BitVec 32) : State :=
  let r := s.region h
  let s1 := s.setRegion h { r with phase := .thawing }
  if r.awaiting then s1.push (.thawRestore h []) else s1.joinQueue ⟨[r.info], r.info.prio, [], false, true⟩

/-- A status written to g[d]. -/
def State.giveStatus (s : State) (d : BitVec 6) (n : Nat) : Eff := .done (s.setCur (s.curStrand.wg d (BitVec.ofNat 64 n)))

/-- The index after an index; at the last index of the instruction store, that index (R94; LOG 12 DEDUCED). -/
def nextIndex (pc : BitVec 13) : BitVec 13 := if pc = 8191 then 8191 else pc + 1

/-- FREEZE: the first try requests it, and later ones wait until the save is complete. The issuing strand's own region freezes after
the instruction, the strand with KEPC at the next one. Of several regions of a context, the first by handle that is not frozen is taken (LOG 33 DESIGN CHOICE). -/
def freezeEff (d : BitVec 6) (v : Word) (s : State) : M Eff := do
  privileged s
  match s.curStrand.hold with
  | .freezing h n =>
    if s.live h then
      awaitStall ((s.region h).saves != n) s
      return s.giveStatus d 0
    else return s.giveStatus d 1
  | _ =>
    let rs := s.regionsOf (v.truncate 16)
    match rs.find? fun r => r.phase != .frozen with
    | none => return s.giveStatus d (if rs.isEmpty then 1 else 2)
    | some r =>
      let h := r.info.handle
      if h = s.curTile.handle then
        let x := s.curStrand.wg d 0
        return .done ((s.setCur { x with kepc := (nextIndex x.pc).zeroExtend 64 }).freezeRegion h none none [])
      else
        let s1 := s.freezeRegion h none none []
        stallM (s1.setCur { s1.curStrand with hold := .freezing h r.saves })

/-- FREEZE (R282). -/
def execFreeze (d a : BitVec 6) (s : State) : Host.Outcome State Fault Refusal :=
  issueM s [d, a] (freezeEff d (s.curStrand.rg a) s)

/-- THAW: likewise; it waits until the region runs again, and returns 1 when the thaw destroyed it (R340). -/
def thawEff (d : BitVec 6) (v : Word) (s : State) : M Eff := do
  privileged s
  match s.curStrand.hold with
  | .thawing h n =>
    if s.live h then
      awaitStall ((s.region h).thaws != n) s
      return s.giveStatus d 0
    else return s.giveStatus d 1
  | _ =>
    let rs := s.regionsOf (v.truncate 16)
    match rs.find? fun r => r.phase == .frozen with
    | none => return s.giveStatus d (if rs.isEmpty then 1 else 3)
    | some r =>
      let s1 := s.startThaw r.info.handle
      stallM (s1.setCur { s1.curStrand with hold := .thawing r.info.handle r.thaws })

/-- THAW (R282). -/
def execThaw (d a : BitVec 6) (s : State) : Host.Outcome State Fault Refusal :=
  issueM s [d, a] (thawEff d (s.curStrand.rg a) s)

end Sys2Proof.Machine
end

