-- ==== Sys2Proof/Machine/Sched.lean ====
section
/-!
DEFINITION. The firing rule (11_scheduling.md R368 to R372; 01_machine_state.md R18 to R20; 06_lane_row_instructions.md R192;
07_matrix_and_inlay.md R223, R236), and seed tokens and results (R361 to R364).
-/
namespace Sys2Proof.Machine

/-! ## Which actors may fire -/

/-- The class of an actor: class 3 counts as 2 while the arm is at the tile (R270). -/
def Tile.classOf (t : Tile) (a : Actor) : Nat := if a.cls = 3 ∧ t.armed.isSome then 2 else a.cls

/-- An actor is permitted (R368). -/
def State.permits (s : State) (t i : Nat) : Bool :=
  let x := s.tile t
  let a := x.actor i
  let r := s.region x.handle
  a.valid && a.ins.all (fun q => decide (rateOf a.ins q.ch ≤ (r.channel q.ch).tokens))
    && a.outs.all fun q => decide (rateOf a.outs q.ch ≤ (r.channel q.ch).space)

/-- A strand that takes a firing: idle, not halted, in no trap handler (Table 11.5). -/
def Tile.freeStrand (t : Tile) : Option (Fin 4) :=
  [0, 1, 2, 3].find? fun k => !(t.strand k).isFiring && !(t.strand k).halted && !(t.strand k).priv

/-- Vectors of an Inlay firing: the shape checks of R236 with the graph that is resident. -/
def inlayShape (a : Actor) (g : Graph) : Option Nat :=
  let n := rateOf a.ins ((a.ins.map (·.ch)).headD 0)
  let v := n / vectorTokens g
  if n % vectorTokens g = 0 ∧ 1 ≤ v ∧ v ≤ 64 ∧ rateOf a.outs ((a.outs.map (·.ch)).headD 0) = v * ((g.nout + 1) / 2) then some v else none

/-- The availability checks of R236: a graph in the slot, and an empty output buffer. -/
def Tile.inlayGraph (t : Tile) (a : Actor) : Option Graph :=
  if t.inlay.out.isEmpty && t.inlay.firing.isNone then t.inlay.graph (natBits a.entry.toNat 0 2) else none

/-- The target of an actor is available (Table 11.5). -/
def State.targetFree (s : State) (t : Nat) (a : Actor) : Bool :=
  let x := s.tile t
  match a.target with
  | 0 => x.freeStrand.isSome
  | 1 => x.spindle.owner == .none && !x.deadSlots.contains (natBits a.entry.toNat 0 2)
  | 2 => x.matrix.firing.isNone && !x.matrix.badRecords.contains (natBits a.entry.toNat 0 4)
  | _ => match x.inlayGraph a with
    | some g => (inlayShape a g).isSome
    | none => false

/-- The valid actors of a tile, ascending. -/
def Tile.actorList (t : Tile) : List Nat := (upFrom 0 64).filter fun i => (t.actor i).valid

/-- The candidates of a target kind (R370). -/
def State.candidates (s : State) (t kind : Nat) : List Nat :=
  let x := s.tile t
  x.actorList.filter fun i => let a := x.actor i; a.target == kind && !a.running && s.permits t i && s.targetFree t a

/-! ## Choosing (R370) -/

/-- The index with the largest PASS; ties to the lowest index. -/
def largestPass (x : Tile) : List Nat → Option Nat
  | [] => none
  | i :: r => match largestPass x r with
    | some j => if (x.actor i).pass < (x.actor j).pass then some j else some i
    | none => some i

/-- The first index at or after a pointer, wrapping. -/
def atOrAfter (ids : List Nat) (p : Nat) : Option Nat :=
  match ids.find? fun i => decide (p ≤ i) with
  | some i => some i
  | none => ids.head?

/-- The actor chosen for a kind, with the class whose pointer moves, if one does. -/
def State.choose (s : State) (t kind : Nat) : Option (Nat × Option Nat) :=
  let x := s.tile t
  let cand := s.candidates t kind
  let cls (i : Nat) := x.classOf (x.actor i)
  match largestPass x (cand.filter fun i => decide (cls i ≤ 2) && decide (8 ≤ (x.actor i).pass)) with
  | some i => some (i, none)
  | none =>
    match (upFrom 0 3).find? fun c => cand.any fun i => cls i == c with
    | some c => (atOrAfter (cand.filter fun i => cls i == c) (tabGet 0 x.rr c)).map fun i => (i, some c)
    | none =>
      if x.actorList.any fun i => decide (cls i ≤ 2) && s.permits t i then none
      else (atOrAfter (cand.filter fun i => cls i == 3) (tabGet 0 x.rr 3)).map fun i => (i, some 3)

/-- The PASS counters of actors of classes 0 to 2 that are not permitted are cleared (R370). -/
def State.clearPass (s : State) (t : Nat) : State :=
  (s.tile t).actorList.foldl (fun s i =>
    let x := s.tile t
    if x.classOf (x.actor i) ≤ 2 ∧ !s.permits t i then s.setTile t (x.setActor i { x.actor i with pass := 0 }) else s) s

/-- The counters and the pointer after a choice. -/
def Tile.chosen (x : Tile) (kind i : Nat) (c : Option Nat) (cand : List Nat) : Tile :=
  let x1 := cand.foldl (fun x j =>
    if j ≠ i ∧ x.classOf (x.actor j) ≤ 2 then x.setActor j { x.actor j with pass := min 15 ((x.actor j).pass + 1) } else x) x
  let x2 := x1.setActor i { x1.actor i with pass := 0 }
  { x2 with
    lastKind := kind
    rr := match c with
      | some c => tabSet 0 x2.rr c (i + 1)
      | none => x2.rr }

/-! ## Dispatch (R18, R20) -/

/-- The tokens and space of a firing are reserved, and its actor runs. -/
def State.reserve (s : State) (t i : Nat) : State :=
  let x := s.tile t
  let a := x.actor i
  let s1 := s.setTile t (x.setActor i { a with seq := a.seq + 1, running := true, reported := false })
  let r := s1.region x.handle
  let r1 := a.ins.foldl (fun r q => r.setChannel q.ch { r.channel q.ch with tokens := (r.channel q.ch).tokens - q.rate }) r
  let r2 := a.outs.foldl (fun r q => r.setChannel q.ch { r.channel q.ch with space := (r.channel q.ch).space - q.rate }) r1
  s1.setRegion x.handle r2

/-- KSTATUS as configuration load leaves it: STRAND, and RM and DZT as the region's image configures them (Table 1.6). -/
def Region.status (r : Region) (k : Fin 4) : Word := BitVec.ofNat 64 (k.val * 2 ^ 11 + r.defRm * 16 + (if r.defDzt then 2 else 0))

/-- A tile at the end of configuration load: its strands hold the region's KSTATUS, and the validity of its lane configuration slots is
judged, once (R192). -/
def Tile.configure (t : Tile) (r : Region) (sr : Bool) : Tile :=
  { t with
    strands := Vector.ofFn fun k => { t.strand k with kstatus := r.status k }
    deadSlots := (upFrom 0 4).filter fun n => (t.badLane n sr).isSome }

/-- A strand as Table 1.3 sets it for a firing. -/
def Strand.dispatch (x : Strand) (r : Region) (k : Fin 4) (i seq : Nat) (entry : BitVec 13) : Strand :=
  { x with
    pc := entry
    g := tabSet 0 (tabSet 0 [] 1 (BitVec.ofNat 64 seq)) 2 (BitVec.ofNat 64 i)
    p := 0
    kstatus := setBit (setBit (r.status k) 13 true) 14 x.sstep
    trackValid := false
    trackVer := 0
    trackMixed := false
    firing := some (Firing.start i seq)
    hold := .none
    parked := none
    waited := 0 }

/-- The operand checks of a record's word that an instruction makes at issue (R223, R210 to R222). -/
def State.recordFault (s : State) (t : Nat) (op : MxOp) : Option Cause :=
  let x := s.tile t
  let fits (h bytes : Nat) : Option Cause := if bytes ≤ (x.ring h).slotBytes then none else some .ringGeometry
  match op with
  | .loadRing h mf => if planeSlots (x.ring h) mf ≤ (x.ring h).count then none else some .ringGeometry
  | .macc _ _ (.ring h) af _ _ => fits h (mxRowBytes af)
  | .drain _ (.ring h) df _ _ => fits h (mxRowBytes df)
  | .gang mask => if gangOk (s.region x.handle) x mask then none else some .matrixGang
  | .exchange _ _ => if gangOk (s.region x.handle) x 0xF then none else some .matrixGang
  | .perm v => if permOk v then none else some .matrixOperand
  | _ => none

/-- The operation of a record's word whose guard is true; none for a word that does nothing (LOG 28 DESIGN CHOICE). -/
def recordWordOp (w : Word) : Option MxOp :=
  let g := guardOf w
  let p := g.p == 0 || (Config.recordReg (64 + g.p.toNat)).getLsbD 0
  if p == g.neg then none
  else match decodeMatrix w with
    | .ok i => recordOp i
    | _ => none

/-- A matrix firing: its words enter the queue as entries of no strand, even when strands have filled it (LOG 49 DEDUCED); a word that fails a
check freezes the region. -/
def State.matrixFiring (s : State) (t i seq : Nat) (ops : List MxOp) : State :=
  let x := s.tile t
  match ops.findSome? (s.recordFault t) with
  | some c => s.freezeRegion x.handle (some c) none []
  | none =>
    let es := ops.map fun op => (⟨op, ⟨none, i, seq, 0⟩⟩ : MxEntry)
    let s1 := s.setTile t { x with matrix := { x.matrix with queue := x.matrix.queue ++ es, firing := some (Firing.start i seq) } }
    if ops.isEmpty then s1.ask (.engineFiringCommit t 2) else s1.ask (.matrixEntryExecute t)

/-- A lane-row firing takes the Spindle. -/
def State.laneFiring (s : State) (t i seq : Nat) : State :=
  let x := s.tile t
  let a := x.actor i
  let sp := x.spindle
  let n := rateOf a.ins ((a.ins.map (·.ch)).headD 0)
  let y : Spindle := { sp with
    owner := .firing i
    cslot := natBits a.entry.toNat 0 2
    entries := [.run sp.nextRun (.port 8) (.port 9) n (natBits a.entry.toNat 2 1 == 1) 8 0]
    pos := 0
    nextRun := sp.nextRun + 1
    firing := some (Firing.start i seq)
    finished := false }
  (s.setSpindle t y).ask (.spindleEntryExecute t)

/-- An Inlay firing: a run and a drain of V vectors (R236). The two entries enter the queue even when strands have filled it
(LOG 49 DEDUCED). -/
def State.inlayFiring (s : State) (t i seq : Nat) : State :=
  let x := s.tile t
  let a := x.actor i
  let slot := natBits a.entry.toNat 0 2
  let v := match x.inlay.graph slot with
    | some g => (inlayShape a g).getD 0
    | none => 0
  let who : Issuer := ⟨none, i, seq, 0⟩
  let es : List InEntry := [⟨.run (.port 10) slot v, who⟩, ⟨.drain (.port 11) 0 v, who⟩]
  (s.setInlay t { x.inlay with queue := x.inlay.queue ++ es, firing := some (Firing.start i seq) }).ask (.inlayEntryExecute t)

/-- A firing of an actor handed to its target. -/
def State.hand (s : State) (t i seq : Nat) : State :=
  let x := s.tile t
  let a := x.actor i
  match a.target with
  | 0 => match x.freeStrand with
    | some k => s.setTile t (x.setStrand k ((x.strand k).dispatch (s.region x.handle) k i seq a.entry))
    | none => s
  | 1 => s.laneFiring t i seq
  | 2 => s.matrixFiring t i seq ((x.matrix.recordWords (natBits a.entry.toNat 0 4)).filterMap recordWordOp)
  | _ => s.inlayFiring t i seq

/-! ## Launch errors of reason 9 -/

/-- A LAUNCH_ERROR event (Table 11.2). -/
def State.launchError (s : State) (info : Launch) (reason detail : Nat) : State :=
  s.post 1 0x0101 [BitVec.ofNat 64 (info.handle.toNat * 2 ^ 32 + info.ctx.toNat), BitVec.ofNat 64 (reason * 2 ^ 48 + detail),
    info.imageId.zeroExtend 64]

/-- Reason 9: what never fires, or an Inlay entry whose shape check failed (Table 11.3). -/
def State.neverFires (s : State) (t who what case_ : Nat) : State :=
  let x := s.tile t
  let r := s.region x.handle
  s.launchError r.info 9 (logicalOf r x * 2 ^ 32 + who * 2 ^ 24 + what * 2 ^ 16 + case_)

/-- The Inlay actors whose shape check fails at this attempt and that have not been reported since they were last dispatched. -/
def State.reportShapes (s : State) (t : Nat) : State :=
  (s.tile t).actorList.foldl (fun s i =>
    let x := s.tile t
    let a := x.actor i
    if a.target = 3 ∧ !a.running ∧ !a.reported ∧ s.permits t i then
      match x.inlayGraph a with
      | some g =>
        if (inlayShape a g).isNone then
          (s.setTile t (x.setActor i { a with reported := true })).neverFires t i (natBits a.entry.toNat 0 2) 3
        else s
      | none => s
    else s) s

/-- The four kinds in rotating order, after the kind that received the last dispatch (R369). -/
def kindsAfter (k : Nat) : List Nat := (upFrom 1 4).map fun n => (k + n) % 4

/-- FIRING_DISPATCH (R369, R370): a tile that has taken the wave and is not freezing dispatches at most one firing; the step follows
again after one. -/
def execFiringDispatch (t : Nat) (s : State) : Host.Outcome State Fault Refusal :=
  .next (if s.active t && (s.tile t).wave then
      let s1 := (s.reportShapes t).clearPass t
      match (kindsAfter (s1.tile t).lastKind).findSome? fun kind => (s1.choose t kind).map fun c => (kind, c) with
      | none => s1
      | some (kind, i, c) =>
        let s2 := s1.setTile t ((s1.tile t).chosen kind i c (s1.candidates t kind))
        let seq := ((s2.tile t).actor i).seq
        ((s2.reserve t i).hand t i seq).ask (.firingDispatch t)
    else s)

/-! ## Engine firings commit (R18, R192, R223, R236) -/

/-- ENGINE_FIRING_COMMIT: kind 1 a lane-row firing, 2 a matrix firing, 3 an Inlay firing. -/
def execEngineFiringCommit (t kind : Nat) (s : State) : Host.Outcome State Fault Refusal :=
  .next (if s.active t then
      let x := s.tile t
      match kind with
      | 1 => match x.spindle.firing with
        | some f =>
          if x.spindle.finished then
            (s.setTile t { x with spindle := { x.spindle with firing := none, finished := false } }.freeSpindle).commitFiring t f
          else s
        | none => s
      | 2 => match x.matrix.firing with
        | some f =>
          if x.matrix.queue.any fun e => e.who.strand.isNone then s
          else (s.setTile t { x with matrix := { x.matrix with firing := none } }).commitFiring t f
        | none => s
      | 3 => match x.inlay.firing with
        | some f =>
          if x.inlay.queue.any fun e => e.who.strand.isNone then s
          else (s.setTile t { x with inlay := { x.inlay with firing := none } }).commitFiring t f
        | none => s
      | _ => s
    else s)

/-! ## Seed tokens (R361 to R363) -/

/-- The fields of a seed entry's word 0. -/
def seedHandle (w : Word) : BitVec 32 := w.extractLsb' 32 32

/-- Nanoseconds of some cycles of the tile clock. -/
def State.cyclesNs (s : State) (n : Nat) : Nat := n * 1000 / s.clockMHz

/-- What a handle's refused seed entries have come to. -/
def State.refusals (s : State) (h : BitVec 32) : Refusals := tabGet Refusals.idle s.refused h.toNat

/-- The state with them replaced. -/
def State.setRefusals (s : State) (h : BitVec 32) (x : Refusals) : State := { s with refused := tabSet Refusals.idle s.refused h.toNat x }

/-- The SEED_REFUSED event of a handle for which entries have been refused, at most one in 1,024 cycles, whether its region is live, ends
or begins meanwhile (R363) (LOG 52 DEDUCED). -/
def State.postRefused (s : State) (h : BitVec 32) : State :=
  let x := s.refusals h
  if x.count ≠ 0 ∧ x.next ≤ s.time then
    (s.setRefusals h ⟨0, 0, s.time + s.cyclesNs 1024⟩).post 1 0x0107
      [BitVec.ofNat 64 (h.toNat * 2 ^ 32), BitVec.ofNat 64 (x.reason * 2 ^ 48 + x.count)]
  else s

/-- The step that posts what a handle's refused entries still owe. -/
def State.oweRefused (s : State) (h : BitVec 32) : State := if (s.refusals h).count = 0 then s else s.ask (.seedDelivery h)

/-- A seed entry refused with a reason. -/
def State.refuseSeed (s : State) (h : BitVec 32) (reason : Nat) : State :=
  let x := s.refusals h
  ((s.setRefusals h ⟨x.count + 1, if x.count = 0 then reason else x.reason, x.next⟩).postRefused h).oweRefused h

/-- The first reason of the table of R363 that refuses a seed entry (LOG 52 DEDUCED). -/
def State.seedReason (s : State) (w0 : Word) : Option Nat :=
  let h := seedHandle w0
  let r := s.region h
  let close := w0.getLsbD 19
  if !(s.live h && r.posted) then some 1
  else if !close && (r.channel (field w0 22 10)).prod != .region then some 2
  else if 256 ≤ r.seedq.length then some 3
  else if r.closing || r.closed then some 4
  else if field w0 0 19 ≠ 0 then some 5
  else none

/-- SEED_WINDOW_WRITE (R361): an entry joins its region's seed queue, or is refused. A CLOSE entry closes the port to later ones. -/
def execSeedWindowWrite (w0 w1 : Word) (s : State) : Host.Outcome State Fault Refusal :=
  let h := seedHandle w0
  .next (match s.seedReason w0 with
    | some n => s.refuseSeed h n
    | none =>
      let r := s.region h
      let scale := w0.getLsbD 21
      let e : SeedEntry := ⟨field w0 22 10, scale, w0.getLsbD 20, w0.getLsbD 19, if scale then w1 &&& 0xFF else w1⟩
      (s.setRegion h { r with seedq := r.seedq ++ [e], closing := r.closing || e.close }).ask (.seedDelivery h))

/-- Admission of a region is open (R376). -/
def Region.admits (r : Region) : Bool := r.stashOpen && r.versionOpen

/-- The seed port is closed once the last entry before its close, or before the END, has been delivered. -/
def State.seedClose (s : State) (h : BitVec 32) : State :=
  let r := s.region h
  if r.closing && r.seedq.isEmpty && !r.closed then (s.setRegion h { r with closed := true }).ask (.regionEnd h) else s

/-- The head entry of a region's seed queue delivered, if it can be: whether it was, and the state after it. -/
def State.deliverSeed (s : State) (h : BitVec 32) : Bool × State :=
  let r := s.region h
  match r.seedq with
  | [] => (false, s)
  | e :: rest =>
    if e.close then (true, s.setRegion h { r with seedq := rest })
    else if (r.channel e.ch).space = 0 ∨ (e.mbStart ∧ !r.admits) then (false, s)
    else
      let s1 := s.setRegion h { r with seedq := rest, delivered := r.delivered + 1 }
      let s2 := s1.portPush h e.ch ⟨e.payload, e.scale, false, ⟨0, 0, 255, 0, r.delivered % 2 ^ 32⟩⟩
      (true, if (r.delivered + 1) % 64 = 0 then
          s2.post 1 0x0108 [BitVec.ofNat 64 (h.toNat * 2 ^ 32), BitVec.ofNat 64 (r.delivered + 1)]
        else s2)

/-- SEED_DELIVERY (R362): the entry at the head of a region's seed queue goes into its channel. A SEED_REFUSED event that is due is posted
(R363). -/
def execSeedDelivery (h : BitVec 32) (start : State) : Host.Outcome State Fault Refusal :=
  let s := start.postRefused h
  .next (if s.live h && (s.region h).phase == .running then
      let (moved, s1) := s.deliverSeed h
      let s2 := s1.seedClose h
      if moved then s2.ask (.seedDelivery h) else s2.oweRefused h
    else s.oweRefused h)

/-! ## Results (R364) -/

/-- RESULT_PORT_POP (R364): the region result port pops a token of a channel and writes its entry; the step follows again while the
channel holds a token. -/
def execResultPortPop (h : BitVec 32) (ch : Nat) (s : State) : Host.Outcome State Fault Refusal :=
  .next (if s.live h && (s.region h).phase == .running && decide (0 < ((s.region h).channel ch).tokens) then
      let (v, s1) := s.portPop h ch
      let s2 := s1.edgeSink h v
      let r := s2.region h
      let n := r.results
      let w0 := BitVec.ofNat 64 (ch * 2 ^ 54 + (if v.scale then 2 ^ 53 else 0) + (if v.exc then 2 ^ 52 else 0) + n % 2 ^ 32)
      let s3 := s2.setRegion h { r with results := n + 1 }
      let s4 := if r.info.resultCap = 0 then s3
        else { s3 with hostMem := writeWords s3.hostMem (r.info.resultBa.toNat + 16 * (n % r.info.resultCap)) [w0, v.payload] }
      if 0 < ((s4.region h).channel ch).tokens then s4.ask (.resultPortPop h ch) else s4
    else s)

end Sys2Proof.Machine
end

