-- ==== Sys2Proof/Machine/Victim.lean ====
section
/-!
DEFINITION. The victim tier (09_memory_model.md R307 to R311): the candidates of a context, the clock sweep, eviction and recall.
-/
namespace Sys2Proof.Machine

/-! ## The pages of a context -/

/-- A leaf of a page table: the first address that it maps, where its entry lies, the entry, and the log2 of its size. -/
structure Leaf where
  va : Nat
  ea : Nat
  entry : Word
  z : Nat
deriving DecidableEq, Repr

/-- log2 of what an entry of a level spans (Table 10.1). -/
def spanBits (level : Nat) : Nat := if level = 0 then 47 else leafBits level

/-- The valid leaves below a table, ascending. -/
def leavesFrom (s : State) : Nat → Nat → Nat → List Leaf
  | 0, _, _ => []
  | fuel + 1, table, va =>
    let level := 3 - fuel
    (upFrom 0 (if level = 0 then 512 else 2048)).flatMap fun i =>
      let e := readWord s.mem (table + 8 * i)
      let v := va + i * 2 ^ spanBits level
      if !pteV e then []
      else if pteL e then [⟨v, table + 8 * i, e, leafBits level⟩]
      else leavesFrom s fuel (ptePa e) v

/-- The valid leaves of a context. -/
def State.leaves (s : State) (ctx : BitVec 16) : List Leaf :=
  match s.context ctx with
  | some c => leavesFrom s 4 c.root.toNat 0
  | none => []

/-- A leaf whose page lies in stack memory. -/
def Leaf.resident (l : Leaf) : Bool := pteForm l.entry == 0

/-- 16 KiB pages of stack memory that a context has mapped. -/
def State.residentPages (s : State) (ctx : BitVec 16) : Nat :=
  ((s.leaves ctx).filter Leaf.resident).foldl (fun n l => n + 2 ^ (l.z - 14)) 0

/-- A page of a slot set that holds a published, reserved or retained version (R307). -/
def State.inSlotSet (s : State) (ctx : BitVec 16) (va : Nat) : Bool :=
  s.registry.any fun e => (upFrom 0 4).any fun n =>
    let y := e.2.slot n
    let kept := y.version != 0 || (match e.2.reserved with
      | some (_, k) => k == n
      | none => false)
    y.placed && y.ctx == ctx && kept && decide (y.va.toNat < va + 16384 ∧ va < y.va.toNat + y.bytes)

/-- A page that is never chosen: NE, or a page of a kept slot set (R307). -/
def State.neverChosen (s : State) (ctx : BitVec 16) (l : Leaf) : Bool := l.entry.getLsbD 5 || s.inSlotSet ctx l.va

/-- The candidates of a context: its resident 16 KiB pages on this module, without a page that is being mapped. -/
def State.candidatePages (s : State) (ctx : BitVec 16) (not : Option Nat) : List Leaf :=
  (s.leaves ctx).filter fun l => l.resident && l.z == 14 && natBits (ptePa l.entry) 48 8 == s.moduleNumber.toNat
    && not != some (l.va / 16384)

/-! ## The clock sweep (R308) -/

/-- The candidate at the hand, and the next one. -/
def atHand (ls : List Leaf) (hand : Nat) : Option (Leaf × Leaf) :=
  match ls.find? fun l => decide (hand ≤ l.va / 16384), ls.head? with
  | some l, some f =>
    match ls.find? fun k => decide (l.va < k.va) with
    | some k => some (l, k)
    | none => some (l, f)
  | none, some f =>
    match ls.find? fun k => decide (f.va < k.va) with
    | some k => some (f, k)
    | none => some (f, f)
  | _, none => none

/-- The page of a leaf as a range. -/
def Leaf.range (ctx : BitVec 16) (l : Leaf) : ShootRange := ⟨ctx, false, BitVec.ofNat 56 l.va, 2 ^ l.z⟩

/-- The state with the hand of a context moved to a page. -/
def State.setHand (s : State) (ctx : BitVec 16) (page : Nat) : State :=
  match s.context ctx with
  | some c => s.setContext ctx { c with hand := page }
  | none => s

/-- The hand of a context. -/
def State.hand_ (s : State) (ctx : BitVec 16) : Nat :=
  match s.context ctx with
  | some c => c.hand
  | none => 0

/-- The sweep: the page chosen, if one is, and the state after it. -/
def sweep (ctx : BitVec 16) (not : Option Nat) : Nat → State → Option Leaf × State
  | 0, s => (none, s)
  | fuel + 1, s =>
    match atHand (s.candidatePages ctx not) (s.hand_ ctx) with
    | none => (none, s)
    | some (c, n) =>
      let s1 := s.setHand ctx (n.va / 16384)
      if s.neverChosen ctx c then sweep ctx not fuel s1
      else if c.entry.getLsbD 3 then
        let s2 := { s1 with mem := writeNat s1.mem c.ea 8 (setBit c.entry 3 false).toNat }
        sweep ctx not fuel (s2.removeEverywhere (c.range ctx))
      else (some c, s1)

/-! ## Eviction (R309) -/

/-- FORM of an entry replaced. -/
def setForm (e : Word) (form : Nat) : Word := (e &&& ~~~(0xC0#64)) ||| BitVec.ofNat 64 (form * 64)

/-- How a try to evict a page of a context ends. -/
inductive Evicted where
  | done (s : State)
  /-- other modules have still to perform the removal -/
  | wait (s : State)
  /-- no page can be chosen -/
  | none (s : State)
deriving DecidableEq, Repr

/-- Steps 2 to 4 of R309: the page's bytes go to the first free victim frame or else to the host, its entry is rewritten, and its stack
frame is free. -/
def State.moveAway (start : State) (ctx : BitVec 16) (l : Leaf) : State :=
  let s := start.burst (upFrom (ptePa (readWord start.mem l.ea)) 16384)
  let e := readWord s.mem l.ea
  let pa := ptePa e
  let data := writeBytes [] 0 (readBytes s.mem pa 16384)
  let (away, form, s1) := match s.firstFrame with
    | some f => (Away.frame f, 1, { s with frames := tabSet false s.frames f true })
    | none => (Away.host, 2, s)
  let e1 := setForm e form
  let s2 := { s1 with mem := writeNat s1.mem l.ea 8 e1.toNat, freeStack := pa :: s1.freeStack }
  match s2.context ctx with
  | some c => s2.setContext ctx
      { c with moved := tabInsert (tabErase c.moved (l.va / 16384)) (l.va / 16384) ⟨away, e1, data⟩, evicting := none }
  | none => s2

/-- The context with an eviction in progress replaced. -/
def State.setEvicting (s : State) (ctx : BitVec 16) (x : Option Evicting) : State :=
  match s.context ctx with
  | some c => s.setContext ctx { c with evicting := x }
  | none => s

/-- Step 1 of R309: a page is removed as a SHOOT would. Without another module to ask, the rest follows at once; else it waits until the
removal is complete as a SHOOT's is (R333). -/
def State.evictPage (s : State) (ctx : BitVec 16) (l : Leaf) : Evicted :=
  let s1 := s.shootHere (l.range ctx)
  let s2 := s1.askShoot (l.range ctx)
  let id := s1.nextShoot
  match s2.shootOf id with
  | some x => if x.complete then .done ((s2.setShoot id none).moveAway ctx l) else .wait (s2.setEvicting ctx (some ⟨l.va / 16384, id⟩))
  | none => .none s2

/-- The leaf entry of an address, moved or not. -/
def State.leafOf (s : State) (ctx : BitVec 16) (page : Nat) : Option Leaf := (s.leaves ctx).find? fun l => l.va / 16384 == page

/-- One page of a context evicted (R308): an eviction that waits for other modules goes on once its removal is complete; one whose page the
host has unmapped meanwhile ends without an effect. -/
def State.evictOne (s : State) (ctx : BitVec 16) (not : Option Nat) : Evicted :=
  match (s.context ctx).bind Context.evicting with
  | some x =>
    match s.shootOf x.shoot with
    | some y =>
      if y.complete then
        let s1 := s.setShoot x.shoot none
        match s1.leafOf ctx x.page with
        | some l => if l.resident then .done (s1.moveAway ctx l) else .done (s1.setEvicting ctx none)
        | none => .done (s1.setEvicting ctx none)
      else .wait s
    | none => .done (s.setEvicting ctx none)
  | none =>
    match sweep ctx not (2 * (s.candidatePages ctx not).length) s with
    | (some l, s1) => s1.evictPage ctx l
    | (none, s1) => .none s1

/-- A context has mapped more than its quota. -/
def State.overQuota (s : State) (ctx : BitVec 16) : Bool :=
  match s.context ctx with
  | some c => decide (c.quota < s.residentPages ctx)
  | none => false

/-- VICTIM_EVICT (R308, R309): the controller evicts a page of a context that is over its quota, if feature bit 3 is accepted. -/
def execVictimEvict (ctx : BitVec 16) (s : State) : Host.Outcome State Fault Refusal :=
  .next (if s.feature 3 && s.overQuota ctx then
      match s.evictOne ctx none with
      | .done s1 | .none s1 => s1
      | .wait s1 => s1.ask (.victimEvict ctx)
    else s)

/-! ## Recall (R309, R310) -/

/-- A stack frame that a page of some context lies in. -/
def State.frameMapped (s : State) (pa : Nat) : Bool :=
  s.contexts.any fun c => (s.leaves (BitVec.ofNat 16 c.1)).any fun l => l.resident && decide (ptePa l.entry ≤ pa ∧ pa < ptePa l.entry + 2 ^ l.z)

/-- The stack frame that a recalled page goes to: the one freed last among those that no page lies in (LOG 35 DESIGN CHOICE). -/
def State.recallFrame (s : State) : Option Nat := s.freeStack.find? fun pa => !s.frameMapped pa

/-- The frame of a moved page given back. -/
def State.leaveFrame (s : State) : Away → State
  | .frame f => { s with frames := tabSet false s.frames f false }
  | .host => s

/-- A moved page taken off the controller's record, with its frame. -/
def State.unmove (s : State) (ctx : BitVec 16) (page : Nat) (m : MovedPage) : State :=
  match s.context ctx with
  | some c => (s.setContext ctx { c with moved := tabErase c.moved page }).leaveFrame m.away
  | none => s

/-- A moved page brought back to a stack frame, and its entry rewritten. A page that the host has unmapped or mapped elsewhere meanwhile is
only forgotten. -/
def State.bringBack (s : State) (ctx : BitVec 16) (page : Nat) (m : MovedPage) (pa : Nat) : State :=
  let s1 := s.unmove ctx page m
  match s.leafOf ctx page with
  | some l =>
    if l.resident then s1
    else
      let e := (setForm m.entry 0 &&& ~~~(0xFFFFFFFFFFC000#64)) ||| BitVec.ofNat 64 pa
      let m1 := writeBytes s1.mem pa (readBytes m.data 0 16384)
      { s1 with mem := writeNat m1 l.ea 8 e.toNat, freeStack := s1.freeStack.filter (· != pa) }
  | none => s1

/-- A moved page of a context. -/
def State.movedPage (s : State) (ctx : BitVec 16) (page : Nat) : Option MovedPage :=
  (s.context ctx).bind fun c => (c.moved.find? fun x => x.1 == page).map (·.2)

/-- A context has room for another page under its quota, and there is a frame for it. -/
def State.recallRoom (s : State) (ctx : BitVec 16) : Option Nat :=
  match s.context ctx with
  | some c => if s.residentPages ctx < c.quota then s.recallFrame else none
  | none => none

/-- VICTIM_RECALL (R309): a moved page returns to a stack frame; while its quota leaves no room, the controller evicts another page of the
context first. It waits while no page can be chosen or other modules have still to perform a removal. -/
def execVictimRecall (ctx : BitVec 16) (va : BitVec 56) (s : State) : Host.Outcome State Fault Refusal :=
  let page := pageOf va
  .next (match s.movedPage ctx page with
    | none => s
    | some m =>
      match s.recallRoom ctx with
      | some pa => s.bringBack ctx page m pa
      | none =>
        match s.evictOne ctx none with
        | .done s1 =>
          match s1.recallRoom ctx with
          | some pa => s1.bringBack ctx page m pa
          | none => s1.ask (.victimRecall ctx va)
        | .wait s1 | .none s1 => s1.ask (.victimRecall ctx va))

/-! ## Clearing a tile for a placement (R311) -/

/-- The moved pages of a context that a tile holds. -/
def Context.onTile (c : Context) (t : Nat) : List (Nat × MovedPage) :=
  c.moved.filter fun e => match e.2.away with
    | .frame f => f / 48 == t
    | .host => false

/-- A page of a reserved tile leaves it: to stack memory, or to host memory when its context's quota is full or no frame is free. A page that
the host has unmapped meanwhile is forgotten. -/
def State.clearPage (s : State) (ctx : BitVec 16) (page : Nat) (m : MovedPage) : State :=
  match s.recallRoom ctx, s.leafOf ctx page, s.context ctx with
  | some pa, _, _ => s.bringBack ctx page m pa
  | none, some l, some c =>
    if l.resident then s.unmove ctx page m
    else
      let e := setForm m.entry 2
      let s1 := (s.setContext ctx { c with moved := tabInsert (tabErase c.moved page) page { m with away := .host, entry := e } }).leaveFrame m.away
      { s1 with mem := writeNat s1.mem l.ea 8 e.toNat }
  | none, _, _ => s.unmove ctx page m

/-- A stash entry's frames on reserved tiles replaced by free ones; none when there are not enough. -/
def moveFrames (bad : Nat → Bool) : List Nat → State → Option (List Nat × State)
  | [], s => some ([], s)
  | f :: r, s =>
    if bad f then
      match takeFrames 1 { s with frames := tabSet false s.frames f false } with
      | some ([g], s1) => (moveFrames bad r s1).map fun x => (g :: x.1, x.2)
      | _ => none
    else (moveFrames bad r s).map fun x => (f :: x.1, x.2)

/-- The stash entries of a tile moved off the frames that a predicate picks. -/
def moveStash (bad : Nat → Bool) : List StashEntry → State → Option (List StashEntry × State)
  | [], s => some ([], s)
  | e :: r, s =>
    match moveFrames bad e.frames s with
    | some (fs, s1) => (moveStash bad r s1).map fun x => ({ e with frames := fs } :: x.1, x.2)
    | none => none

/-- Every stash entry of the module moved off frames; an entry that finds no other frame keeps its bytes with the controller. -/
def State.clearStash (s : State) (bad : Nat → Bool) : State :=
  (s.tiles.map (·.1)).foldl (fun s t =>
    let x := s.tile t
    match moveStash bad x.stash.entries s with
    | some (es, s1) => s1.setTile t { s1.tile t with stash := { (s1.tile t).stash with entries := es } }
    | none => s) s

/-- Every page and entry moved off the victim frames of some tiles (R311). -/
def State.clearTiles (s : State) (ts : List Nat) : State :=
  let s1 := s.contexts.foldl (fun s e => match e.2 with
    | none => s
    | some c => ts.foldl (fun s t => (c.onTile t).foldl (fun s x => s.clearPage (BitVec.ofNat 16 e.1) x.1 x.2) s) s) s
  s1.clearStash fun f => ts.contains (f / 48)

end Sys2Proof.Machine
end

