-- ==== Sys2Proof/Machine/Region.lean ====
section
/-!
DEFINITION. How a region leaves the module: its quiescence and end (11_scheduling.md R365 to R367), its references (01_machine_state.md
R50, 08_network_version_system.md R261, R264), and the tiles, memberships and places that it frees.
-/
namespace Sys2Proof.Machine

/-! ## What a tile keeps -/

/-- A tile without a region: what its hardware counts stays (R385). -/
def Tile.cleared (t : Tile) : Tile := { Tile.idle with transients := t.transients, failing := t.failing }

/-! ## References (R365, step 1; R332) -/

/-- The references of a tile given back: its pins and its stash entries, whose victim frames are freed. -/
def State.releaseTile (s : State) (t : Tile) : State :=
  let s1 := t.pins.foldl (fun s e => if e.2.valid then s.onWeights e.2.wset (·.dropRef e.2.version.toNat) else s) s
  t.stash.entries.foldl (fun s e => (s.freeFrames e.frames).onWeights (hdrSet e.header) (·.dropRef (hdrVersion e.header))) s1

/-- The reservations of a region closed: the slot set holds no version (R264). -/
def State.closeReservations (s : State) (h : BitVec 32) : State :=
  s.registry.foldl (fun s e => match e.2.reserved with
    | some (g, n) => if g = h then s.onWeights e.1 fun x => { x.setSlot n { x.slot n with version := 0 } with reserved := none } else s
    | none => s) s

/-- Every reference of a region given back. -/
def State.releaseRefs (s : State) (h : BitVec 32) : State :=
  let r := s.region h
  let s1 := (s.tilesOf r).foldl State.releaseTile s
  let s2 := r.pv.foldl (fun s e => s.onWeights e.1 fun x =>
    match e.2.pending with
    | some v => (x.dropRef v).dropRef e.2.bound
    | none => x.dropRef e.2.bound) s1
  s2.closeReservations h

/-! ## Freeing -/

/-- A region's tiles left: every tile is cleared. Dirty bytes of its L1 go with it, because a region's end is none of the occasions on
which R289 writes a line back (LOG 90 DEDUCED). -/
def State.freeTiles (s : State) (ts : List Nat) : State := s.mapTiles ts Tile.cleared

/-- The relief of a closed gang asked for by its other regions, when one of them leaves the module (R374). -/
def State.askRelief (s : State) (h : BitVec 32) : State :=
  match (s.gangOf h).find? fun g => g != h && !(s.region g).stashOpen with
  | some g => s.ask (.stashRelief g)
  | none => s

/-- The port places of a region with what its ports hold (R462). -/
def State.leavePlaces (s : State) (h : BitVec 32) : State :=
  { s with leftPorts := (s.region h).ports.foldl (fun t e => tabSet FPort.idle t (4 * e.2.plate + e.2.place) e.2) s.leftPorts }

/-- A region forgotten, with its packets between routers, and placement tried again with what it frees. -/
def State.forget (s : State) (h : BitVec 32) : State :=
  let s1 := (s.leavePlaces h).askRelief h
  { s1 with regions := tabErase s1.regions h.toNat, flying := s1.flying.filter fun f => f.handle != h }.ask .placementReserve

/-- A chained launch of a producer that ends otherwise than by R365: it goes with it. -/
def State.successorOf (s : State) (h : BitVec 32) : Option (BitVec 32) :=
  match (s.region h).successor with
  | some c => if s.live c then some c else none
  | none => none

/-- A region destroyed: its references, tiles and ports are freed (R332, R340, R357). -/
def State.destroyOne (s : State) (h : BitVec 32) : State :=
  let ts := (s.region h).tiles.filter fun t => (s.tile t).handle == h
  (((s.releaseRefs h).freeTiles ts).dropMembers h).forget h

/-- A region, the chained launch that waits for its tiles, the one that waits for that one's, and so on: at most `fuel` of them. -/
def State.chainFrom (s : State) : Nat → BitVec 32 → List (BitVec 32)
  | 0, _ => []
  | fuel + 1, h => h :: match s.successorOf h with
    | some c => if (s.region c).awaiting then s.chainFrom fuel c else []
    | none => []

/-- A region with the chained launches that wait for its tiles. -/
def State.chainOf (s : State) (h : BitVec 32) : List (BitVec 32) := s.chainFrom s.regions.length h

/-- A region destroyed, with the chained launches that wait for its tiles (LOG 36 DEDUCED). -/
def State.destroy (s : State) (h : BitVec 32) : State := (s.chainOf h).foldl State.destroyOne s

/-! ## Quiescence (R365) -/

/-- A tile on which nothing runs and nothing is pending. -/
def Tile.quiet (t : Tile) : Bool :=
  ([0, 1, 2, 3].all fun k => !(t.strand k).isFiring && (t.strand k).spillq.isEmpty)
    && t.spindle.firing.isNone && t.matrix.firing.isNone && t.inlay.firing.isNone
    && t.spindle.entries.isEmpty && t.spindle.runs.isEmpty && t.matrix.queue.isEmpty && t.inlay.queue.isEmpty
    && t.netq.isEmpty && t.copy.ops.isEmpty && (t.chunks.all fun c => !c.2.armed && c.2.left == 0)
    && (t.inject.all fun e => e.2.isEmpty) && (t.links.all fun e => e.2.isEmpty) && (t.comb.all fun e => e.2.isEmpty) && t.flow.isEmpty

/-- The channel whose producer end is a faceplate port. -/
def Region.portOut (r : Region) (n : Nat) : Option Nat := (r.channels.find? fun e => e.2.prod == .fport n).map (·.1)

/-- The channel whose consumer end is a faceplate port. -/
def Region.portIn (r : Region) (n : Nat) : Option Nat := (r.channels.find? fun e => e.2.cons == .fport n).map (·.1)

/-- A group of a port may start its next block (R401). -/
def Group.paces (g : Group) : Bool := decide ((g.sent - g.mrel).toNat < g.allowance)

/-- Blocks of a region's groups that have neither landed nor been dropped. -/
def State.blocksFlying (s : State) (h : BitVec 32) (ts : List Nat) : Bool :=
  (s.clusters.any fun c => c.2.incoming.any fun b => c.2.members.any fun m => m.handle == h && m.wgroup == b.wgroup)
    || ts.any fun t => (s.tile t).slots.any fun e => e.2.state == .landing

/-- A port is quiet (R365). -/
def Region.portQuiet (r : Region) (n : Nat) (p : FPort) : Bool :=
  let m := modeOf p.words
  p.fault.isNone && (m == 0 || p.finished
    || (m == 1 && !p.ending && (p.groups.any fun g => g.lgroup == (patternOf p.words p.pat).group && !g.paces))
    || (m == 4 && !p.ending && (match r.portOut n with
        | some ch => (r.channel ch).space == 0
        | none => false))
    || (m == 5 && !p.ending && p.run.isEmpty && (match r.portIn n with
        | some ch => (r.channel ch).tokens == 0
        | none => false)))

/-- A channel whose commits have all been counted, with no result that waits to be written. -/
def Channel.settled (c : Channel) : Bool := c.arriving.isEmpty && (c.cons != .region || c.tokens == 0)

/-- A region is quiescent (R365) (LOG 65 DEDUCED). -/
def State.quiescent (s : State) (h : BitVec 32) : Bool :=
  let r := s.region h
  r.closed && r.seedq.isEmpty && (r.channels.all fun e => e.2.settled)
    && (r.tiles.all fun t => (s.tile t).quiet && (s.tile t).actorList.all fun i => !s.permits t i)
    && (r.ports.all fun e => r.portQuiet e.1 e.2) && !s.blocksFlying h r.tiles && !s.flying.any fun f => f.handle == h

/-! ## Bank tokens (R37, R366) -/

/-- A token passed on when its holder has finished the bank. -/
def BankToken.pass (b : BankToken) : BankToken :=
  if b.next = 0 then { b with handed := true } else ⟨b.next, 0, false⟩

/-- The bank token of a tile. -/
def Tile.bankToken (t : Tile) (n : Nat) : BankToken := tabGet BankToken.idle t.bankTokens n

/-- A tile with a bank token replaced. -/
def Tile.setBankToken (t : Tile) (n : Nat) (b : BankToken) : Tile := { t with bankTokens := tabSet BankToken.idle t.bankTokens n b }

/-- Every bank token of a tile whose NEXT is not 0, passed on. -/
def Tile.handBanks (t : Tile) : Tile :=
  (upFrom 0 12).foldl (fun t n => if (t.bankToken n).next = 0 then t else t.setBankToken n (t.bankToken n).pass) t

/-- A producer's tile as its chained successor takes it: scratchpad, bank tokens and landing slots stay, and the tile is the successor's
(R367). Its bank assignment is the one of R108 until the successor's own record gives another. -/
def Tile.carried (t : Tile) (h : BitVec 32) (row col : Nat) : Tile :=
  { t.cleared with
    spad := t.spad, bankTokens := t.bankTokens, slots := t.slots, drops := t.drops, bound := some ⟨h, row, col⟩ }

/-! ## Region end -/

/-- Tokens left in a region's channels. -/
def Region.tokensLeft (r : Region) : Nat := r.channels.foldl (fun n e => n + e.2.fifo.length) 0

/-- The tiles of an ended region: freed, or carried to the chained successor. -/
def State.endTiles (s : State) (h : BitVec 32) : State :=
  let r := s.region h
  let s1 := r.ownTiles.foldl (fun s t => s.setTile t (s.tile t).handBanks) s
  match s1.successorOf h with
  | none => s1.freeTiles r.ownTiles
  | some c =>
    let s2 := s1.mapTiles r.ownTiles fun x => x.carried c x.row x.col
    (s2.wakePorts c).ask (.chainedCommit c)

/-- REGION_END (R365): a quiescent region ends; the step follows again while its seed port is closed. -/
def execRegionEnd (h : BitVec 32) (s : State) : Host.Outcome State Fault Refusal :=
  let r := s.region h
  .next (if s.live h && r.phase == .running && r.closed then
      if s.quiescent h then
        let s1 := ((s.releaseRefs h).endTiles h).dropMembers h
        (s1.forget h).post 1 0x0103 [handleWord r, BitVec.ofNat 64 r.firings, BitVec.ofNat 64 r.tokensLeft]
      else s.ask (.regionEnd h)
    else s)

end Sys2Proof.Machine
end

