-- ==== Sys2Proof/Machine/Place.lean ====
section
/-!
DEFINITION. Placement (11_scheduling.md R353 to R356): the search for room, the faceplate ports and group tables of a region
(12_wafer_fabric.md R396, R399, R402), and the reserve and commit phases.
-/
namespace Sys2Proof.Machine

/-! ## Places of ports (R402) -/

/-- A region holds places of memory faceplates: not while it is frozen, or waits for a thaw to bind it. A chained launch that waits for its
producer keeps its places. -/
def Region.holdsPlaces (r : Region) : Bool := r.awaiting || r.phase != .frozen && !(r.phase == .thawing && r.tiles.isEmpty)

/-- The port places that regions hold or that reservations take: 4 × memory faceplate + place. -/
def State.usedPlaces (s : State) : List Nat :=
  let of (ps : Table FPort) : List Nat := ps.map fun e => 4 * e.2.plate + e.2.place
  ((s.regions.filter fun e => e.2.holdsPlaces).flatMap fun e => of e.2.ports)
    ++ (s.dist.placing.toList ++ s.dist.interrupted).flatMap fun j => j.reserved.flatMap fun r => of r.ports

/-- The lowest free places, one for each of some ports; none when there are too few. -/
def State.freePlaces (s : State) (n : Nat) : Option (List Nat) :=
  let used := s.usedPlaces
  let l := ((upFrom 0 640).filter fun p => !used.contains p).take n
  if l.length = n then some l else none

/-! ## Rectangles (R353) -/

/-- The physical tiles of a rectangle of the enabled grid in logical order, if all of them are free. -/
def State.rectTiles (s : State) (x y rows cols : Nat) : Option (List Nat) :=
  ((upFrom 0 (rows * cols)).mapM fun n => s.physAt (x + n % cols) (y + n / cols)).bind fun ts =>
    if ts.all s.idleTile then some ts else none

/-- The first free rectangle: origin row, origin column and tiles. -/
def State.firstFit (s : State) (rows cols : Nat) : Option (Nat × Nat × List Nat) :=
  if rows ≤ s.gridRows ∧ cols ≤ s.gridCols then
    (upFrom 0 (s.gridRows + 1 - rows)).findSome? fun y =>
      (upFrom 0 (s.gridCols + 1 - cols)).findSome? fun x => (s.rectTiles x y rows cols).map fun ts => (y, x, ts)
  else none

/-! ## The group table (R396, R399, R406) -/

/-- Logical tiles of a group entry's rectangle. -/
def groupTiles (w : Word) (cols : Nat) : List Nat :=
  (upFrom 0 (field w 25 8 + 1)).flatMap fun y => (upFrom 0 (field w 17 8 + 1)).map fun x =>
    (field w 41 8 + y) * cols + field w 33 8 + x

/-- Plane, channel and leaf by which memory faceplate `m` reaches a cluster. -/
def sendOf (m c : Nat) : Nat × Nat × Nat := (c / 288, (c % 288 / 4 + 72 - m % 72) % 72, c % 4)

/-- The sends that reach some clusters, ascending by plane and channel; the third number is the leaf mask. -/
def sendsOf (m : Nat) (cs : List Nat) : List (Nat × Nat × Nat) :=
  let t : Table Nat := cs.foldl (fun t c =>
    let (p, ch, k) := sendOf m c
    tabSet 0 t (128 * p + ch) (tabGet 0 t (128 * p + ch) ||| 2 ^ k)) []
  t.map fun e => (e.1 / 128, e.1 % 128, e.2)

/-- Bit of a tile in its cluster's mask (LOG 61 DEDUCED). -/
def clusterBit (t : Nat) : Nat := prowOf t % 4 * 4 + pcolOf t % 4

/-- The mask of the tiles of a cluster among some tiles. -/
def clusterMask (c : Nat) (ts : List Nat) : BitVec 16 :=
  (ts.filter fun t => clusterOf t == c).foldl (fun m t => m ||| (1#16 <<< clusterBit t)) 0

/-- The lowest wafer group that no membership entry holds. -/
def State.freeGroup (s : State) : Option Nat :=
  let used := s.clusters.flatMap fun c => c.2.members.map (·.wgroup)
  (upFrom 0 4096).find? fun n => !used.contains n

/-- A group entry built: its members' clusters take it, within 64 sends and 64 membership entries. `old` gives the counters of a group
that a thaw binds again. -/
def State.buildGroup (s : State) (h : BitVec 32) (m cols : Nat) (tiles : List Nat) (w : Word) (old : Option Group) :
    Option (Group × State) :=
  let ms := groupTiles w cols
  let ts := ms.map fun n => nth 0 tiles n
  let cs := (ts.map clusterOf).eraseDups
  let sends := sendsOf m cs
  match s.freeGroup with
  | none => none
  | some g =>
    if 64 < sends.length ∨ cs.any fun c => decide (64 ≤ (s.cluster c).members.length) then none
    else
      let (sent, mrel) := match old with
        | some o => (o.sent, o.mrel)
        | none => (0, 0)
      some (⟨lgroupOf w, g, field w 49 2 + 1, ms, sends, sent, mrel⟩,
        cs.foldl (fun s c => s.setCluster c { s.cluster c with
          members := (s.cluster c).members ++ [⟨h, g, lgroupOf w, clusterMask c ts⟩] }) s)

/-- The group entries of a port built in order; the entry that cannot be built otherwise. -/
def State.buildGroups (s : State) (h : BitVec 32) (m cols : Nat) (tiles : List Nat) (old : List Group) :
    List (Nat × Word) → Except Nat (List Group × State)
  | [] => .ok ([], s)
  | (k, w) :: rest =>
    match s.buildGroup h m cols tiles w (old.find? fun g => g.lgroup == lgroupOf w) with
    | none => .error k
    | some (g, s1) =>
      match s1.buildGroups h m cols tiles old rest with
      | .ok (gs, s2) => .ok (g :: gs, s2)
      | .error e => .error e

/-- The ports of a region built at some places. `before` gives the ports of a region that thaws, with all that they hold. The error is
the frame of a group entry that cannot be built. -/
def State.buildPorts (s : State) (info : Launch) (tiles : List Nat) (before : Table FPort) :
    List (Nat × Table Word) → List Nat → Except Nat (Table FPort × State)
  | (n, ws) :: ps, place :: places =>
    let old := tabGet FPort.idle before n
    match s.buildGroups info.handle (place / 4) info.cols tiles old.groups (groupWords ws) with
    | .error g => .error (tabGet 0 info.portFrames (n * 256 + (512 + g) / 4))
    | .ok (gs, s1) =>
      match s1.buildPorts info tiles before ps places with
      | .error e => .error e
      | .ok (t, s2) => .ok (tabSet FPort.idle t n { old with words := ws, plate := place / 4, place := place % 4, groups := gs }, s2)
  | _, _ => .ok ([], s)

/-! ## Paths (R383) -/

/-- The first tile of a region from which a logical hop to a neighbour finds no path (LOG 70 DEDUCED). -/
def State.noPath (s : State) (cols : Nat) (tiles : List Nat) : Option Nat :=
  ((neighbours cols tiles).find? fun e => (s.hopPath e.1 e.2).isNone).map (·.1)

/-! ## Reserving (R354) -/

/-- How the reservation of a region ends. -/
inductive Reserved where
  | ok (r : Reservation) (s : State)
  /-- no room -/
  | full
  /-- no path from a tile -/
  | path (t : Nat)
  /-- refused with a reason and a detail -/
  | refused (reason detail : Nat)
deriving DecidableEq, Repr

/-- A region of a job reserved in a state. -/
def State.reserveRegion (s : State) (thaw : Bool) (info : Launch) : Reserved :=
  if !thaw && decide (s.gridRows < info.rows ∨ s.gridCols < info.cols) then .refused 5 (s.gridRows * 256 + s.gridCols)
  else match s.firstFit info.rows info.cols, s.freePlaces info.ports.length with
    | some (y, x, ts), some places =>
      match s.noPath info.cols ts with
      | some t => .path t
      | none =>
        match s.buildPorts info ts (if thaw then (s.region info.handle).ports else []) info.ports places with
        | .ok (ps, s1) => .ok ⟨info.handle, y, x, ts, ps⟩ s1
        | .error f => if thaw then .full else .refused 3 f
    | _, _ => .full

/-- The regions of a job find room one after another (R353). A job that the grid refuses, or a binding that cannot be used, counts as
fitting: its turn finds out. -/
def State.fitsFrom (s : State) (j : Job) : List Launch → Bool
  | [] => true
  | i :: rest =>
    match { s with dist := { s.dist with placing := some j } }.reserveRegion j.thaw i with
    | .ok r s1 => s1.fitsFrom { j with reserved := j.reserved ++ [r] } rest
    | .full => false
    | _ => true

/-- A job fits now. -/
def State.fits (s : State) (j : Job) : Bool := s.fitsFrom { j with reserved := [] } j.members

/-- A column stands to be disabled because a logical hop has no path: nothing is placed before that (R383). -/
def State.pathPending (s : State) : Bool := s.toRetire.any fun e => e.2 == .gridRetired

/-- The head of the highest queue whose head fits, among the queues above a priority; none while a hop without a path waits for its column
to be disabled. -/
def State.nextJob (s : State) (below : Nat) : Option Job :=
  if s.pathPending then none
  else (upFrom 0 below).findSome? fun p =>
    match tabGet [] s.dist.queues p with
    | j :: _ => if s.fits j then some j else none
    | [] => none

/-- The state with the job that the distributor places replaced. -/
def State.setPlacing (s : State) (j : Option Job) : State := { s with dist := { s.dist with placing := j } }

/-- A job taken from the head of its queue and placed. -/
def State.takeJob (s : State) (j : Job) : State :=
  let q := tabGet [] s.dist.queues j.prio
  ({ s with dist := { s.dist with queues := tabSet [] s.dist.queues j.prio q.tail } }.setPlacing (some j)).ask .placementReserve

/-- A job refused as a whole: what it reserved is released, and each region's launch is reported (R350). -/
def State.refuseJob (s : State) (j : Job) (reason detail : Nat) : State :=
  let s1 := (j.reserved.foldl (fun s x => s.dropMembers x.handle) s).setPlacing none
  (j.members.foldl (fun s i => s.launchError i reason detail) s1).ask .placementReserve

/-- The next region of the placing job reserved. Pages and stash entries leave its tiles at once (R311). -/
def State.reserveNext (s : State) (j : Job) : State :=
  match j.members.find? fun i => !j.reserved.any fun r => r.handle == i.handle with
  | none => (s.setPlacing (some { j with committing := true })).ask .placementCommit
  | some i =>
    match s.reserveRegion j.thaw i with
    | .ok r s1 => ((s1.setPlacing (some { j with reserved := j.reserved ++ [r] })).clearTiles r.tiles).ask .placementReserve
    | .full => ((s.putBack j).setPlacing none).ask .placementReserve
    | .path t =>
      let s1 := (s.putBack j).setPlacing none
      (({ s1 with toRetire := s1.toRetire ++ [(t, Cause.gridRetired)] } : State).ask .gridRetire).ask .placementReserve
    | .refused reason detail => s.refuseJob j reason detail

/-- PLACEMENT_RESERVE (R353 to R355): the distributor chooses a job, or reserves the next region of the job that it places. A job that
a higher one interrupted in its commit phase goes on when no higher one fits. While a hop without a path waits for its column to be
disabled, no job is chosen and no region reserved; a job in its commit phase ends (R383, R354). -/
def execPlacementReserve (s : State) : Host.Outcome State Fault Refusal :=
  .next (match s.dist.placing with
    | some j => if j.committing then s.ask .placementCommit else if s.pathPending then s else s.reserveNext j
    | none =>
      match s.nextJob (match s.dist.interrupted with
        | k :: _ => k.prio
        | [] => 4) with
      | some j => s.takeJob j
      | none =>
        match s.dist.interrupted with
        | k :: rest => ({ s with dist := { s.dist with interrupted := rest } }.setPlacing (some k)).ask .placementCommit
        | [] => s)

/-! ## Committing (R354) -/

/-- A tile bound to a region: its state is cleared, and so every scratchpad bank reads 0. -/
def State.bindTile (s : State) (h : BitVec 32) (t row col : Nat) : State :=
  s.setTile t { (s.tile t).cleared with bound := some ⟨h, row, col⟩ }

/-- The tiles of a region bound in logical order. -/
def State.bindTiles (s : State) (h : BitVec 32) (cols : Nat) : Nat → List Nat → State
  | _, [] => s
  | n, t :: ts => (s.bindTile h t (n / cols) (n % cols)).bindTiles h cols (n + 1) ts

/-- A region as its commit makes it. -/
def Region.ofLaunch (info : Launch) (gen : BitVec 16) (r : Reservation) : Region :=
  { Region.idle with info := info, gen := gen, phase := .loading, originRow := r.row, originCol := r.col, tiles := r.tiles, ports := r.ports }

/-- A region bound to the tiles of a reservation, with its ports as the reservation built them. -/
def State.rebind (s : State) (h : BitVec 32) (r : Reservation) : State :=
  s.setRegion h { s.region h with originRow := r.row, originCol := r.col, tiles := r.tiles, ports := r.ports }

/-- A chained launch that still waits for places for its ports (R367). -/
def State.portsDue (s : State) (h : BitVec 32) : Bool := s.live h && (s.region h).ports.isEmpty && !(s.region h).info.ports.isEmpty

/-- A chained launch whose producer has been bound to other tiles: its group tables are built for them at its own places. -/
def State.followProducer (s : State) (c : BitVec 32) (r : Reservation) : State :=
  let x := s.region c
  let s1 := s.dropMembers c
  if s.portsDue c then s1.rebind c { r with handle := c, ports := [] }
  else match s1.buildPorts x.info r.tiles x.ports x.info.ports (x.info.ports.map fun e =>
      4 * (tabGet FPort.idle x.ports e.1).plate + (tabGet FPort.idle x.ports e.1).place) with
  | .ok (ps, s2) => s2.rebind c { r with handle := c, ports := ps }
  | .error f => (s1.destroy c).launchError x.info 3 f

/-- The places that some ports take no longer hold what a region left there. -/
def State.takePlaces (s : State) (ps : Table FPort) : State :=
  { s with leftPorts := ps.foldl (fun t e => tabErase t (4 * e.2.plate + e.2.place)) s.leftPorts }

/-- A region of a job committed on its reservation. -/
def State.commitRegion (s : State) (thaw : Bool) (info : Launch) (r : Reservation) : State :=
  let h := info.handle
  if thaw then
    let s1 := (s.chainOf h).tail.foldl (fun s c => if s.live c then s.followProducer c r else s) (s.rebind h r)
    (((s1.bindTiles h info.cols 0 r.tiles).writePasses h info.cols r.tiles).takePlaces r.ports).push (.thawRestore h [])
  else
    let s1 := (s.setRegion h (Region.ofLaunch info (s.genOf info.ctx) r)).bindTiles h info.cols 0 r.tiles
    ((s1.writePasses h info.cols r.tiles).takePlaces r.ports).ask (.placementLoad h)

/-- PLACEMENT_COMMIT (R354, R355): the next region of the placing job is bound, unless a job of higher priority that fits goes first. -/
def execPlacementCommit (s : State) : Host.Outcome State Fault Refusal :=
  .next (match s.dist.placing with
    | none => s.ask .placementReserve
    | some j =>
      if !j.committing then s.ask .placementReserve
      else
        let s0 := { s with dist := { s.dist with interrupted := j :: s.dist.interrupted, placing := none } }
        match s0.nextJob j.prio with
        | some k => s0.takeJob k
        | none =>
          match j.members with
          | [] => (s.setPlacing none).ask .placementReserve
          | i :: rest =>
            match j.reserved.find? fun r => r.handle == i.handle with
            | none => ((s.putBack j).setPlacing none).ask .placementReserve
            | some r =>
              ((s.setPlacing (some { j with members := rest, reserved := j.reserved.filter fun x => x.handle != i.handle })).commitRegion
                j.thaw i r).ask .placementCommit)

end Sys2Proof.Machine
end

