-- ==== Sys2Proof/Machine/Launch.lean ====
section
/-!
DEFINITION. Launch and END records, and the checks of intake (11_scheduling.md R347 to R352, R367): the image read through the host
faceplate, gangs, and the ports of a chained launch.
-/
namespace Sys2Proof.Machine

/-! ## Reading an image (R350) -/

/-- How the fetch of a frame ends. -/
inductive Fetched (α : Type) where
  | ok (v : α)
  | hold (m : Option Mark)
  | fail (c : Cause)
deriving DecidableEq, Repr

/-- A frame fetched once its translation has ended. -/
def State.frameOf : State × ElemTrans → State × Fetched Frame
  | (s, .ok pa) =>
    (s.burst [pa], if s.anyUncorr pa 32 then .fail .stateUncorrectable else .ok (BitVec.ofNat 256 (readNat s.mem pa 32)))
  | (s, .hold m) => (s, .hold m)
  | (s, .fail c) => (s, .fail c)

/-- Address of a frame of an image. -/
def frameVa (va : BitVec 56) (n : Nat) : BitVec 56 := va + BitVec.ofNat 56 (32 * n)

/-- A frame of an image fetched by the address generator of the host faceplate. Its fault record has ROW 0xFF and a COL that the spec
does not give (LOG 34 DESIGN CHOICE) (LOG 68 DEDUCED). -/
def State.hostFrame (s : State) (ctx : BitVec 16) (va : BitVec 56) (n : Nat) : State × Fetched Frame :=
  State.frameOf (s.elementPa hostTile false ctx 3 (frameVa va n) false 0xFF Config.hostPlateCol (n % 4096))

/-- `k` frames of an image from frame `n` on. -/
def State.hostFrames (ctx : BitVec 16) (va : BitVec 56) : Nat → Nat → State → State × Fetched (List Frame)
  | 0, _, s => (s, .ok [])
  | k + 1, n, s =>
    match s.hostFrame ctx va n with
    | (s1, .hold m) => (s1, .hold m)
    | (s1, .fail c) => (s1, .fail c)
    | (s1, .ok f) =>
      match State.hostFrames ctx va k (n + 1) s1 with
      | (s2, .ok fs) => (s2, .ok (f :: fs))
      | r => r

/-- A whole image. -/
def State.hostImage (s : State) (ctx : BitVec 16) (va : BitVec 56) : State × Fetched (List Frame) :=
  match s.hostFrame ctx va 0 with
  | (s1, .ok h0) => State.hostFrames ctx va (imageFrames h0) 0 s1
  | (s1, .hold m) => (s1, .hold m)
  | (s1, .fail c) => (s1, .fail c)

/-! ## Records (R347, R348) -/

/-- A word of a record. -/
def recWord (ws : List Word) (n : Nat) : Word := nth 0 ws n

/-- The launch that a record describes (Table 11.1). -/
def Launch.ofWords (ws : List Word) : Launch :=
  let w := recWord ws
  { Launch.idle with
    handle := (w 0).extractLsb' 32 32
    ctx := (w 0).extractLsb' 16 16
    rows := field (w 0) 8 8
    cols := field (w 0) 0 8
    prio := field (w 1) 62 2
    chained := (w 1).getLsbD 61
    imageVa := (w 1).truncate 56
    seed := w 2
    gangTag := (w 3).extractLsb' 42 22
    gangSize := field (w 3) 36 6
    member := field (w 3) 30 6
    chainFrom := (w 4).extractLsb' 32 32
    wset := field (w 4) 26 6
    maxLag := field (w 4) 18 8
    resultBa := w 5
    resultCap := field (w 6) 0 24 }

/-- The first word of a launch record that check 1 refuses. A RESULTBA that is no multiple of 64 passes, and is used as it stands (LOG 125
DEDUCED). -/
def badWord (ws : List Word) : Option Nat :=
  let w := recWord ws
  let i := Launch.ofWords ws
  if !decide (1 ≤ i.rows ∧ i.rows ≤ 180 ∧ 1 ≤ i.cols ∧ i.cols ≤ 184) then some 0
  else if field (w 1) 56 5 ≠ 0 ∨ i.imageVa.toNat % 32 ≠ 0 then some 1
  else if field (w 3) 0 30 ≠ 0 ∨ (i.gangTag = 0 ∧ (i.gangSize ≠ 0 ∨ i.member ≠ 0)) ∨ i.gangSize < i.member then some 3
  else if field (w 4) 0 18 ≠ 0 then some 4
  else if field (w 6) 24 40 ≠ 0 then some 6
  else if field (w 7) 56 8 ≠ 1 ∨ field (w 7) 48 8 ≠ 0 ∨ field (w 7) 0 48 ≠ 0 then some 7
  else none

/-- The first word of an END record that is wrong. -/
def badEndWord (ws : List Word) : Option Nat :=
  if field (recWord ws 0) 0 32 ≠ 0 then some 0
  else match (upFrom 1 6).find? fun n => recWord ws n != 0 with
    | some n => some n
    | none => if field (recWord ws 7) 56 8 ≠ 1 ∨ field (recWord ws 7) 0 48 ≠ 0 then some 7 else none

/-- An END record taken from the intake queue (R351): the seed port of its region is closed to new entries at once (LOG 67 DEDUCED). -/
def State.endRecord (s : State) (ws : List Word) : State :=
  let i := Launch.ofWords ws
  match badEndWord ws with
  | some n => s.launchError i 1 n
  | none =>
    if s.live i.handle then
      let s1 := s.setRegion i.handle { s.region i.handle with closing := true }
      (s1.seedClose i.handle).ask (.seedDelivery i.handle)
    else s.launchError i 2 0

/-- The eight words of the launch window. -/
def State.windowWords (s : State) : List Word := (upFrom 0 8).map fun n => tabGet 0 s.dist.window n

/-- A word-7 write of the launch window (R347): its record joins the intake queue, unless that is full. -/
def State.takeRecord (s : State) (w7 : Word) : State :=
  let s1 := { s with dist := { s.dist with window := tabSet 0 s.dist.window 7 w7 } }
  let ws := s1.windowWords
  if 16 ≤ s1.dist.intake.length then s1.post 1 0x0109 [BitVec.ofNat 64 ((Launch.ofWords ws).handle.toNat * 2 ^ 32)]
  else { s1 with dist := { s1.dist with intake := s1.dist.intake ++ [ws] } }.ask .launchIntake

/-- LAUNCH_RECORD (R347). -/
def execLaunchRecord (w7 : Word) (s : State) : Host.Outcome State Fault Refusal := .next (s.takeRecord w7)

/-- END_RECORD (R351). -/
def execEndRecord (w7 : Word) (s : State) : Host.Outcome State Fault Refusal := .next (s.takeRecord w7)

/-! ## The checks of intake (Table 11.3) -/

/-- The launches that have passed intake and stand in no region. -/
def State.queued (s : State) : List Launch :=
  s.dist.gangs ++ (s.dist.queues.flatMap fun e => e.2.flatMap fun j => j.members)
    ++ (s.dist.placing.toList ++ s.dist.interrupted).flatMap fun j => j.members

/-- A handle names a region that is live or queued. -/
def State.handleTaken (s : State) (h : BitVec 32) : Bool := s.live h || s.queued.any fun i => i.handle == h

/-- The lowest bit that is set. -/
def lowestBit (v : BitVec 256) : Option Nat := (upFrom 0 256).find? v.getLsbD

/-- A gang of a tag has been queued or placed. -/
def State.gangPlaced (s : State) (tag : BitVec 22) : Bool :=
  (s.regions.any fun e => e.2.info.gangTag == tag)
    || (s.queued.any fun i => i.gangTag == tag && !s.dist.gangs.contains i)

/-- Check 6 fails for a record of a gang (LOG 66 DEDUCED). -/
def State.gangBad (s : State) (i : Launch) : Bool :=
  i.gangTag != 0 && (i.chained || s.gangPlaced i.gangTag
    || (s.dist.gangs.any fun k => k.gangTag == i.gangTag && (k.ctx != i.ctx || k.prio != i.prio || k.member == i.member)))

/-- Check 7 fails for a chained record. -/
def State.chainBad (s : State) (i : Launch) : Bool :=
  let r := s.region i.chainFrom
  i.chained && !(s.live i.chainFrom && r.info.ctx == i.ctx && r.info.rows == i.rows && r.info.cols == i.cols
    && (s.successorOf i.chainFrom).isNone)

/-- What intake keeps of an image. -/
def Launch.withImage (i : Launch) (im : List Frame) : Launch :=
  let e := elements (payloads im)
  { i with
    imageId := BitVec.ofNat 32 (fr (frameAt im 0) 192 32)
    digest := frameAt im 3
    ports := portsOf e
    portFrames := portFramesOf e }

/-- Checks 3 to 7 on a record whose image has been read: the reason and the detail of the first that fails. -/
def State.refusal (s : State) (i : Launch) (im : List Frame) : Option (Nat × Nat) :=
  match checkImage (s.feature 6) i.rows i.cols im with
  | some f => some (3, f)
  | none =>
    match lowestBit (requiredFeatures im &&& ~~~s.accepted) with
    | some b => some (4, b)
    | none =>
      if s.gridRows < i.rows ∨ s.gridCols < i.cols then some (5, s.gridRows * 256 + s.gridCols)
      else if s.gangBad i then some (6, i.member)
      else if s.chainBad i then some (7, i.chainFrom.toNat)
      else none

/-! ## Chained launches (R367, step 1) -/

/-- The weight sets that a region reads from configuration load on (R261). -/
def Launch.weightSets (i : Launch) : List Nat :=
  (((i.ports.filter fun e => versioned e.2).map fun e => wsetOf e.2) ++ if 0 < i.maxLag then [i.wset] else []).eraseDups

/-- Weight sets bound to their published versions, each with its binding reference (R261). A set that is bound already stays. -/
def State.bindSets (s : State) (h : BitVec 32) (ws : List Nat) : State :=
  ws.foldl (fun s w =>
    let r := s.region h
    if (r.pvOf w).reads then s
    else
      let v := (s.weights w).published
      (s.onWeights w (·.addRef v)).setRegion h (r.setPv w { PvBind.idle with reads := true, bound := v })) s

/-- A region's tiles are bound; those of a chained launch that waits are bound when its producer's are. -/
def State.placed (s : State) : Nat → BitVec 32 → Bool
  | 0, _ => false
  | fuel + 1, h =>
    let r := s.region h
    if r.awaiting && s.live r.info.chainFrom then s.placed fuel r.info.chainFrom else r.holdsPlaces

/-- The address of the slot set that holds a version of a weight set (R264, R408). -/
def State.slotBase (s : State) (w v : Nat) : BitVec 56 :=
  match (s.weights w).holder v with
  | some k => ((s.weights w).slot k).va
  | none => 0

/-- A port whose addresses lie in the slot set of its weight set's bound version (R404). -/
def versionedPort (ws : Table Word) : Bool := versioned ws && [1, 2, 4].contains (modeOf ws)

/-- A pointer with its address replaced. -/
def ptrAt (p : Word) (va : Nat) : Word := (p &&& 0xFF00000000000000) ||| BitVec.ofNat 64 (va % 2 ^ 56)

/-- Address of the row of a pattern that element `i` lies in (R405, R408). -/
def Pattern.rowVa (p : Pattern) (base : BitVec 56) (i : Nat) : Nat :=
  ((p.ptr.truncate 56 : BitVec 56) + base + BitVec.truncate 56 (BitVec.ofNat 64 (i / p.per) * p.stride)).toNat

/-- The delivered width of a pattern. -/
def Pattern.width (p : Pattern) : Nat := outWidth p.fmt p.outf

/-- Bytes of memory from the start of a row of a pattern that a port of a mode reads or writes. The length of a Shaving stream is not known
before it is decoded: its first byte stands for it. -/
def Pattern.rowBytes (p : Pattern) (mode va : Nat) : Nat :=
  if mode = 3 ∨ mode = 5 then packedBytes p.width p.per else if p.decode then 1 else extentBytes (ptrAt p.ptr va) p.per

/-- The pages that the rows of a pattern lie in. -/
def Pattern.pages (p : Pattern) (mode : Nat) (base : BitVec 56) : List Nat :=
  if mode = 0 ∨ 10 ≤ p.fmt then []
  else (upFrom 0 p.rows).flatMap fun r =>
    let va := p.rowVa base (r * p.per)
    upFrom (va / 16384) ((va + p.rowBytes mode va + 16383) / 16384 - va / 16384)

/-- The port with a page base latched in place of any other for the address (R305). -/
def FPort.latchBase (x : FPort) (e : TlbEntry) (va : BitVec 56) : FPort :=
  { x with bases := e :: x.bases.filter fun b => !b.hits e.ctx e.gen va }

/-- The base of a page latched by a port's address generator, through the L2-TLB of its faceplate's cluster; a page without a translation has
none yet (R305, R402) (LOG 99 DEDUCED). -/
def State.latchPage (h : BitVec 32) (n : Nat) (s : State) (page : Nat) : State :=
  let r := s.region h
  let x := r.port n
  let gen := s.genOf r.info.ctx
  let va := BitVec.ofNat 56 (page * 16384)
  let tn := plateTile x.plate
  if x.bases.any fun e => e.hits r.info.ctx gen va then s
  else match s.translate tn false r.info.ctx va false false with
    | (s1, .ok _) =>
      match (s1.cluster (clusterOf tn)).l2tlb.find? fun e => e.hits r.info.ctx gen va with
      | some e => s1.setRegion h ((s1.region h).setPort n (((s1.region h).port n).latchBase e va))
      | none => s1
    | (s1, _) => s1

/-- The pages of every pattern of a port at its configuration; a VERSIONED port's lie in the slot set of the bound version, if one is bound. -/
def State.portPages (s : State) (h : BitVec 32) (x : FPort) : List Nat :=
  let v := ((s.region h).pvOf (wsetOf x.words)).bound
  let base := if versionedPort x.words then s.slotBase (wsetOf x.words) v else 0
  if versionedPort x.words && v == 0 then []
  else (upFrom 0 (npat x.words)).flatMap fun k => (patternOf x.words k).pages (modeOf x.words) base

/-- The page bases that the ports of a region latch when they are configured (R305). -/
def State.latchPorts (s : State) (h : BitVec 32) : State :=
  (s.region h).ports.foldl (fun s e => (s.portPages h e.2).foldl (State.latchPage h e.1) s) s

/-- A chained launch's ports built at free places, bound and started (R367, step 1); none while too few places are free, while no tiles are
bound, or while it is frozen. A group entry that cannot be built destroys it, with reason 3 (LOG 71 DEDUCED). -/
def State.givePorts (s : State) (h : BitVec 32) : Option State :=
  let r := s.region h
  let may := (r.phase == .committed || r.phase == .loading) && s.placed (s.regions.length + 1) h
  match if may then s.freePlaces r.info.ports.length else none with
  | none => none
  | some places =>
    match s.buildPorts r.info r.tiles [] r.info.ports places with
    | .error f => some ((s.destroy h).launchError r.info 3 f)
    | .ok (ps, s1) =>
      let sets := (r.info.ports.filter fun e => versioned e.2).map fun e => wsetOf e.2
      let s2 := (((s1.setRegion h { s1.region h with ports := ps }).bindSets h sets).takePlaces ps).latchPorts h
      some (if r.phase == .loading then s2.ask (.placementLoad h) else s2.wakePorts h)

/-- The ports of a chained launch given, or put off while they are due. -/
def State.tryPorts (s : State) (i : Launch) : State :=
  if s.portsDue i.handle then
    (s.givePorts i.handle).getD ({ s with dist := { s.dist with chainWait := s.dist.chainWait ++ [i] } }.ask .launchIntake)
  else s

/-- The chained launches whose ports are due, tried again, the oldest first. -/
def State.retryChained (s : State) : State := s.dist.chainWait.foldl State.tryPorts { s with dist := { s.dist with chainWait := [] } }

/-- A chained launch that has passed the checks: it stands as a region on its producer's tiles, and its ports run at once under its own
handle, once there are places for them; intake goes on meanwhile (R367, step 1) (LOG 71 DEDUCED). -/
def State.startChained (s : State) (i : Launch) : State :=
  let p := s.region i.chainFrom
  let r : Region := { Region.ofLaunch i (s.genOf i.ctx) ⟨i.handle, p.originRow, p.originCol, p.tiles, []⟩ with
    phase := .committed, awaiting := true }
  State.tryPorts ((s.setRegion i.handle r).setRegion i.chainFrom { p with successor := some i.handle }) i

/-! ## Intake -/

/-- A record that has passed every check joins the placement queue of its PRIO, alone or with its whole gang (R350, R352). -/
def State.takeIn (s : State) (i : Launch) : State :=
  if i.gangTag = 0 then s.joinQueue ⟨[i], i.prio, [], false, false⟩
  else
    let mine := (s.dist.gangs.filter fun k => k.gangTag == i.gangTag) ++ [i]
    if mine.length = (nth Launch.idle mine 0).gangSize + 1 then
      let ms := (upFrom 0 64).filterMap fun n => mine.find? fun k => k.member == n
      { s with dist := { s.dist with gangs := s.dist.gangs.filter fun k => k.gangTag != i.gangTag } }.joinQueue ⟨ms, i.prio, [], false, false⟩
    else { s with dist := { s.dist with gangs := s.dist.gangs ++ [i] } }

/-- How intake of a record ends. -/
inductive Intake where
  | done (s : State)
  | hold (s : State) (m : Option Mark)
deriving DecidableEq, Repr

/-- Intake of a record from check 3 on. -/
def State.intakeImage (s : State) (i : Launch) : Intake :=
  match s.hostImage i.ctx i.imageVa with
  | (s1, .hold m) => .hold s1 m
  | (s1, .fail _) => .done (s1.launchError i 3 0xFFFFFFFFFFFF)
  | (s1, .ok im) =>
    let k := i.withImage im
    match s1.refusal k im with
    | some (reason, detail) => .done (s1.launchError k reason detail)
    | none =>
      .done (if k.chained then s1.startChained k else s1.takeIn k)

/-- Intake of a record. `denied`: the host has denied a page of its image. -/
def State.intakeRecord (s : State) (ws : List Word) (denied : Bool) : Intake :=
  let i := Launch.ofWords ws
  if field (recWord ws 7) 48 8 = 1 then .done (s.endRecord ws)
  else match badWord ws with
  | some n => .done (s.launchError i 1 n)
  | none =>
    if i.handle = 0 ∨ s.handleTaken i.handle then .done (s.launchError i 2 0)
    else if denied then .done (s.launchError i 3 0xFFFFFFFFFFFF)
    else s.intakeImage i

/-- The state with the fault that holds intake replaced. -/
def State.setIntakeFault (s : State) (m : Option Mark) : State := { s with dist := { s.dist with fault := m } }

/-- LAUNCH_INTAKE (R350): the record at the head of the intake queue is checked, and joins a placement queue or is refused. A fabric
fault of the host faceplate holds it, and later records wait. The ports that chained launches are due are tried first. No record is
taken up before BOOT_DONE (R441). -/
def execLaunchIntake (start : State) : Host.Outcome State Fault Refusal :=
  let s := start.retryChained
  .next (match s.dist.intake with
    | [] => s
    | ws :: rest =>
      let waiting : Bool := match s.dist.fault with
        | some m => m.answer == .waiting
        | none => false
      let denied : Bool := match s.dist.fault with
        | some m => m.answer == .denied
        | none => false
      if waiting || !s.bootstat.getLsbD 6 then s
      else match (s.setIntakeFault none).intakeRecord ws denied with
        | .hold s1 (some m) => s1.setIntakeFault (some m)
        | .hold s1 none => s1.ask .launchIntake
        | .done s1 =>
          let s2 := { s1 with dist := { s1.dist with intake := rest } }
          if rest.isEmpty then s2 else s2.ask .launchIntake)

end Sys2Proof.Machine
end

