-- ==== Sys2Proof/Machine/Load.lean ====
section
/-!
DEFINITION. The load phase (11_scheduling.md R357, R367; 03_encoding_and_assembly.md R101, R107, R108), the configuration-complete wave
(R358, R359; 09_memory_model.md R303), and the commit of a chained launch.
-/
namespace Sys2Proof.Machine

/-! ## Streaming the frames -/

/-- A frame of a region's image: a payload through the I-TLB of the tile that receives it, and the others through the host
faceplate. -/
def State.loadFrame (s : State) (h : BitVec 32) (dest : Option Nat) (n : Nat) : State × Fetched Frame :=
  let i := (s.region h).info
  match dest with
  | none => s.hostFrame i.ctx i.imageVa n
  | some t =>
    let va := frameVa i.imageVa n
    State.frameOf (State.elementEnd t i.ctx 3 va false 0xFF Config.hostPlateCol (n % 4096) (s.frameTrans t i.ctx va))

/-- The tile that receives the payload of a target address. -/
def Region.receiver (r : Region) (target : Nat) : Option Nat := if tClass target = 0 then none else r.tiles[tTile target]?

/-- Some frames of a region's image in order, each with its receiver. -/
def State.loadFrames (h : BitVec 32) : List (Option Nat) → Nat → State → State × Fetched (List Frame)
  | [], _, s => (s, .ok [])
  | dest :: rest, n, s =>
    match s.loadFrame h dest n with
    | (s1, .hold m) => (s1, .hold m)
    | (s1, .fail c) => (s1, .fail c)
    | (s1, .ok f) =>
      match State.loadFrames h rest (n + 1) s1 with
      | (s2, .ok fs) => (s2, .ok (f :: fs))
      | r => r

/-- The body blocks of a region's image: `k` blocks from frame `n` on. -/
def State.loadBlocks (h : BitVec 32) : Nat → Nat → State → State × Fetched (List Frame)
  | 0, _, s => (s, .ok [])
  | k + 1, n, s =>
    match s.loadFrame h none n with
    | (s1, .hold m) => (s1, .hold m)
    | (s1, .fail c) => (s1, .fail c)
    | (s1, .ok a) =>
      match State.loadFrames h ((upFrom 0 8).map fun j => (s1.region h).receiver (fr a (32 * j) 32)) (n + 1) s1 with
      | (s2, .ok fs) =>
        match State.loadBlocks h k (n + 9) s2 with
        | (s3, .ok gs) => (s3, .ok (a :: fs ++ gs))
        | r => r
      | r => r

/-- The whole image of a region. -/
def State.loadImage (s : State) (h : BitVec 32) : State × Fetched (List Frame) :=
  match State.loadFrames h [none, none, none, none] 0 s with
  | (s1, .ok hs) =>
    match State.loadBlocks h (blocksOf (hs.headD 0)) 4 s1 with
    | (s2, .ok fs) => (s2, .ok (hs ++ fs))
    | r => r
  | r => r

/-- The digest of an image (R102). -/
def digestOf (im : List Frame) : BitVec 256 := shaValue ((im.take 3 ++ im.drop 4).flatMap fun f => natLe 32 f.toNat)

/-! ## Delivering (R107, R108, R367) -/

/-- The banks whose token a region has taken over from its producer. -/
def Tile.keptBanks (t : Tile) (h : BitVec 32) : List Nat := (upFrom 0 12).filter fun n => (t.bankToken n).holder == h

/-- Tokens of the kept banks put back over those that the image gives. -/
def Tile.keepTokens (t : Tile) (old : Tile) (kept : List Nat) : Tile := kept.foldl (fun t n => t.setBankToken n (old.bankToken n)) t

/-- A payload lies in a kept bank. -/
def inKept (kept : List Nat) (p : Payload) : Bool := isDataClass (tClass p.target) && kept.contains (dataOffset p.target / 0x10000)

/-- A tile loaded with its payloads in image order, over the values of R108. -/
def Tile.load (t : Tile) (h : BitVec 32) (ps : List Payload) : Tile :=
  let kept := t.keptBanks h
  let t1 := (ps.filter fun p => !inKept kept p).foldl Tile.deliver { t with bankTokens := heldTokens h }
  (t1.keepTokens t kept).preload

/-- The payloads that name a logical tile. -/
def payloadsOf (ps : List Payload) (n : Nat) : List Payload := ps.filter fun p => tClass p.target != 0 && tClass p.target != 7 && tTile p.target == n

/-- Every tile of a region loaded. -/
def State.loadTiles (s : State) (h : BitVec 32) (ps : List Payload) : Nat → List Nat → State
  | _, [] => s
  | n, t :: ts => (s.setTile t ((s.tile t).load h (payloadsOf ps n))).loadTiles h ps (n + 1) ts

/-- What an image gives the region as a whole. -/
def Region.loadFrom (r : Region) (im : List Frame) : Region :=
  let h0 := frameAt im 0
  { r with
    defRm := fr h0 141 3
    defDzt := fr h0 140 1 == 1
    sinkVa := BitVec.ofNat 56 (fr h0 40 56)
    sinkCap := fr h0 16 24
    saveMask := BitVec.ofNat 30 (fr (frameAt im 2) 0 30)
    channels := channelsOf (elements (payloads im)) }

/-- The end of configuration load: its ports latch their page bases, unless they have run since it was accepted as a chained launch (R305,
R367); the region runs, and the wave enters its first tile (R358). A region whose seed port was closed while it loaded may end (R365). -/
def State.loadDone (s : State) (h : BitVec 32) (im : List Frame) : State :=
  let r := { (s.region h).loadFrom im with loaded := true, phase := .running, thaws := (s.region h).thaws + 1 }
  let s1 := (s.loadTiles h (payloads im) 0 r.tiles).mapTiles r.tiles fun t => t.configure r (s.feature 6)
  let s2 := (s1.setRegion h r).bindSets h r.info.weightSets
  let s2 := if r.info.chained then s2 else s2.latchPorts h
  let s3 := (s2.push (.configCompleteWave (r.physical 0))).wakePorts h
  if r.closed then s3.ask (.regionEnd h) else s3

/-- PLACEMENT_LOAD (R357): the image's frames are streamed to the region's tiles. A page fault holds the load, and so does a module that the
switches reject (LOG 87 DEDUCED), and a chained launch's waits until its ports have places; a denied answer, or a digest that differs from intake's, destroys the region. -/
def execPlacementLoad (h : BitVec 32) (s : State) : Host.Outcome State Fault Refusal :=
  let r := s.region h
  .next (if s.live h && r.phase == .loading then
      let waiting : Bool := match r.loadFault with
        | some m => m.answer == .waiting
        | none => false
      let denied : Bool := match r.loadFault with
        | some m => m.answer == .denied
        | none => false
      if waiting || s.portsDue h then s
      else if denied then (s.destroy h).launchError r.info 3 0xFFFFFFFFFFFF
      else
        match (s.setRegion h { r with loadFault := none }).loadImage h with
        | (s1, .hold (some m)) => s1.setRegion h { s1.region h with loadFault := some m }
        | (s1, .hold none) | (s1, .fail .topoStale) => s1.ask (.placementLoad h)
        | (s1, .fail c) => s1.freezeRegion h (some c) none []
        | (s1, .ok im) =>
          if digestOf im = r.info.digest then s1.loadDone h im
          else (s1.destroy h).launchError r.info 8 0
    else if s.live h && r.phase == .thawing then s.ask (.thawRestore h [])
    else s)

/-! ## The wave (R303, R358) -/

/-- An engine port of a tile is bound to a channel end or a queue register (R463). -/
def Region.portBound (r : Region) (t : Tile) (port : Nat) : Bool :=
  let e := End.engine (logicalOf r t) port
  (r.channels.any fun c => c.2.prod == e || c.2.cons == e) || t.queues.any fun q => q.2 == .input port || q.2 == .output port

/-- A handle that no record has given a value counts as not bound (R223) (LOG 72 DEDUCED). -/
def Tile.ringBound (t : Tile) (h : Nat) : Bool := tabGet Handle.idle t.handles h != Handle.idle

/-- A side of a matrix operation is bound: a ring, or one of the matrix ports, which are engine ports 0 to 7 (R223, R463). -/
def Region.sideBound (r : Region) (t : Tile) : Side → Bool
  | .ring h => t.ringBound h
  | .port k => decide (k < 8) && r.portBound t k
  | .queue _ => true

/-- What a matrix operation of a record names is bound. -/
def Region.opBound (r : Region) (t : Tile) : MxOp → Bool
  | .loadRing h _ => t.ringBound h
  | .macc _ _ (.port k) _ _ _ => decide (k < 4) && r.sideBound t (.port k)
  | .macc _ _ src _ _ _ => r.sideBound t src
  | .drain _ dst _ _ _ => r.sideBound t dst
  | _ => true

/-- A word of a set-up record can fire: it is a matrix instruction that passes R97 under the accepted feature bits, and what it names is
bound. -/
def Region.wordFires (r : Region) (log6 sr : Bool) (t : Tile) (w : Word) : Bool :=
  match decodeMatrix w with
  | .ok i => match recordOp i with
    | some op => recordGate log6 sr i && r.opBound t op
    | none => false
  | _ => false

/-- The set-up records of a tile that never fire (R223). -/
def Region.deadRecords (r : Region) (log6 sr : Bool) (t : Tile) : List Nat :=
  (upFrom 0 16).filter fun e => !(t.matrix.recordWords e).all (r.wordFires log6 sr t)

/-- The actors of a tile that name an invalid lane slot (R192). -/
def State.deadLanes (s : State) (t : Nat) : List Nat :=
  let x := s.tile t
  x.actorList.filter fun i => (x.actor i).target == 1 && x.deadSlots.contains (natBits (x.actor i).entry.toNat 0 2)

/-- The reason-9 events of a tile that takes the wave. -/
def State.reportDead (s : State) (t : Nat) : State :=
  let x := s.tile t
  let dead := (s.region x.handle).deadRecords (s.feature 1) (s.feature 6) x
  let s1 := s.setTile t { x with matrix := { x.matrix with badRecords := dead } }
  let s2 := (s.deadLanes t).foldl (fun s i => s.neverFires t i (natBits (x.actor i).entry.toNat 0 2) 1) s1
  dead.foldl (fun s e => s.neverFires t 0xFF e 2) s2

/-- The tiles east and south of a tile in its region. -/
def Region.eastSouth (r : Region) (t : Tile) : List Nat :=
  (if t.col + 1 < r.info.cols then [r.physical (logicalOf r t + 1)] else [])
    ++ if t.row + 1 < r.info.rows then [r.physical (logicalOf r t + r.info.cols)] else []

/-- The fill steps that a tile which takes the wave may have to take: its dispatch, and what a thaw brought back (R340). -/
def State.wakeTile (s : State) (t : Nat) : State :=
  let x := s.tile t
  let s1 := [0, 1, 2, 3].foldl (fun s k => if (x.strand k).spillq.isEmpty then s else s.ask (.spillTransfer t k)) (s.ask (.firingDispatch t))
  let on (b : Bool) (e : Instr) (s : State) : State := if b then s.ask e else s
  let s2 := on (!x.spindle.entries.isEmpty || !x.spindle.runs.isEmpty) (.spindleEntryExecute t) s1
  let s3 := on (!x.matrix.queue.isEmpty) (.matrixEntryExecute t) s2
  let s4 := on (!x.inlay.queue.isEmpty) (.inlayEntryExecute t) s3
  let s5 := on (!x.netq.isEmpty) (.networkQueueEntry t) (on (!x.copy.ops.isEmpty) (.copyOperation t) s4)
  let s6 := [1, 2, 3].foldl (fun s k => s.ask (.engineFiringCommit t k)) s5
  let s7 := x.chunks.foldl (fun s e => on (e.2.left != 0 || e.2.armed) (.chunkFire t e.1) s) s6
  let s8 := x.inject.foldl (fun s e => e.2.foldl (fun s p => on (e.1 == 2) (.routerCombine t p.route) (s.askHops t p)) s) s7
  let s9 := x.links.foldl (fun s e => e.2.foldl (fun s p => s.askHops t p) s) s8
  let s10 := x.comb.foldl (fun s e => on (!e.2.isEmpty) (.routerCombine t (e.1 / 8)) s) s9
  s10.askFlow t

/-- CONFIG_COMPLETE_WAVE (R358): the wave reaches a tile. The first arrival makes the tile acquire at domain scope, passes the wave on, and
enables firing. -/
def execConfigCompleteWave (t : Nat) (s : State) : Host.Outcome State Fault Refusal :=
  .next (if s.active t && !(s.tile t).wave then
      let s1 := s.acquireAt t .dom
      let x := s1.tile t
      let r := s1.region x.handle
      let s2 := (r.eastSouth x).foldl (fun s u => s.push (.configCompleteWave u)) (s1.setTile t { x with wave := true })
      let s3 := (if r.posted then s2 else s2.reportDead t).wakeTile t
      if logicalOf r x + 1 = r.info.rows * r.info.cols then s3.push (.waveAcknowledge x.handle) else s3
    else s)

/-- WAVE_ACKNOWLEDGE (R358): the acknowledgement of the last tile reaches the distributor, which posts LAUNCH_PLACED; the wave of a thaw
posts nothing. -/
def execWaveAcknowledge (h : BitVec 32) (s : State) : Host.Outcome State Fault Refusal :=
  let r := s.region h
  .next (if s.live h && !r.posted then
      ((s.setRegion h { r with posted := true }).post 1 0x0102
        [handleWord r, BitVec.ofNat 64 (s.gridVersion.toNat * 2 ^ 48 + r.originRow * 256 + r.originCol)]).ask (.seedDelivery h)
    else s)

/-! ## Chained launches (R367, steps 2 to 4) -/

/-- Scratchpad bytes of some banks only. -/
def keepSpad (m : Memory) (kept : List Nat) : Memory := m.filter fun e => kept.contains (e.1 / 0x10000)

/-- CHAINED_COMMIT (R367): a chained launch takes its producer's tiles. Banks whose token it holds keep their contents and the others are
zeroed; then the rest of its image is loaded. Flags that its ports have raised enter KFLAGS of its first tile (R407). -/
def execChainedCommit (h : BitVec 32) (s : State) : Host.Outcome State Fault Refusal :=
  let r := s.region h
  .next (if s.live h && r.awaiting && r.phase == .committed && !s.live r.info.chainFrom then
      let s1 := r.tiles.foldl (fun s t =>
        let x := s.tile t
        s.setTile t { x with spad := keepSpad x.spad (x.keptBanks h) }) s
      let t0 := r.physical 0
      let s2 := s1.setTile t0 { s1.tile t0 with kflags := (s1.tile t0).kflags ||| r.early }
      ((s2.setRegion h { r with awaiting := false, phase := .loading, early := 0 }).writePasses h r.info.cols r.tiles).ask (.placementLoad h)
    else s)

end Sys2Proof.Machine
end

