-- ==== Sys2Proof/Machine/Shaving.lean ====
section
/-!
DEFINITION. The Shaving codec's decoder (12_wafer_fabric.md R413 to R416), one symbol at a time, over a stream whose bytes are known
only in part.
-/
namespace Sys2Proof.Machine

/-- What one step of the decoder gives. -/
inductive Shave where
  | ok (x : Shaver)
  /-- byte `n` of the stream is needed -/
  | need (n : Nat)
  | error
deriving DecidableEq, Repr

/-- `n` bits from a bit position, least significant first; the missing byte when one is not known. -/
def shaveBits (get : Nat → Option Byte) (pos : Nat) : Nat → Except Nat Nat
  | 0 => .ok 0
  | n + 1 =>
    match get (pos / 8) with
    | none => .error (pos / 8)
    | some b =>
      match shaveBits get (pos + 1) n with
      | .error k => .error k
      | .ok v => .ok ((b.toNat / 2 ^ (pos % 8)) % 2 + 2 * v)

/-! ## Canonical codes (R415) -/

/-- The symbols of a code length, ascending. -/
def symbolsOf (lens : List Nat) (l : Nat) : List Nat := (upFrom 0 16).filter fun k => nth 0 lens k == l

/-- The first code of a length; none when the lengths below, or this one, over-fill the code space. -/
def firstCode (lens : List Nat) : Nat → Option Nat
  | 0 => none
  | 1 => if (symbolsOf lens 1).length ≤ 2 then some 0 else none
  | l + 1 =>
    match firstCode lens l with
    | none => none
    | some c =>
      let d := (c + (symbolsOf lens l).length) * 2
      if d + (symbolsOf lens (l + 1)).length ≤ 2 ^ (l + 1) then some d else none

/-- The lengths form a code. -/
def lensOk (lens : List Nat) : Bool := lens.any (· != 0) && (firstCode lens 15).isSome

/-- The symbol of a code of a length. -/
def symbolOf (lens : List Nat) (l code : Nat) : Option Nat :=
  match firstCode lens l with
  | some c => if c ≤ code then (symbolsOf lens l)[code - c]? else none
  | none => none

/-- A symbol read bit by bit: the symbol and its length, or none when no code of 15 bits or fewer matches. -/
def readSymbol (get : Nat → Option Byte) (lens : List Nat) (pos code l : Nat) : Nat → Except Nat (Option (Nat × Nat))
  | 0 => .ok none
  | fuel + 1 =>
    match shaveBits get pos 1 with
    | .error k => .error k
    | .ok b =>
      let c := 2 * code + b
      match symbolOf lens (l + 1) c with
      | some y => .ok (some (y, l + 1))
      | none => readSymbol get lens (pos + 1) c (l + 1) fuel

/-! ## Elements (R416) -/

/-- Bytes of an element. -/
def Shaver.bytes (x : Shaver) : Nat := 2 ^ x.wc

/-- Lowest bit and width of the exponent field. -/
def Shaver.expField (x : Shaver) : Nat × Nat :=
  if x.em = 1 then (23, 8) else if x.em = 2 then (10, 5) else if x.em = 3 then (7, 8) else (0, 0)

/-- Exponent field of an element. -/
def Shaver.expOf (x : Shaver) (v : Nat) : Nat := natBits v x.expField.1 x.expField.2

/-- Bytes produced by a frame: they enter the history; none when the frame would produce more than its LEN + 1. -/
def Shaver.produce (x : Shaver) (bs : List Byte) : Option Shaver :=
  if bs.length ≤ x.want then
    some { x with hist := (bs.reverse ++ x.hist).take 8192, count := x.count + bs.length, want := x.want - bs.length }
  else none

/-- An element produced. -/
def Shaver.elem (x : Shaver) (v : Nat) : Option Shaver := x.produce (natLe x.bytes v)

/-- An element `d` back, 1 for the last one. -/
def Shaver.back (x : Shaver) (d : Nat) : Nat := leNat ((x.hist.take (d * x.bytes)).drop ((d - 1) * x.bytes)).reverse

/-- `n` elements produced, each a copy of the one `d` back. -/
def Shaver.copies (x : Shaver) (d : Nat) : Nat → Option Shaver
  | 0 => some x
  | n + 1 =>
    let v := x.back d
    match x.elem v with
    | some y => Shaver.copies (if x.em = 0 then y else { y with prevExp := x.expOf v }) d n
    | none => none

/-- `n` zero elements produced. -/
def Shaver.zeros (x : Shaver) : Nat → Option Shaver
  | 0 => some { x with prevExp := 0 }
  | n + 1 => match x.elem 0 with
    | some y => y.zeros n
    | none => none

/-- A result for an option. -/
def Shave.of : Option Shaver → Shave
  | some x => .ok x
  | none => .error

/-- A symbol that has been read; `pos` is the bit after its code. -/
def Shaver.symbol (x : Shaver) (get : Nat → Option Byte) (pos y : Nat) : Shave :=
  let w := 8 * x.bytes
  let (lo, eb) := x.expField
  let reads (n : Nat) (f : Nat → Option Shaver) : Shave :=
    match shaveBits get pos n with
    | .error k => .need k
    | .ok v => .of ((f v).map fun z => { z with bitpos := pos + n })
  if y ≤ 11 then
    if x.em = 0 then .error
    else reads (w - eb) fun v =>
      let e := (x.prevExp + y + 2 ^ eb - 6) % 2 ^ eb
      ({ x with prevExp := e }).elem (v % 2 ^ lo + e * 2 ^ lo + v / 2 ^ lo * 2 ^ (lo + eb))
  else if y = 12 then reads 8 fun n => x.zeros (n + 1)
  else if y = 13 then reads w fun v => ({ x with prevExp := if x.em = 0 then x.prevExp else x.expOf v }).elem v
  else if y = 14 then reads 20 fun v =>
    let d := v % 4096 + 1
    if d * x.bytes ≤ 4096 ∧ d * x.bytes ≤ x.count then x.copies d (v / 4096 + 1) else none
  else if x.want = 0 then .ok { x with bitpos := pos, inFrame := false, ended := x.last }
  else .error

/-! ## Frames (R414) -/

/-- EM goes with WC. -/
def emOk (wc em : Nat) : Bool := em == 0 || (em == 1 && wc == 2) || ((em == 2 || em == 3) && wc == 1)

/-- The next frame's fields. -/
def Shaver.open_ (x : Shaver) (get : Nat → Option Byte) : Shave :=
  match shaveBits get x.bitpos 17 with
  | .error k => .need k
  | .ok v =>
    let n := natBits v 0 12 + 1
    let wc := natBits v 12 2
    let em := natBits v 14 2
    let y := { x with inFrame := true, wc := wc, em := em, want := n, last := natBits v 16 1 == 1, prevExp := 0 }
    if wc = 3 ∧ em = 0 then .ok { y with bitpos := (x.bitpos + 17 + 7) / 8 * 8, lens := [] }
    else if n % 2 ^ wc ≠ 0 ∨ !emOk wc em then .error
    else match shaveBits get (x.bitpos + 17) 64 with
      | .error k => .need k
      | .ok l =>
        let lens := (upFrom 0 16).map fun k => natBits l (4 * k) 4
        if lensOk lens then .ok { y with bitpos := x.bitpos + 81, lens := lens } else .error

/-- One step of the decoder: a frame's fields, a stored byte, or a symbol. A stream that has ended gives no more. -/
def Shaver.step (x : Shaver) (get : Nat → Option Byte) : Shave :=
  if x.ended then .error
  else if !x.inFrame then x.open_ get
  else if x.wc = 3 then
    if x.want = 0 then .ok { x with inFrame := false, ended := x.last }
    else match get (x.bitpos / 8) with
      | none => .need (x.bitpos / 8)
      | some b => .of ((x.produce [b]).map fun y => { y with bitpos := x.bitpos + 8 })
  else match readSymbol get x.lens x.bitpos 0 0 15 with
    | .error k => .need k
    | .ok none => .error
    | .ok (some (y, l)) => x.symbol get (x.bitpos + l) y

/-- Byte `n` of what the stream has produced, while the history holds it. -/
def Shaver.at (x : Shaver) (n : Nat) : Option Byte := if n < x.count then x.hist[x.count - 1 - n]? else none

/-- A whole stream expanded, as a link packet carries it (R430): the bytes, or none on an error. -/
def shaveAll (bs : List Byte) : Nat → Shaver → List Byte → Option (List Byte)
  | 0, _, _ => none
  | fuel + 1, x, out =>
    if x.ended then some out
    else match x.step (fun n => bs[n]?) with
      | .ok y => shaveAll bs fuel y (out ++ (y.hist.take (y.count - x.count)).reverse)
      | _ => none

end Sys2Proof.Machine
end

