-- ==== Sys2Proof/Machine/Faceplate.lean ====
section
/-!
DEFINITION. Faceplate ports (12_wafer_fabric.md R400 to R411, R413 to R417): what a port fetches, converts and delivers, its pacing and
its passes (08_network_version_system.md R265), and the end of an access pattern (11_scheduling.md R366).
-/
namespace Sys2Proof.Machine

/-! ## When a port runs -/

/-- The ports of a region run: it runs and is loaded, or it is a chained launch whose producer runs (R367). -/
def State.portsRun (s : State) (h : BitVec 32) : Bool :=
  let r := s.region h
  s.live h && ((r.phase == .running && r.loaded)
    || (r.phase == .committed && r.awaiting && (s.region r.info.chainFrom).phase == .running))

/-- The state with a port of a region replaced. -/
def State.putPort (s : State) (h : BitVec 32) (n : Nat) (p : FPort) : State := s.setRegion h ((s.region h).setPort n p)

/-- What a small step of a port comes to. -/
inductive PortStep where
  /-- it goes on -/
  | go (s : State)
  /-- it waits for something that wakes it, or its pattern has ended -/
  | wait (s : State)
  /-- it tries again at its next turn -/
  | again (s : State)
deriving DecidableEq, Repr

/-- A port that takes a page fault holds all that it has (R326, R411). -/
def State.holdPort (s : State) (h : BitVec 32) (n : Nat) : Option Mark → PortStep
  | some m => .wait (s.putPort h n { (s.region h).port n with fault := some m })
  | none => .again s

/-- A port that freezes its region with a cause (R327). -/
def State.portFreeze (s : State) (h : BitVec 32) (c : Cause) : PortStep := .wait (s.freezeRegion h (some c) none [])

/-! ## Memory and scratchpad of a port -/

/-- The translation of an address by a port's address generator (R305, R326, R402): a latched base gives it; where there is none any more, or
there was none at configuration, its faceplate's cluster translates, and the generator latches the base (LOG 99 DEDUCED). -/
def State.portPa (s : State) (h : BitVec 32) (n elem : Nat) (write : Bool) (va : BitVec 56) : State × FabricTrans :=
  let r := s.region h
  let x := r.port n
  let gen := s.genOf r.info.ctx
  let tn := plateTile x.plate
  match x.bases.find? fun e => e.hits r.info.ctx gen va && !deny e.w e.po write false && (!write || e.d) with
  | some e => match s.pick e va with
    | .ok pa => (s, .ok pa)
    | .fail .topoStale => (s, .hold none)
    | .fail c => (s.freezeRegion h (some (fabricCause c)) none [], .frozen)
    | .away | .invalid => (s, .hold none)
  | none => match s.fabricPa tn false h 3 va write 0xFF n (elem % 4096) with
    | (s1, .ok pa) =>
      match (s1.cluster (clusterOf tn)).l2tlb.find? fun e => e.hits r.info.ctx gen va with
      | some e => (s1.putPort h n (((s1.region h).port n).latchBase e va), .ok pa)
      | none => (s1, .ok pa)
    | other => other

/-- Home addresses of some bytes of a port. -/
def portPas (h : BitVec 32) (n elem : Nat) (write : Bool) : State → List (BitVec 56) → Reach (List Nat)
  | s, [] => .ok s []
  | s, va :: vs =>
    match s.portPa h n elem write va with
    | (s1, .frozen) => .frozen s1
    | (s1, .hold m) => .hold s1 m
    | (s1, .ok pa) =>
      match portPas h n elem write s1 vs with
      | .ok s2 pas => .ok s2 (pa :: pas)
      | r => r

/-- Bytes of memory read by a port; none for an uncorrectable error. -/
def portRead (s : State) (h : BitVec 32) (n elem : Nat) (vas : List (BitVec 56)) : Reach (Option (List Byte)) :=
  match portPas h n elem false s vas with
  | .ok s1 pas => .ok (s1.burst pas) (s1.homeReads pas)
  | .hold s1 m => .hold s1 m
  | .frozen s1 => .frozen s1

/-- A bank enables the address generators of a region (R37). -/
def Tile.bankOpen (t : Tile) (h : BitVec 32) (off : Nat) : Bool :=
  let b := t.bankToken (off / 0x10000)
  b.holder == h && !b.handed

/-! ## Conversion (R407) -/

/-- The delivered format. -/
def Pattern.out (p : Pattern) : CvtFmt := (CvtFmt.ofCode (BitVec.ofNat 4 p.outf)).getD .int8

/-- Delivered elements of a block (R70). -/
def Pattern.block (p : Pattern) : Nat := 32 * 2 ^ field p.ptr 56 3

/-- A pattern inserts scales: SCALEINS on a port that delivers to groups or to a channel. -/
def Pattern.inserts (p : Pattern) (mode : Nat) : Bool := p.scaleIns && (mode == 1 || mode == 4)

/-- A source code converted to the delivered format. `latch` is the scale of a COLLECT port's channel. -/
def Pattern.convert (p : Pattern) (mode e8 latch code : Nat) : FRes :=
  let rm := RMode.ofCode p.rnd
  if p.fmt = 0 then ⟨code % 256, 0⟩
  else if mode = 5 then
    if latch = 127 then Machine.convert (fmtOf p.fmt) p.out true rm 0 code
    else if latch = 255 then convertNum p.out rm 0 (.nan true)
    else convertNum p.out rm 0 ((cvtNum (fmtOf p.fmt) code).scale ((latch : Int) - 127))
  else if p.fmt = 9 ∧ !p.scaleIns then fromMem 9 p.out rm 0 e8 code
  else Machine.convert (fmtOf p.fmt) p.out true rm 0 code

/-- Conversion flags raised as cause bits at the region's first tile; a chained launch that waits keeps them (R407). -/
def State.portFlags (s : State) (h : BitVec 32) (f : FlagSet) : State :=
  let r := s.region h
  let w : Word := (f &&& 0x7F).zeroExtend 64
  if w = 0 then s
  else if r.awaiting then s.setRegion h { r with early := r.early ||| w }
  else
    let t := r.physical 0
    s.setTile t { s.tile t with kflags := (s.tile t).kflags ||| w }

/-- A run of 1,024 elements transposed: element 32k + j moves to 32j + k (R407). -/
def transpose32 (l : List PortElem) : List PortElem := (upFrom 0 1024).map fun i => nth ⟨0, 127, false⟩ l (i % 32 * 32 + i / 32)

/-- A port with a fetched code converted and put where it is delivered from. -/
def State.takeElem (s : State) (h : BitVec 32) (n : Nat) (p : Pattern) (e8 code : Nat) : State :=
  let x := (s.region h).port n
  let r := p.convert (modeOf x.words) e8 x.latch.toNat code
  let e : PortElem := ⟨r.bits, if p.fmt = 9 then e8 else 127, FlagSet.has r.fl 0x27⟩
  let y := { x with elem := x.elem + 1 }
  let g := x.gather ++ [e]
  let z := if !p.transpose then { y with run := x.run ++ [e] }
    else if g.length = 1024 then { y with gather := [], run := transpose32 g }
    else { y with gather := g }
  (s.putPort h n z).portFlags h r.fl

/-! ## Fetching -/

/-- The next element of a pattern in plain memory. -/
def fetchMemory (s : State) (h : BitVec 32) (n : Nat) (p : Pattern) : PortStep :=
  let x := (s.region h).port n
  let at_ := elemAt (ptrAt p.ptr (p.rowVa x.passBase x.elem)) ((x.elem % p.per : Nat) : Int)
  match portRead s h n x.elem (at_.scaleAt.toList ++ vaRange at_.addr (fmtBytes p.fmt)) with
  | .hold s1 m => s1.holdPort h n m
  | .frozen s1 => .wait s1
  | .ok s1 none => s1.portFreeze h .stateUncorrectable
  | .ok s1 (some bs) =>
    let e8 := if at_.scaleAt.isSome then (bs.headD 0).toNat else 127
    let raw := leNat (if at_.scaleAt.isSome then bs.tail else bs)
    .go (s1.takeElem h n p e8 (elemCode p.fmt at_.fieldNo raw))

/-- One step of a port's decoder: missing bytes of the stream are read first (R413). -/
def decodeStep (h : BitVec 32) (n elem va : Nat) (x : Shaver) : Nat → Table Byte → State → Reach (Option Shaver)
  | 0, _, s => .ok s none
  | fuel + 1, known, s =>
    match x.step (fun k => (known.find? fun e => e.1 == k).map (·.2)) with
    | .ok y => .ok s (some y)
    | .error => .ok s none
    | .need k =>
      match portRead s h n elem [BitVec.ofNat 56 (va + k)] with
      | .hold s1 m => .hold s1 m
      | .frozen s1 => .frozen s1
      | .ok s1 none => .ok s1 none
      | .ok s1 (some bs) => decodeStep h n elem va x fuel ((k, bs.headD 0) :: known) s1

/-- Bytes of a decoded stream; none when one of them is not there. -/
def decodedBytes (x : Shaver) : List Nat → Option (List Byte)
  | [] => some []
  | k :: ks =>
    match x.at k, decodedBytes x ks with
    | some b, some bs => some (b :: bs)
    | _, _ => none

/-- The next element of a pattern in a Shaving stream: a byte that the stream does not give is an error (R417). -/
def fetchDecoded (s : State) (h : BitVec 32) (n : Nat) (p : Pattern) : PortStep :=
  let x := (s.region h).port n
  let at_ := elemAt (ptrAt p.ptr 0) ((x.elem : Nat) : Int)
  let ks := at_.scaleAt.toList.map BitVec.toNat ++ upFrom at_.addr.toNat (fmtBytes p.fmt)
  match decodedBytes x.shaver ks with
  | some bs =>
    let e8 := if at_.scaleAt.isSome then (bs.headD 0).toNat else 127
    let raw := leNat (if at_.scaleAt.isSome then bs.tail else bs)
    .go (s.takeElem h n p e8 (elemCode p.fmt at_.fieldNo raw))
  | none =>
    match decodeStep h n x.elem (p.rowVa x.passBase 0) x.shaver 64 [] s with
    | .hold s1 m => s1.holdPort h n m
    | .frozen s1 => .wait s1
    | .ok s1 none => s1.portFreeze h .stateUncorrectable
    | .ok s1 (some y) => .go (s1.putPort h n { (s1.region h).port n with shaver := y })

/-- The physical tile of a FILL or DRAIN pattern. -/
def State.patternTile (s : State) (h : BitVec 32) (p : Pattern) : Nat := (s.region h).physical p.tile

/-- The next element of a DRAIN pattern: it waits on a bank that does not enable the region (R37, R409). -/
def fetchScratch (s : State) (h : BitVec 32) (n : Nat) (p : Pattern) : PortStep :=
  let x := (s.region h).port n
  let t := s.tile (s.patternTile h p)
  let at_ := elemAt (ptrAt p.ptr p.off) ((x.elem : Nat) : Int)
  let ks := at_.scaleAt.toList.map BitVec.toNat ++ upFrom at_.addr.toNat (fmtBytes p.fmt)
  if ks.all (t.bankOpen h) then
    let bs := ks.map (readByte t.spad)
    let e8 := if at_.scaleAt.isSome then (bs.headD 0).toNat else 127
    let raw := leNat (if at_.scaleAt.isSome then bs.tail else bs)
    .go (s.takeElem h n p e8 (elemCode p.fmt at_.fieldNo raw))
  else .wait s

/-- The next element of a COLLECT pattern: a token of the port's channel. A flagged token is a region-edge sink event (R83), and a scale
token sets the latch (R69). -/
def fetchChannel (s : State) (h : BitVec 32) (n : Nat) (p : Pattern) : PortStep :=
  match (s.region h).portIn n with
  | none => .wait s
  | some ch =>
    if ((s.region h).channel ch).tokens = 0 then .wait s
    else
      let (v, s1) := s.portPop h ch
      let s2 := s1.edgeSink h v
      if v.scale then .go (s2.putPort h n { (s2.region h).port n with latch := v.payload.truncate 8 })
      else .go (s2.takeElem h n p 127 (field v.payload 0 64))

/-- The next element fetched. -/
def fetchElem (s : State) (h : BitVec 32) (n : Nat) (p : Pattern) : PortStep :=
  match modeOf ((s.region h).port n).words with
  | 3 => fetchScratch s h n p
  | 5 => fetchChannel s h n p
  | _ => if p.decode then fetchDecoded s h n p else fetchMemory s h n p

/-! ## Delivering (R408, R409) -/

/-- Elements of the current pattern delivered so far. -/
def FPort.delivered (x : FPort) : Nat := x.elem - x.gather.length - x.run.length

/-- Writes of packed bits: for each byte that bits `lo` to `lo + w - 1` of an array meet, its index, the bits to put there, and whether
the element is the first to touch it. -/
def bitWrites (lo w code : Nat) : List (Nat × Nat × Bool) :=
  (upFrom (lo / 8) ((lo + w + 7) / 8 - lo / 8)).map fun b =>
    (b, (code % 2 ^ w) * 2 ^ (lo % 8) / 2 ^ (8 * (b - lo / 8)) % 256, decide (lo ≤ 8 * b))

/-- Bytes after the packed element `d` of `total` that its LOG6 group still has: written 0 at the end of an array (R66). -/
def padBytes (w d total : Nat) : List Nat :=
  if w = 6 ∧ d + 1 = total then upFrom (((d + 1) * 6 + 7) / 8) (packedBytes 6 total - ((d + 1) * 6 + 7) / 8) else []

/-- The new value of a byte that an element writes. -/
def putBits (old : Byte) (v : Nat) (fresh : Bool) : Byte := if fresh then BitVec.ofNat 8 v else old ||| BitVec.ofNat 8 v

/-- A port with the head of its run delivered. -/
def FPort.shift (x : FPort) : FPort := { x with run := x.run.tail }

/-- An element delivered to the scratchpad by a FILL port, once its banks enable the region (R37). -/
def putScratch (s : State) (h : BitVec 32) (n : Nat) (p : Pattern) (e : PortElem) : PortStep :=
  let x := (s.region h).port n
  let tn := s.patternTile h p
  let t := s.tile tn
  let ws := (bitWrites (x.delivered * p.width) p.width e.code).map fun b => (p.off + b.1, b.2.1, b.2.2)
  let zs := (padBytes p.width x.delivered p.count).map fun k => (p.off + k, 0, true)
  if (ws ++ zs).all fun b => t.bankOpen h b.1 then
    let m := (ws ++ zs).foldl (fun m b => writeByte m b.1 (putBits (readByte m b.1) b.2.1 b.2.2)) t.spad
    .go ((s.setTile tn { t with spad := m }).putPort h n x.shift)
  else .wait s

/-- Bytes put at their homes in order. -/
def putHomes : State → List Nat → List (Nat × Bool) → Option State
  | s, pa :: pas, (v, fresh) :: vs =>
    if fresh then putHomes (s.homeWrite pa (BitVec.ofNat 8 v)) pas vs
    else match s.homeFetch pa with
      | (s1, some b) => putHomes (s1.homeWrite pa (putBits b v false)) pas vs
      | (_, none) => none
  | s, _, _ => some s

/-- An element delivered to memory by a DRAIN or COLLECT port: the elements of a row are packed from its start. -/
def putMemory (s : State) (h : BitVec 32) (n : Nat) (p : Pattern) (e : PortElem) : PortStep :=
  let x := (s.region h).port n
  let d := x.delivered % p.per
  let ws := bitWrites (d * p.width) p.width e.code
  let zs := (padBytes p.width d p.per).map fun k => (k, 0, true)
  let va := p.rowVa x.passBase x.delivered
  match portPas h n x.delivered true s ((ws ++ zs).map fun b => BitVec.ofNat 56 (va + b.1)) with
  | .hold s1 m => s1.holdPort h n m
  | .frozen s1 => .wait s1
  | .ok s1 pas =>
    match putHomes s1 pas ((ws ++ zs).map fun b => b.2) with
    | some s2 => .go (s2.putPort h n ((s2.region h).port n).shift)
    | none => s1.portFreeze h .stateUncorrectable

/-- A token pushed by a port into its channel; it waits for space. A sink record of the token names row 0 and column 0: no tile pushed it (LOG 97
DESIGN CHOICE). -/
def pushToken (s : State) (h : BitVec 32) (n : Nat) (payload : Word) (scale exc : Bool) (f : FPort → FPort) : PortStep :=
  match (s.region h).portOut n with
  | none => .wait s
  | some ch =>
    if ((s.region h).channel ch).space = 0 then .wait s
    else
      let x := (s.region h).port n
      let k := tabGet 0 x.moved ch
      let s1 := s.putPort h n (f { x with moved := tabSet 0 x.moved ch (k + 1) })
      .go (s1.portPush h ch ⟨payload, scale, exc, ⟨0, 0, 255, 0, k⟩⟩)

/-- An element delivered as a token by a STREAM port: a scale token goes ahead of each block (R409). -/
def putToken (s : State) (h : BitVec 32) (n : Nat) (p : Pattern) (e : PortElem) : PortStep :=
  let x := (s.region h).port n
  let v := if p.fmt = 0 then BitVec.ofNat 64 e.code else cvtPlace p.out e.code
  if p.scaleIns && x.delivered % p.block == 0 && !x.scaleSent then
    pushToken s h n (BitVec.ofNat 64 (e.scale % 256)) true false fun y => { y with scaleSent := true }
  else pushToken s h n v false e.exc fun y => { y.shift with scaleSent := false }

/-! ### Light blocks (R400, R401, R408) -/

/-- The group of a port that a pattern names. -/
def FPort.group (x : FPort) (lgroup : Nat) : Option Group := x.groups.find? fun g => g.lgroup == lgroup

/-- A block put on its way to the four drops of a send's splitter tree (R396); `b` gives it for a leaf mask. -/
def State.sendTree (s : State) (m : Nat) (b : Nat → Block) (send : Nat × Nat × Nat) : State :=
  let (p, c, leaf) := send
  (upFrom 0 4).foldl (fun s k =>
    let cl := 288 * p + 4 * ((m + c) % 72) + k
    (s.setCluster cl { s.cluster cl with incoming := (s.cluster cl).incoming ++ [b leaf] }).push (.lightBlockHeaderArrive cl 0)) s

/-- The next block of a group sent once on each of its sends, with the low bytes of the buffer as its payload. -/
def State.sendBlock (s : State) (h : BitVec 32) (n : Nat) (g : Group) (scale : Bool) (x : FPort) (data : Nat) : State :=
  let bytes := (if scale then natLe 32 x.bufScale else []) ++ natLe (if scale then 4064 else 4096) data
  let b (leaf : Nat) : Block := .make g.wgroup g.sent x.passVer scale (if versioned x.words then wsetOf x.words else 0) leaf x.pass bytes
  let gs := x.groups.map fun y => if y.lgroup = g.lgroup then { y with sent := y.sent + 1 } else y
  let s1 := s.putPort h n { x with groups := gs }
  g.sends.foldl (fun s e => s.sendTree x.plate b e) { s1 with lightLast := tabSet 3 s1.lightLast x.plate x.place }

/-- Data bits of a payload. -/
def payloadBits (scale : Bool) : Nat := if scale then 4064 * 8 else 4096 * 8

/-- The payload buffer of a LIGHT port is full, or holds the end of a block or of the pattern. -/
def FPort.payloadReady (x : FPort) (p : Pattern) : Bool :=
  decide (payloadBits p.scaleIns ≤ x.bits)
    || (x.bits != 0 && ((p.scaleIns && x.delivered % p.block == 0) || x.delivered == p.count))

/-- A LIGHT port has a block that it may send now. -/
def State.sendsNow (s : State) (h : BitVec 32) (x : FPort) : Bool :=
  let p := patternOf x.words x.pat
  modeOf x.words == 1 && s.portsRun h && !x.finished && x.fault.isNone && !x.ending && x.begun && x.payloadReady p
    && match x.group p.group with
      | some g => g.paces
      | none => false

/-- The LIGHT ports of a memory faceplate that have a block to send, with their places. -/
def State.lightPorts (s : State) (m : Nat) : List (Nat × BitVec 32 × Nat) :=
  s.regions.flatMap fun r => (r.2.ports.filter fun e => e.2.plate == m && s.sendsNow r.2.info.handle e.2).map fun e =>
    (e.2.place, r.2.info.handle, e.1)

/-- The port that uses a faceplate's lasers next (R400): the LIGHT ports take turns by place. -/
def State.nextLight (s : State) (m : Nat) : Option (Nat × BitVec 32 × Nat) :=
  let last := tabGet 3 s.lightLast m
  ((upFrom 1 4).map fun k => (last + k) % 4).findSome? fun k => (s.lightPorts m).find? fun e => e.1 == k

/-- A payload of a LIGHT port sent, if its group's pacing allows and it is the port's turn: what does not fit stays in the buffer. -/
def flushBlock (s : State) (h : BitVec 32) (n : Nat) (p : Pattern) : PortStep :=
  let x := (s.region h).port n
  match x.group p.group with
  | none => .wait s
  | some g =>
    if !g.paces then .wait s
    else match (s.nextLight x.plate).filter fun e => e.2 != (h, n) with
      | some e => .again (s.ask (.faceplateBlockSend e.2.1 e.2.2))
      | none =>
        let cap := payloadBits p.scaleIns
        let y := { x with buf := x.buf / 2 ^ cap, bits := x.bits - cap }
        .go (s.sendBlock h n g p.scaleIns { y with bufScale := x.bufScale } (x.buf % 2 ^ cap))

/-- An element put into the payload buffer of a LIGHT port. -/
def putLight (s : State) (h : BitVec 32) (n : Nat) (p : Pattern) (e : PortElem) : PortStep :=
  let x := (s.region h).port n
  .go (s.putPort h n { x.shift with
    buf := x.buf + e.code % 2 ^ p.width * 2 ^ x.bits
    bits := x.bits + p.width
    bufScale := if p.scaleIns && x.delivered % p.block == 0 then e.scale else x.bufScale })

/-- An element delivered. -/
def putElem (s : State) (h : BitVec 32) (n : Nat) (p : Pattern) (e : PortElem) : PortStep :=
  match modeOf ((s.region h).port n).words with
  | 1 => putLight s h n p e
  | 2 => putScratch s h n p e
  | 4 => putToken s h n p e
  | _ => putMemory s h n p e

/-! ## Passes (R265, R408) -/

/-- A region stands at a pass boundary of a weight set: none of its VERSIONED ports for the set is in a pass, and none has still to start a
pass that another has started (LOG 51 DEDUCED). -/
def Region.atBoundary (r : Region) (w : Nat) : Bool :=
  r.ports.all fun e => !versionedPort e.2.words || wsetOf e.2.words != w || e.2.finished || !e.2.inPass && decide ((r.pvOf w).passes ≤ e.2.pass)

/-- The start of a pass of a VERSIONED port: none while nothing is bound. A pass that no port has started waits, while a switch is pending,
until the region stands at a pass boundary; the switch takes effect there. -/
def startVersioned (s : State) (h : BitVec 32) (n w : Nat) : PortStep :=
  let r := s.region h
  let x := r.port n
  let v := r.pvOf w
  if v.bound = 0 then .wait s
  else if v.pending.isSome && decide (v.passes ≤ x.pass) then
    .wait (if r.atBoundary w then s.ask (.passBoundarySwitch h w) else s)
  else
    let r1 := r.setPv w { v with passes := max v.passes (x.pass + 1), started := true }
    .go (s.setRegion h (r1.setPort n { x with inPass := true, passVer := v.bound, passBase := s.slotBase w v.bound }))

/-- A pass starts with its first pattern: a LIGHT port waits until its group may start a block (R461). -/
def startPass (s : State) (h : BitVec 32) (n : Nat) (p : Pattern) : PortStep :=
  let x := (s.region h).port n
  let paced := match x.group p.group with
    | some g => g.paces
    | none => true
  if modeOf x.words = 1 ∧ !paced then .wait s
  else if versionedPort x.words then startVersioned s h n (wsetOf x.words)
  else .go (s.putPort h n { x with inPass := true, passVer := 0, passBase := 0 })

/-! ## The steps of a port -/

/-- A small step of a port in its current pattern. -/
def portMicro (s : State) (h : BitVec 32) (n : Nat) : PortStep :=
  let x := (s.region h).port n
  let p := patternOf x.words x.pat
  if !s.portsRun h || x.finished || x.fault.isSome then .wait s
  else if x.ending then .wait (s.ask (.faceplatePatternEnd h n))
  else if !x.begun then
    if 10 ≤ p.fmt then s.portFreeze h .formatReserved
    else if !x.inPass then startPass s h n p
    else .go (s.putPort h n { x with
      begun := true, elem := 0, gather := [], run := [], buf := 0, bits := 0, bufScale := 127, scaleSent := false, shaver := Shaver.idle })
  else if x.payloadReady p then flushBlock s h n p
  else match x.run with
    | e :: _ => putElem s h n p e
    | [] =>
      if x.elem < p.count then fetchElem s h n p
      else .wait ((s.putPort h n { x with ending := true }).ask (.faceplatePatternEnd h n))

/-- Small steps of a port until it waits; `fuel` bounds them, and says whether the port goes on at its next turn
(LOG 74 DEDUCED). -/
def portRun (h : BitVec 32) (n : Nat) : Nat → State → Bool × State
  | 0, s => (true, s)
  | fuel + 1, s =>
    match portMicro s h n with
    | .go s1 => portRun h n fuel s1
    | .wait s1 => (false, s1)
    | .again s1 => (true, s1)

/-- A turn of a port; `self` is put on the agenda while it goes on. -/
def State.portTurn (s : State) (h : BitVec 32) (n : Nat) (self : Instr) : State :=
  match portRun h n 64 s with
  | (true, s1) => s1.ask self
  | (false, s1) => s1

/-- The mode of a port of a region. -/
def State.portMode (s : State) (h : BitVec 32) (n : Nat) : Nat := modeOf ((s.region h).port n).words

/-- FACEPLATE_BLOCK_SEND (R400, R401, R407, R408): a LIGHT port fetches, converts and sends. -/
def execFaceplateBlockSend (h : BitVec 32) (n : Nat) (s : State) : Host.Outcome State Fault Refusal :=
  .next (if s.portMode h n = 1 then s.portTurn h n (.faceplateBlockSend h n) else s)

/-- FILL_DRAIN_PORT_TRANSFER (R37, R409): a FILL or DRAIN port moves elements. -/
def execFillDrainPortTransfer (h : BitVec 32) (n : Nat) (s : State) : Host.Outcome State Fault Refusal :=
  .next (if s.portMode h n = 2 ∨ s.portMode h n = 3 then s.portTurn h n (.fillDrainPortTransfer h n) else s)

/-- STREAM_PORT_PUSH (R409): a STREAM port pushes tokens. Space in the channel of another port lets its note go out (R410). -/
def execStreamPortPush (h : BitVec 32) (n : Nat) (s : State) : Host.Outcome State Fault Refusal :=
  .next (if s.portMode h n = 4 then s.portTurn h n (.streamPortPush h n)
    else if ((s.region h).port n).ending then s.ask (.faceplatePatternEnd h n) else s)

/-- COLLECT_PORT_POP (R409): a COLLECT port pops tokens and writes them to memory. -/
def execCollectPortPop (h : BitVec 32) (n : Nat) (s : State) : Host.Outcome State Fault Refusal :=
  .next (if s.portMode h n = 5 then s.portTurn h n (.collectPortPop h n) else s)

/-! ## The end of a pattern (R366, R410) -/

/-- The banks that a FILL or DRAIN pattern names. -/
def Pattern.banks (p : Pattern) (mode : Nat) : List Nat :=
  let (off, len) := p.spadRange mode
  upFrom (off / 0x10000) ((off + len + 0xFFFF) / 0x10000 - off / 0x10000)

/-- The hand-off of a bank: a token that enables the region passes on, and the ports of its next holder may start. -/
def State.handBank (s : State) (h : BitVec 32) (tn b : Nat) : State :=
  let t := s.tile tn
  let k := t.bankToken b
  if k.holder = h ∧ !k.handed then (s.setTile tn (t.setBankToken b k.pass)).wakePorts k.next else s

/-- A port that goes on after a pattern. -/
def FPort.nextPattern (x : FPort) (passEnd : Bool) : FPort :=
  let y := { x with begun := false, ending := false, elem := 0 }
  let z := if passEnd then { y with inPass := false, pass := x.pass + 1 } else y
  if x.pat + 1 < npat x.words then { z with pat := x.pat + 1 }
  else if repeats x.words then { z with pat := 0 }
  else { z with finished := true }

/-- The note of a pattern pushed, if it has one; none while the channel has no space. A port writes at the homes, so the release has
nothing left to do (R410). -/
def State.pushNote (s : State) (h : BitVec 32) (n : Nat) (p : Pattern) : Option State :=
  if p.note then
    match pushToken s h n (BitVec.ofNat 64 ((s.region h).port n).pat) false false id with
    | .go s1 => some s1
    | _ => none
  else some s

/-- FACEPLATE_PATTERN_END (R366, R408, R410): the note, the hand-off and the pass end of a pattern, in this order; then the next
pattern. -/
def execFaceplatePatternEnd (h : BitVec 32) (n : Nat) (s : State) : Host.Outcome State Fault Refusal :=
  let x := (s.region h).port n
  let p := patternOf x.words x.pat
  .next (if s.portsRun h && x.ending then
      match s.pushNote h n p with
      | none => s
      | some s1 =>
        let tn := s1.patternTile h p
        let s2 := if p.handoff then (p.banks (modeOf x.words)).foldl (fun s b => s.handBank h tn b) s1 else s1
        let y := (s2.region h).port n
        (s2.putPort h n (y.nextPattern p.passEnd)).wakePorts h
    else s)

end Sys2Proof.Machine
end

