-- ==== Sys2Proof/Machine/Answer.lean ====
section
/-!
DEFINITION. The fault buffers of the clusters, their records and the host fault queue, and page answers
(10_translation_and_traps.md R323 to R332, 13_links_and_host.md R432, R433).
-/
namespace Sys2Proof.Machine

/-! ## Records (R329, R330, R433) -/

/-- The four words of a fault record (Table 10.7). -/
def FaultRec.words (r : FaultRec) : List Word :=
  [ BitVec.ofNat 64 (r.ctx.toNat * 2 ^ 48 + r.gen.toNat * 2 ^ 32 + r.kind * 2 ^ 28 + Cause.pageFault.code * 2 ^ 21
      + (if r.write then 2 ^ 20 else 0) + r.tag),
    r.va.zeroExtend 64,
    BitVec.ofNat 64 (r.pcol * 2 ^ 56 + r.prow * 2 ^ 48 + r.row * 2 ^ 40 + r.col % 256 * 2 ^ 32 + r.elem % 4096 * 2 ^ 20),
    BitVec.ofNat 64 (r.flushGen.toNat * 2 ^ 32) ]

/-- A cluster whose buffer takes waiting requests while it has room, each ready to be sent. -/
def Cluster.refill (c : Cluster) : Cluster :=
  let n := 64 - c.records.length
  { c with records := c.records ++ c.waiting.take n, waiting := c.waiting.drop n }

/-- FAULT_BUFFER_FLUSH (R329): the flush generation rises, and every ready record is stamped with it and goes to the host queue. A
copy that still waits for queue space gives way to the new one (LOG 85 DEDUCED). -/
def execFaultBufferFlush (c : Nat) (s : State) : Host.Outcome State Fault Refusal :=
  let x := s.cluster c
  .next (if x.records.any (·.ready) then
      let g := x.flushGen + 1
      let sent := (x.records.filter (·.ready)).map fun r => { r with flushGen := g, ready := false }
      let y := { x with
        flushGen := g
        records := x.records.map fun r => if r.ready then { r with flushGen := g, ready := false } else r
        outbox := (x.outbox.filter fun r => !sent.any fun q => q.tag == r.tag && q.ctx == r.ctx) ++ sent }
      (s.setCluster c y).ask (.faultQueueWrite c)
    else s)

/-- FAULT_RECORD_RESEND (R329): a record that has stayed unanswered is ready again (LOG 84 DESIGN CHOICE). -/
def execFaultRecordResend (c tag : Nat) (s : State) : Host.Outcome State Fault Refusal :=
  let x := s.cluster c
  .next (if x.records.any fun r => r.tag == tag then
      (s.setCluster c { x with records := x.records.map fun r => if r.tag = tag then { r with ready := true } else r }).ask
        (.faultBufferFlush c)
    else s)

/-- Records that wait written to the host fault queue while it has space (R433). -/
def State.writeRecords (s : State) : List FaultRec → State × List FaultRec
  | [] => (s, [])
  | r :: rest =>
    if s.fqTail - (s.hostReg 0xF0).toNat < (s.hostReg 0xE8).toNat then
      let a := (s.hostReg 0xE0).toNat + 32 * (s.fqTail % (s.hostReg 0xE8).toNat)
      State.writeRecords { s with hostMem := writeWords s.hostMem a r.words, fqTail := s.fqTail + 1 } rest
    else (s, r :: rest)

/-- FAULT_QUEUE_WRITE (R433): the flushed records of a cluster are written to the host fault queue. -/
def execFaultQueueWrite (c : Nat) (s : State) : Host.Outcome State Fault Refusal :=
  let (s1, rest) := s.writeRecords (s.cluster c).outbox
  .next (s1.setCluster c { s1.cluster c with outbox := rest })

/-! ## Who waits for an answer (R324, R326) -/

/-- A mark waits for the answer to a request. -/
def Mark.waits (m : Mark) (c tag : Nat) : Bool := m.cluster == c && m.tag == tag && m.answer == .waiting

/-- A fault that waits for the answer. -/
def faultWaits (f : Option Mark) (c tag : Nat) : Bool :=
  match f with
  | some m => m.waits c tag
  | none => false

/-- A fault with its answer. -/
def answerFault (f : Option Mark) (c tag : Nat) (a : Answer) : Option Mark :=
  match f with
  | some m => if m.waits c tag then some { m with answer := a } else some m
  | none => none

/-- A fault that its answer has released: the element walks again. -/
def clearFault (f : Option Mark) (c tag : Nat) : Option Mark := if faultWaits f c tag then none else f

/-- A strand with the answer at its marks. -/
def Strand.answer (x : Strand) (c tag : Nat) (a : Answer) : Strand :=
  { x with marks := x.marks.map fun m => if m.waits c tag then { m with answer := a } else m }

/-- A tile with the answer at its strands' marks. -/
def Tile.answer (t : Tile) (c tag : Nat) (a : Answer) : Tile := { t with strands := t.strands.map fun x => x.answer c tag a }

/-- An engine of a tile waits for the answer. -/
def Tile.engineWaits (t : Tile) (c tag : Nat) : Bool := faultWaits t.copy.fault c tag || t.chunks.any fun k => faultWaits k.2.fault c tag

/-- A tile whose copy engine and chunks have been released. -/
def Tile.clearFaults (t : Tile) (c tag : Nat) : Tile :=
  { t with
    copy := { t.copy with fault := clearFault t.copy.fault c tag }
    chunks := t.chunks.map fun k => (k.1, { k.2 with fault := clearFault k.2.fault c tag }) }

/-- The steps of the engines of a tile that the answer releases. -/
def Tile.released_ (t : Tile) (tn c tag : Nat) : List Instr :=
  (if faultWaits t.copy.fault c tag then [.copyOperation tn] else [])
    ++ (t.chunks.filter fun k => faultWaits k.2.fault c tag).map fun k => .chunkFire tn k.1

/-- The answer at the tiles of a region. -/
def State.answerTiles (s : State) (r : Region) (c tag : Nat) (a : Answer) : State :=
  r.ownTiles.foldl (fun s t =>
    let x := s.tile t
    (x.released_ t c tag).foldl State.ask (s.setTile t ((x.answer c tag a).clearFaults c tag))) s

/-- The answer at the ports of a region. -/
def State.answerPorts (s : State) (h : BitVec 32) (c tag : Nat) : State :=
  (s.region h).ports.foldl (fun s e =>
    if faultWaits e.2.fault c tag then
      let s1 := s.putPort h e.1 { e.2 with fault := none }
      match portStep h e.1 e.2 with
      | some i => s1.ask i
      | none => s1
    else s) s

/-- An element without a strand of a region waits for the answer. -/
def State.elementWaits (s : State) (r : Region) (c tag : Nat) : Bool :=
  (s.tilesOf r).any (fun t => t.engineWaits c tag) || r.ports.any fun e => faultWaits e.2.fault c tag

/-- The answer at a region: a denied one freezes it where an element without a strand waits (R328); at a frozen region that waits for
thaw (R332). -/
def State.answerRegion (s : State) (c tag : Nat) (a : Answer) (record : List Word) (h : BitVec 32) : State :=
  let r := s.region h
  let reload := r.phase == .thawing && faultWaits r.loadFault c tag
  let waits := s.elementWaits r c tag || reload
  let s1 := (s.answerTiles r c tag a).answerPorts h c tag
  let r1 := s1.region h
  let s2 := s1.setRegion h { r1 with
    saved := r1.saved.map fun e => (e.1, (e.2.answer c tag a).clearFaults c tag)
    loadFault := if reload then none else answerFault r1.loadFault c tag a
    denied := if waits && a == .denied && r.phase == .frozen && r1.denied.isNone then some record else r1.denied }
  let s3 := if faultWaits r.loadFault c tag then s2.ask (.placementLoad h) else s2
  if waits && a == .denied then s3.freezeRegion h (some .fabricDenied) none record else s3

/-- The answer at everything of a context that waits for it. -/
def State.answerAll (s : State) (ctx : BitVec 16) (c tag : Nat) (a : Answer) (record : List Word) : State :=
  let s1 := ((s.regionsOf ctx).map fun r => r.info.handle).foldl (fun s h => s.answerRegion c tag a record h) s
  if faultWaits s1.dist.fault c tag then (s1.setIntakeFault (answerFault s1.dist.fault c tag a)).ask .launchIntake else s1

/-! ## Answers (R331, R332, R307, R308) -/

/-- What a page answer comes to once it is accepted: a mapping beyond the quota makes the victim controller evict another page of the
context first, and fails when feature bit 3 is not accepted or no page can be chosen; none while other modules have still to remove the
page that is being evicted. -/
def State.quotaAnswer (s : State) (ctx : BitVec 16) (page : Nat) (deny : Bool) : Option Answer × State :=
  if deny then (some .denied, s)
  else if s.overQuota ctx then
    if s.feature 3 then
      match s.evictOne ctx (some page) with
      | .done s1 => (some .mapped, s1)
      | .wait s1 => (none, s1)
      | .none s1 => (some .denied, s1)
    else (some .denied, s)
  else (some .mapped, s)

/-- An answer to a record taken: the record leaves, a waiting request enters, and what waits is released
(LOG 75 DEDUCED). -/
def State.takeAnswer (s : State) (c : Nat) (r : FaultRec) (a : Answer) : State :=
  let x := s.cluster c
  let drop (l : List FaultRec) : List FaultRec := l.filter fun q => !(q.tag == r.tag && q.ctx == r.ctx)
  let s1 := (s.setCluster c ({ x with records := drop x.records, outbox := drop x.outbox }.refill)).ask (.faultBufferFlush c)
  s1.answerAll r.ctx c r.tag a r.words

/-- PAGE_ANSWER (R331): a host answer is checked in order; the first failing check discards it. -/
def execPageAnswer (w0 w1 : Word) (s : State) : Host.Outcome State Fault Refusal :=
  let ctx : BitVec 16 := w0.extractLsb' 48 16
  let gen : BitVec 16 := w0.extractLsb' 32 16
  let c := field w0 20 12
  .next (if gen ≠ s.genOf ctx then { s with lateAns := s.lateAns + 1 }
    else match (s.cluster c).records.find? fun r => r.ctx == ctx && r.tag == field w0 0 20 with
      | none => s
      | some r => if r.flushGen ≠ w1.extractLsb' 32 32 ∨ field w1 1 31 ≠ 0 then s
        else match s.quotaAnswer ctx (pageOf r.va) (w1.getLsbD 0) with
          | (some a, s1) => s1.takeAnswer c r a
          | (none, s1) => s1.ask (.pageAnswer w0 w1))

end Sys2Proof.Machine
end

