-- ==== Sys2Proof/Machine/Atomic.lean ====
section
/-!
DEFINITION. The atomics, global and in scratchpad (05_memory_queue_instructions.md R167 to R170).
-/
namespace Sys2Proof.Machine

/-- The new value of a word and the flags it raises, from the old value, the operand g[d] and the value of the next register. -/
abbrev AmoFn := Nat → Nat → Nat → Nat → Nat × FlagSet

/-- An integer operation on words of `w` bits, without flags. -/
def amoInt (f : Nat → Nat → Nat → Nat) : AmoFn := fun w m v _ => (f w m (v % 2 ^ w) % 2 ^ w, 0)

/-- m ≤ v as signed words of `w` bits. -/
def sleW (w m v : Nat) : Bool := decide ((m + 2 ^ (w - 1)) % 2 ^ w ≤ (v + 2 ^ (w - 1)) % 2 ^ w)

/-- AMOADD (Table 5.5). -/
def amoAdd : AmoFn := amoInt fun _ m v => m + v
/-- AMOMIN: signed minimum. -/
def amoMin : AmoFn := amoInt fun w m v => if sleW w m v then m else v
/-- AMOMAX: signed maximum. -/
def amoMax : AmoFn := amoInt fun w m v => if sleW w m v then v else m
/-- AMOAND. -/
def amoAnd : AmoFn := amoInt fun _ m v => m &&& v
/-- AMOOR. -/
def amoOr : AmoFn := amoInt fun _ m v => m ||| v
/-- AMOXOR. -/
def amoXor : AmoFn := amoInt fun _ m v => m ^^^ v
/-- AMOSWAP. -/
def amoSwap : AmoFn := amoInt fun _ _ v => v
/-- CAS: the value of the next register when the word equals the operand. -/
def amoCas : AmoFn := fun w m v n => (if m = v % 2 ^ w then n % 2 ^ w else m, 0)
/-- AMOFADD.F32, rounded RNE (R170). -/
def amoFadd : AmoFn := fun _ m v _ =>
  let r := fAdd f32 .rne (unpack f32 m) (unpack f32 (v % 2 ^ 32))
  (r.bits, r.fl)

/-- A global atomic: translated for writing, released, performed at its home with the tile's line cleaned and invalidated first,
and acquired (R167, R168). -/
def amoEff (f : AmoFn) (n : Nat) (d a b : BitVec 6) (scale : BitVec 3) (ord : Ord) (scope : Scope) (off : BitVec 21) (s : State) :
    M Eff := do
  let va := s.ea a b scale off
  aligned s va n
  let (s1, pa) ← strandPa s va true
  let s2 := (s1.releaseFor ord scope).invalLine s.cur.tile (pa / 32)
  let (s3, old) ← readPas true (va.zeroExtend 64) s2 (upFrom pa n)
  let x := s3.curStrand
  let r := f (8 * n) (leNat old) (x.rg d).toNat (x.rg (d + 1)).toNat
  let s4 := writePas true s3 (upFrom pa n) (natLe n r.1)
  let s5 := s4.setCur (s4.curStrand.wg d (BitVec.ofNat 64 (leNat old)))
  return endFp (s5.acquireFor ord scope) r.2 (BitVec.ofNat 64 r.1) 0

/-- A global atomic of a size. -/
def amo (f : AmoFn) (n : Nat) (regs : List (BitVec 6)) (d a b : BitVec 6) (scale : BitVec 3) (ord : Ord) (scope : Scope)
    (off : BitVec 21) (s : State) : Host.Outcome State Fault Refusal :=
  issueM s regs (amoEff f n d a b scale ord scope off s)

/-- A .SPAD atomic, performed in the tile's scratchpad in one step (R169); its orders are met by program order (LOG 7 DEDUCED). -/
def amoSpadEff (f : AmoFn) (n : Nat) (d a b : BitVec 6) (scale : BitVec 3) (off : BitVec 21) (s : State) : M Eff := do
  let o := s.ea a b scale off
  spadCheck s o n true
  let t := s.curTile
  let old := leNat (t.spadRead o.toNat n)
  let x := s.curStrand
  let r := f (8 * n) old (x.rg d).toNat (x.rg (d + 1)).toNat
  let s1 := s.setCurTile (t.spadWrite o.toNat (natLe n r.1))
  return endFp (s1.setCur (s1.curStrand.wg d (BitVec.ofNat 64 old))) r.2 (BitVec.ofNat 64 r.1) 0

/-- A .SPAD atomic of a size. -/
def amoSpad (f : AmoFn) (n : Nat) (regs : List (BitVec 6)) (d a b : BitVec 6) (scale : BitVec 3) (off : BitVec 21) (s : State) :
    Host.Outcome State Fault Refusal :=
  issueM s regs (amoSpadEff f n d a b scale off s)

/-! ## Meanings -/

/-- AMOADD (R167). -/
def execAmoadd (d a b : BitVec 6) (scale : BitVec 3) (size : BitVec 2) (ord : Ord) (scope : Scope) (off : BitVec 21) (s : State) :
    Host.Outcome State Fault Refusal :=
  amo amoAdd (sizeBytes size) [d, a, b] d a b scale ord scope off s

/-- AMOADD.SPAD (R169). -/
def execAmoaddSpad (d a b : BitVec 6) (scale : BitVec 3) (size : BitVec 2) (_ord : Ord) (_scope : Scope) (off : BitVec 21)
    (s : State) : Host.Outcome State Fault Refusal :=
  amoSpad amoAdd (sizeBytes size) [d, a, b] d a b scale off s

/-- AMOMIN (R167). -/
def execAmomin (d a b : BitVec 6) (scale : BitVec 3) (size : BitVec 2) (ord : Ord) (scope : Scope) (off : BitVec 21) (s : State) :
    Host.Outcome State Fault Refusal :=
  amo amoMin (sizeBytes size) [d, a, b] d a b scale ord scope off s

/-- AMOMIN.SPAD (R169). -/
def execAmominSpad (d a b : BitVec 6) (scale : BitVec 3) (size : BitVec 2) (_ord : Ord) (_scope : Scope) (off : BitVec 21)
    (s : State) : Host.Outcome State Fault Refusal :=
  amoSpad amoMin (sizeBytes size) [d, a, b] d a b scale off s

/-- AMOMAX (R167). -/
def execAmomax (d a b : BitVec 6) (scale : BitVec 3) (size : BitVec 2) (ord : Ord) (scope : Scope) (off : BitVec 21) (s : State) :
    Host.Outcome State Fault Refusal :=
  amo amoMax (sizeBytes size) [d, a, b] d a b scale ord scope off s

/-- AMOMAX.SPAD (R169). -/
def execAmomaxSpad (d a b : BitVec 6) (scale : BitVec 3) (size : BitVec 2) (_ord : Ord) (_scope : Scope) (off : BitVec 21)
    (s : State) : Host.Outcome State Fault Refusal :=
  amoSpad amoMax (sizeBytes size) [d, a, b] d a b scale off s

/-- AMOAND (R167). -/
def execAmoand (d a b : BitVec 6) (scale : BitVec 3) (size : BitVec 2) (ord : Ord) (scope : Scope) (off : BitVec 21) (s : State) :
    Host.Outcome State Fault Refusal :=
  amo amoAnd (sizeBytes size) [d, a, b] d a b scale ord scope off s

/-- AMOAND.SPAD (R169). -/
def execAmoandSpad (d a b : BitVec 6) (scale : BitVec 3) (size : BitVec 2) (_ord : Ord) (_scope : Scope) (off : BitVec 21)
    (s : State) : Host.Outcome State Fault Refusal :=
  amoSpad amoAnd (sizeBytes size) [d, a, b] d a b scale off s

/-- AMOOR (R167). -/
def execAmoor (d a b : BitVec 6) (scale : BitVec 3) (size : BitVec 2) (ord : Ord) (scope : Scope) (off : BitVec 21) (s : State) :
    Host.Outcome State Fault Refusal :=
  amo amoOr (sizeBytes size) [d, a, b] d a b scale ord scope off s

/-- AMOOR.SPAD (R169). -/
def execAmoorSpad (d a b : BitVec 6) (scale : BitVec 3) (size : BitVec 2) (_ord : Ord) (_scope : Scope) (off : BitVec 21)
    (s : State) : Host.Outcome State Fault Refusal :=
  amoSpad amoOr (sizeBytes size) [d, a, b] d a b scale off s

/-- AMOXOR (R167). -/
def execAmoxor (d a b : BitVec 6) (scale : BitVec 3) (size : BitVec 2) (ord : Ord) (scope : Scope) (off : BitVec 21) (s : State) :
    Host.Outcome State Fault Refusal :=
  amo amoXor (sizeBytes size) [d, a, b] d a b scale ord scope off s

/-- AMOXOR.SPAD (R169). -/
def execAmoxorSpad (d a b : BitVec 6) (scale : BitVec 3) (size : BitVec 2) (_ord : Ord) (_scope : Scope) (off : BitVec 21)
    (s : State) : Host.Outcome State Fault Refusal :=
  amoSpad amoXor (sizeBytes size) [d, a, b] d a b scale off s

/-- AMOSWAP (R167). -/
def execAmoswap (d a b : BitVec 6) (scale : BitVec 3) (size : BitVec 2) (ord : Ord) (scope : Scope) (off : BitVec 21) (s : State) :
    Host.Outcome State Fault Refusal :=
  amo amoSwap (sizeBytes size) [d, a, b] d a b scale ord scope off s

/-- AMOSWAP.SPAD (R169). -/
def execAmoswapSpad (d a b : BitVec 6) (scale : BitVec 3) (size : BitVec 2) (_ord : Ord) (_scope : Scope) (off : BitVec 21)
    (s : State) : Host.Outcome State Fault Refusal :=
  amoSpad amoSwap (sizeBytes size) [d, a, b] d a b scale off s

/-- CAS (R167). -/
def execCas (d a b : BitVec 6) (scale : BitVec 3) (size : BitVec 2) (ord : Ord) (scope : Scope) (off : BitVec 21) (s : State) :
    Host.Outcome State Fault Refusal :=
  amo amoCas (sizeBytes size) [d, a, b, d + 1] d a b scale ord scope off s

/-- CAS.SPAD (R169). -/
def execCasSpad (d a b : BitVec 6) (scale : BitVec 3) (size : BitVec 2) (_ord : Ord) (_scope : Scope) (off : BitVec 21)
    (s : State) : Host.Outcome State Fault Refusal :=
  amoSpad amoCas (sizeBytes size) [d, a, b, d + 1] d a b scale off s

/-- AMOFADD.F32 (R170). -/
def execAmofaddF32 (d a b : BitVec 6) (scale : BitVec 3) (ord : Ord) (scope : Scope) (off : BitVec 21) (s : State) :
    Host.Outcome State Fault Refusal :=
  amo amoFadd 4 [d, a, b] d a b scale ord scope off s

/-- AMOFADD.F32.SPAD (R169, R170). -/
def execAmofaddF32Spad (d a b : BitVec 6) (scale : BitVec 3) (_ord : Ord) (_scope : Scope) (off : BitVec 21) (s : State) :
    Host.Outcome State Fault Refusal :=
  amoSpad amoFadd 4 [d, a, b] d a b scale off s

end Sys2Proof.Machine
end

