-- ==== Sys2Proof/Machine/Freeze.lean ====
section
/-!
DEFINITION. Freeze, readout and restore (10_translation_and_traps.md R337 to R340; 01_machine_state.md R31; 03_encoding_and_assembly.md
R103; 06_lane_row_instructions.md R198; 07_matrix_and_inlay.md R238). What was saved is also the region's field `saved`; the bytes of the
save area, whose layout the spec does not give, are free but for the banks' (LOG 11 DESIGN CHOICE).
-/
namespace Sys2Proof.Machine

/-! ## Jobs of the distributor that are given up -/

/-- The jobs that a predicate picks leave the distributor, with what they have reserved. -/
def State.dropJobs (s : State) (p : Job → Bool) : State :=
  let gone := (s.dist.placing.toList ++ s.dist.interrupted).filter p
  let s1 := gone.foldl (fun s j => j.reserved.foldl (fun s x => s.dropMembers x.handle) s) s
  let d := s1.dist
  { s1 with dist := { d with
      queues := d.queues.foldl (fun (t : Table (List Job)) (e : Nat × List Job) => tabSet [] t e.1 (e.2.filter fun j => !p j)) d.queues
      placing := d.placing.filter fun j => !p j
      interrupted := d.interrupted.filter fun j => !p j } }.ask .placementReserve

/-- A job is the thaw of a region. -/
def Job.thaws (j : Job) (h : BitVec 32) : Bool := j.thaw && j.members.any fun i => i.handle == h

/-! ## Stopping and saving (R338) -/

/-- A tile as it is saved: L1 and the TLBs are empty (R31, R340). -/
def Tile.save (t : Tile) : Tile :=
  { t with l1 := [], dtlb := [], itlb := [], wave := false, freezing := false, strands := t.strands.map Strand.settle }

/-- The transfers in progress of a tile completed or faulted (R164). A transfer that waits for an answer stays queued. -/
def State.endTransfers (s : State) (t : Nat) : State :=
  [0, 1, 2, 3].foldl (fun s k => if (s.strandOf t k).interrupted.isNone then spillWords t k 17 s else s) s

/-- A packet between routers moved on until it lies in a buffer of the tile or port where its path ends (R338, step 5). -/
def State.settleFlight (s : State) (f : Flight) : State :=
  let s1 := s.unfly f
  let u := f.path.getLastD f.router
  let last := f.path.dropLast.getLastD f.router
  let onChannel (ch : Nat) : State :=
    let r := s1.region f.handle
    let c := (r.channel ch).take f.cargo
    s1.setRegion f.handle (r.setChannel ch (countCommits c.arriving c))
  match f.cargo with
  | .packet p => s1.enter u (facing (dirOf last u)) p
  | .combined port p => s1.setTile u ((s1.tile u).setCombine p.route port ((s1.tile u).combine p.route port ++ [p]))
  | .tokens ch _ => onChannel ch
  | .space ch _ => onChannel ch
  | .flow k => s1.raiseCounter u k

/-- The packets of a region between routers, oldest first, moved on. -/
def State.settleFlying (s : State) (h : BitVec 32) : State := (s.flying.filter fun f => f.handle == h).foldl State.settleFlight s

/-- Tiles by logical number. -/
def numberTiles : Nat → List Tile → Table Tile
  | _, [] => []
  | n, t :: ts => tabSet Tile.idle (numberTiles (n + 1) ts) n t

/-- A transfer that has begun still waits for a recall or an answer: no transfer of the strand ended between two states. -/
def transferWaits (before after : Strand) : Bool :=
  after.interrupted.isNone && !after.spillq.isEmpty && before.spillq.length == after.spillq.length

/-- A tile of a list has a transfer in progress that has neither completed nor faulted (R164). -/
def State.transfersWait (before after : State) (ts : List Nat) : Bool :=
  ts.any fun t => [0, 1, 2, 3].any fun k => transferWaits (before.strandOf t k) (after.strandOf t k)

/-! ## The save area (R339) -/

/-- The banks that the segment of a tile holds: those of scratchpad whose bit of the save mask is set. -/
def Tile.savedBanks (t : Tile) (mask : BitVec 30) : List Nat :=
  (upFrom 0 12).filter fun n => mask.getLsbD (18 + n) && t.banks.getLsbD n

/-- The segment of a tile that begins at an offset of the area: 128 KiB of fixed state, and 64 KiB for each bank. -/
def segmentBytes (step off : Nat) (mask : BitVec 30) (t : Tile) : List Byte :=
  (upFrom off 0x20000).map (Config.savedByte step) ++ (t.savedBanks mask).flatMap fun n => readBytes t.spad (0x10000 * n) 0x10000

/-- The segments of the tiles in logical order, and 64 KiB for each faceplate port. -/
def areaBytes (step : Nat) (mask : BitVec 30) (ports : Nat) : Nat → List Tile → List Byte
  | off, [] => (upFrom off (0x10000 * ports)).map (Config.savedByte step)
  | off, t :: ts =>
    let b := segmentBytes step off mask t
    b ++ areaBytes step mask ports (off + b.length) ts

/-- Where a region's save begins: after those of the other frozen regions of its context (LOG 11 DESIGN CHOICE). -/
def State.areaStart (s : State) (h : BitVec 32) : Nat :=
  ((s.regionsOf (s.region h).info.ctx).filter fun q => q.info.handle != h).foldl (fun n q => max n (q.saveAt + q.saveLen)) 0

/-- What a frozen region has saved written to its context's save area, as far as the area reaches, and its digest kept with the context
(R339). -/
def State.storeArea (s : State) (h : BitVec 32) : State :=
  let r := s.region h
  match s.context r.info.ctx with
  | none => s
  | some c =>
    let bs := (areaBytes s.steps r.saveMask r.ports.length 0 (r.saved.map (·.2))).take (c.saveBytes - r.saveAt)
    let a := c.savePa.toNat + r.saveAt
    let s1 := { s with mem := writeBytes s.mem a bs, uncorr := s.uncorr.filter fun x => !decide (a ≤ x ∧ x < a + bs.length) }
    (s1.setRegion h { r with saveLen := bs.length }).setContext r.info.ctx
      { c with digests := tabSet 0 c.digests h.toNat (shaValue bs) }

/-- The digest of a frozen region's save, recomputed from memory, is the one that the device keeps (R340, step 2). -/
def State.areaIntact (s : State) (h : BitVec 32) : Bool :=
  let r := s.region h
  match s.context r.info.ctx with
  | none => false
  | some c =>
    let a := c.savePa.toNat + r.saveAt
    !s.anyUncorr a r.saveLen && shaValue (readBytes s.mem a r.saveLen) == tabGet 0 c.digests h.toNat

/-- A region's digest given up. -/
def State.dropDigest (s : State) (h : BitVec 32) : State :=
  let ctx := (s.region h).info.ctx
  match s.context ctx with
  | some c => s.setContext ctx { c with digests := tabErase c.digests h.toNat }
  | none => s

/-- A region's state saved, once its packets between routers lie in its tiles' buffers, and its tiles and ports given up; a region that is to be destroyed is destroyed (R332). A chained launch that
waits for its producer holds no tiles, and keeps its ports. A save that a thaw has not yet brought back stays as it is. The ports'
address generators translate again before their first access after the thaw (R340). -/
def State.saveRegion (start : State) (h : BitVec 32) : State :=
  let s := start.settleFlying h
  let r := s.region h
  let ts := r.ownTiles
  let s1 := ts.foldl State.invalL1 s
  let saved := if r.saved.isEmpty then numberTiles 0 (ts.map fun t => (s1.tile t).save) else r.saved
  let s2 := s1.mapTiles ts Tile.cleared
  let s3 := if r.awaiting then s2 else (s.chainOf h).foldl State.dropMembers s2
  let r3 := s3.region h
  let s4 := s3.setRegion h { r3 with
    phase := .frozen
    saved := saved
    saveAt := if r.saved.isEmpty then s3.areaStart h else r3.saveAt
    saves := r3.saves + 1
    ports := mapValues (fun p => { p with bases := [] }) r3.ports
    tiles := if r.awaiting then r.tiles else []
    loadFault := if r.loaded then none else r.loadFault }
  let s5 := s4.dropJobs fun j => j.thaws h
  if r.doomed then s5.destroy h else if r.saved.isEmpty then s5.storeArea h else s5

/-- REGION_FREEZE (R338, R164): once the blocks that its ports have sent have landed or been dropped, and each transfer in progress has
completed or faulted, the region is saved. -/
def execRegionFreeze (h : BitVec 32) (s : State) : Host.Outcome State Fault Refusal :=
  let r := s.region h
  .next (if s.live h && r.phase == .freezing then
      if (s.chainOf h).any fun c => s.blocksFlying c r.ownTiles then s.ask (.regionFreeze h)
      else
        let s1 := r.ownTiles.foldl State.endTransfers s
        if !r.doomed && s.transfersWait s1 r.ownTiles then s1.ask (.regionFreeze h) else s1.saveRegion h
    else s)

/-! ## Restoring (R340) -/

/-- A scratchpad byte that the save mask keeps (R103). -/
def keptByte (mask : BitVec 30) (banks : BitVec 12) (a : Nat) : Bool :=
  mask.getLsbD (18 + a / 0x10000) && banks.getLsbD (a / 0x10000)

/-- The scratchpad of a tile that thaws. -/
def restoreSpad (mask : BitVec 30) (base saved : Tile) : Memory :=
  (saved.spad.filter fun e => keptByte mask saved.banks e.1).foldl (fun m e => writeByte m e.1 e.2)
    (base.spad.filter fun e => !keptByte mask saved.banks e.1)

/-- The lanes of a tile that thaws (R198). -/
def restoreLanes (mask : BitVec 30) (base saved : Tile) : Table Lane :=
  (upFrom 0 16).foldl (fun t n =>
    tabSet Lane.idle t n (if mask.getLsbD n then saved.lane n
      else ⟨LaneVal.clean (base.laneEntry saved.spindle.cslot n).h0, 127⟩)) []

/-- What a thaw without the matrix state leaves of the entry in progress: its position stays, what its rows had added is lost with the
accumulators, and EA is the idle one (R238). -/
def MxProgress.afterThaw (p : MxProgress) : MxProgress := { p with lost := p.rows.length, ea := none, rowEa := 127 }

/-- A tile that thaws, from the tile that the image gives and the one that was saved (R31, R103, R198, R238). -/
def Tile.restore (base saved : Tile) (mask : BitVec 30) (armed : Bool) : Tile :=
  let m := saved.matrix
  let x := saved.inlay
  { saved with
    bound := base.bound
    code := base.code
    spad := restoreSpad mask base saved
    banks := base.banks
    armed := if armed then saved.armed else none
    lanes := restoreLanes mask base saved
    laneCfg := base.laneCfg
    matrix := if mask.getLsbD 16 then { m with records := base.matrix.records }
      else { m with prog := m.prog.afterThaw, active := Plane.idle, shadow := Plane.idle, acc := [], ea := 127, perm := 0xE4, records := base.matrix.records }
    inlay := if mask.getLsbD 17 then x else { x with nodes := base.inlay.nodes, graphs := base.inlay.graphs }
    routes := base.routes
    transients := base.transients
    failing := base.failing }

/-- A tile that a thaw has bound, with what was saved of its logical tile. -/
def State.restoreTile (s : State) (r : Region) (ps : List Payload) (n t : Nat) : State :=
  let x := s.tile t
  let base := Tile.load { x.cleared with bound := x.bound } r.info.handle (payloadsOf ps n)
  s.setTile t (base.restore (tabGet Tile.idle r.saved n) r.saveMask r.arm.isSome)

/-- The tiles of a region restored in logical order. -/
def State.restoreTiles (s : State) (r : Region) (ps : List Payload) : Nat → List Nat → State
  | _, [] => s
  | n, t :: ts => (s.restoreTile r ps n t).restoreTiles r ps (n + 1) ts

/-- A tile with what was saved of it before its load phase ended. -/
def State.returnTiles (s : State) (r : Region) : Nat → List Nat → State
  | _, [] => s
  | n, t :: ts =>
    let x := s.tile t
    (s.setTile t { tabGet Tile.idle r.saved n with bound := x.bound, transients := x.transients, failing := x.failing }).returnTiles r
      (n + 1) ts

/-- The channels of a region with the depths and ends that the image gives; their tokens and counters stay (R31). -/
def Region.reconfigure (r : Region) (cs : Table Channel) : Region :=
  cs.foldl (fun r e => r.setChannel e.1 { r.channel e.1 with depth := e.2.depth, prod := e.2.prod, cons := e.2.cons }) r

/-- Steps that the ports of a region, and of the chained launches on its tiles, may have to take when they run again. -/
def State.wakeChain (s : State) (h : BitVec 32) : State :=
  let s1 := (s.chainOf h).foldl State.wakePorts s
  (s.region h).ports.foldl (fun s e => e.2.groups.foldl (fun s g => s.ask (.releaseTokenArrive h g.lgroup)) s) s1

/-- Steps that a region which runs again may have to take beside those of its tiles. -/
def State.wakeRegion (s : State) (h : BitVec 32) : State :=
  let r := s.region h
  let s2 := s.wakeChain h
  let s3 := ((s2.ask (.seedDelivery h)).ask (.stashRelief h)).ask (.versionLag h)
  let s4 := if r.closed then s3.ask (.regionEnd h) else s3
  let s5 := r.channels.foldl (fun s e => if e.2.cons == .region && e.2.tokens != 0 then s.ask (.resultPortPop h e.1) else s) s4
  r.tiles.foldl (fun s t =>
    let p := (s.tile t).matrix.prog
    let s1 := if r.arm.isSome then s.ask (.gradarmArrive t) else s
    let s2 := if p.arrived && p.joined.isNone then s1.ask (.quartetJoin t) else s1
    if p.retry then s2.ask (.maccReexecute t false) else s2) s5

/-- A denied answer that came while a region was frozen acts (R332). -/
def State.actDenied (s : State) (h : BitVec 32) : Option (List Word) → State
  | some rec => s.freezeRegion h (some .fabricDenied) none rec
  | none => s

/-- A region restored: it runs, no TLB holds an entry of its context, and the wave enters its first tile. A denied answer that came while it
was frozen acts now (R332). -/
def State.restored (s : State) (h : BitVec 32) (im : List Frame) : State :=
  let r := s.region h
  let s1 := s.restoreTiles r (payloads im) 0 r.tiles
  let s2 := ((s1.dropDigest h).removeEverywhere ⟨r.info.ctx, true, 0, 0⟩).setRegion h
    { (s1.region h).reconfigure (channelsOf (elements (payloads im))) with
      phase := .running, cause := none, inner := none, saved := [], saveLen := 0, thaws := r.thaws + 1, denied := none }
  ((s2.push (.configCompleteWave (r.physical 0))).wakeRegion h).actDenied h r.denied

/-- A chained launch that waits for its producer's tiles thawed: it waits again, with its ports as they were saved, and takes the tiles of a
producer that has ended meanwhile. -/
def State.restoredAwaiting (s : State) (h : BitVec 32) : State :=
  let r := s.region h
  let s1 := (s.dropDigest h).setRegion h { r with
    phase := .committed, cause := none, inner := none, saveLen := 0, thaws := r.thaws + 1, denied := none }
  ((s1.wakeChain h).ask (.chainedCommit h)).actDenied h r.denied

/-- The save of a region with some of its bytes turned over, as errors in stack memory leave them: offset in the save, and bits. -/
def State.spoilt (s : State) (h : BitVec 32) (damage : List (Nat × Byte)) : State :=
  let r := s.region h
  match s.context r.info.ctx with
  | none => s
  | some c =>
    let a := c.savePa.toNat + r.saveAt
    { s with mem := (damage.filter fun d => d.1 < r.saveLen).foldl (fun m d => writeByte m (a + d.1) (readByte m (a + d.1) ^^^ d.2)) s.mem }

/-- The save of a region as a thaw finds it: the bytes of `damage` have been turned over in it meanwhile, and it is read (R385). -/
def State.readArea (s : State) (h : BitVec 32) (damage : List (Nat × Byte)) : State :=
  let r := s.region h
  match s.context r.info.ctx with
  | none => s
  | some c => (s.spoilt h damage).burst (upFrom (c.savePa.toNat + r.saveAt) r.saveLen)

/-- THAW_RESTORE (R340, steps 2 to 5): the bytes of `damage` have been turned over in the save meanwhile. The digest of a bound region's
save is recomputed. On a mismatch the region is destroyed. A region that froze in its load phase loads again (LOG 69 DEDUCED); a chained launch that has no tiles of its own waits again. -/
def execThawRestore (h : BitVec 32) (damage : List (Nat × Byte)) (start : State) : Host.Outcome State Fault Refusal :=
  let s := start.readArea h damage
  let r := s.region h
  .next (if s.live h && r.phase == .thawing && (r.awaiting || !r.tiles.isEmpty) && r.loadFault.all (fun m => m.answer != .waiting || !r.loaded) then
      if !s.areaIntact h then (s.destroy h).contextError r .stateUncorrectable none []
      else if r.awaiting then s.restoredAwaiting h
      else if !r.loaded then
        let s1 := (s.returnTiles r 0 r.tiles).dropDigest h
        (s1.setRegion h { s1.region h with phase := .loading, cause := none, inner := none, saved := [], saveLen := 0 }).ask (.placementLoad h)
      else
        match s.loadImage h with
        | (s1, .hold (some m)) => s1.setRegion h { s1.region h with loadFault := some m }
        | (s1, .hold none) | (s1, .fail .topoStale) => s1.ask (.thawRestore h [])
        | (s1, .fail c) => s1.freezeRegion h (some c) none []
        | (s1, .ok im) => s1.restored h im
    else start)

end Sys2Proof.Machine
end

