-- ==== Sys2Proof/Machine/Debug.lean ====
section
/-!
DEFINITION. The debugger's operations and the watchdog (10_translation_and_traps.md R341 to R346). An operation acts on a live region
of a context with debug enabled, on the tile as it stands, or as it was saved.
-/
namespace Sys2Proof.Machine

/-! ## Reaching a tile (R341, R345) -/

/-- The number under which a saved tile is looked at. No physical tile has it. -/
def debugSpot : Nat := 36864

/-- The tile number at which a logical tile of a region can be reached, with the state in which it stands there. -/
def State.debugView (s : State) (h : BitVec 32) (n : Nat) : Option (Nat × State) :=
  let r := s.region h
  if !(s.live h && s.debugOn r) then none
  else if r.saved.isEmpty then (if r.awaiting then none else (r.tiles[n]?).map fun t => (t, s))
  else (r.saved.find? fun e => e.1 == n).map fun e => (debugSpot, s.setTile debugSpot e.2)

/-- A saved tile put back where it is saved. -/
def State.debugDone (s : State) (h : BitVec 32) (n t : Nat) : State :=
  if t = debugSpot then
    let r := s.region h
    (s.setRegion h { r with saved := tabSet Tile.idle r.saved n (s.tile t) }).setTile debugSpot Tile.idle
  else s

/-- The save area and its digest follow a change of what a frozen region has saved (R345). -/
def State.debugStore (s : State) (h : BitVec 32) (t : Nat) : State := if t = debugSpot then s.storeArea h else s

/-- An operation on a logical tile: refused, it returns DEBUG_DENIED and changes nothing (R341). -/
def debugOp (h : BitVec 32) (n : Nat) (f : Nat → State → Option State) (s : State) : Host.Outcome State Fault Refusal :=
  .next (match s.debugView h n with
    | none => { s with debugStatus := Cause.debugDenied.code }
    | some (t, s1) =>
      match f t s1 with
      | none => { s with debugStatus := Cause.debugDenied.code }
      | some s2 => { s2.debugDone h n t with debugStatus := 0 })

/-- An operation that changes state: of a frozen region, in the save area too. -/
def debugChange (h : BitVec 32) (n : Nat) (f : Nat → State → Option State) (s : State) : Host.Outcome State Fault Refusal :=
  .next (match s.debugView h n with
    | none => { s with debugStatus := Cause.debugDenied.code }
    | some (t, s1) =>
      match f t s1 with
      | none => { s with debugStatus := Cause.debugDenied.code }
      | some s2 => { (s2.debugDone h n t).debugStore h t with debugStatus := 0 })

/-! ## HALT, RESUME, STEP (R342) -/

/-- DEBUG_HALT: the strand stops at an instruction boundary, and a STASH that waits reissues. -/
def execDebugHalt (h : BitVec 32) (t : Nat) (k : Fin 4) (s : State) : Host.Outcome State Fault Refusal :=
  debugChange h t (fun t s => some (s.setStrandOf t k (s.strandOf t k).halt)) s

/-- DEBUG_RESUME. -/
def execDebugResume (h : BitVec 32) (t : Nat) (k : Fin 4) (s : State) : Host.Outcome State Fault Refusal :=
  debugChange h t (fun t s => some (s.setStrandOf t k (s.strandOf t k).resume)) s

/-- DEBUG_STEP: SSTEP is set, and a halted strand resumes. -/
def execDebugStep (h : BitVec 32) (t : Nat) (k : Fin 4) (s : State) : Host.Outcome State Fault Refusal :=
  debugChange h t (fun t s =>
    let x := s.strandOf t k
    if x.halted then some (s.setStrandOf t k ((x.setStatus 15 false).setStatus 14 true)) else none) s

/-! ## Elements (R104 to R106, R341) -/

/-- Four words of a table as a frame. -/
def tableFrame (t : Table Word) (k : Nat) : Nat :=
  (upFrom 0 4).foldl (fun n j => n + (tabGet 0 t (k + j)).toNat * 2 ^ (64 * j)) 0

/-- The word of a queue binding (Table 3.11). -/
def QBind.word : QBind → Nat
  | .unbound => 0
  | .producer ch => 2 ^ 61 + ch * 2 ^ 51
  | .consumer ch => 2 * 2 ^ 61 + ch * 2 ^ 51
  | .input p => 3 * 2 ^ 61 + p * 2 ^ 43
  | .output p => 4 * 2 ^ 61 + p * 2 ^ 43
  | .arrive st => 5 * 2 ^ 61 + st * 2 ^ 43

/-- The slots of an actor frame. -/
def slotBits (rs : List Rate) : Nat :=
  (upFrom 0 8).foldl (fun n k => n + ((nth ⟨0, 0⟩ rs k).ch * 256 + (nth ⟨0, 0⟩ rs k).rate) * 2 ^ (18 * k)) 0

/-- The even frame of an actor entry. -/
def Actor.frame (a : Actor) : Nat :=
  (if a.valid then 2 ^ 255 else 0) + a.cls * 2 ^ 253 + a.target * 2 ^ 251 + a.entry.toNat * 2 ^ 238 + a.substream * 2 ^ 235 + slotBits a.ins

/-- The record of a channel on a logical tile (Table 3.11). -/
def Region.chanWord (r : Region) (n ch : Nat) : Nat :=
  let c := r.channel ch
  let here (e : End) : Bool := e.tile == some n
  let port (e : End) : Nat := match e with
    | .engine t p => if t = n then p else 0xFF
    | _ => 0xFF
  let peer (e : End) : Nat := match e with
    | .queue t _ => t
    | .engine t _ => t
    | .fport p => 0xFF00 + p
    | _ => 0xFFFF
  if here c.prod || here c.cons then
    (c.depth - 1) * 2 ^ 52 + ((if here c.prod then 1 else 0) + if here c.cons then 2 else 0) * 2 ^ 50
      + peer (if here c.prod then c.cons else c.prod) * 2 ^ 34 + port c.prod * 2 ^ 14 + port c.cons * 2 ^ 6
  else 0

/-- The frame of a memory-class record of a logical tile (Table 3.11). -/
def Region.recordFrame (r : Region) (n : Nat) (x : Tile) (i : Nat) : Nat :=
  if i = 0 then x.banks.toNat * 2 ^ 244 + low x.ktvec 13 * 2 ^ 231
  else if i = 1 then x.stash.handle.bits.toNat + x.stash.capacity * 2 ^ 74
  else if i ≤ 5 then (upFrom 0 3).foldl (fun f j =>
    let b := x.bankToken (3 * (i - 2) + j)
    f + (b.holder.toNat + b.next.toNat * 2 ^ 32 + if b.handed then 2 ^ 64 else 0) * 2 ^ (80 * j)) 0
  else if i < 0x18 then (x.ring (2 * (i - 0x10))).bits.toNat + (x.ring (2 * (i - 0x10) + 1)).bits.toNat * 2 ^ 128
  else if i < 0x28 then (upFrom 0 4).foldl (fun f j => f + (x.queue (4 * (i - 0x20) + j)).word * 2 ^ (64 * j)) 0
  else if i < 0xC0 then
    let a := x.actor ((i - 0x40) / 2)
    if i % 2 = 0 then a.frame else slotBits a.outs
  else (upFrom 0 4).foldl (fun f j => f + r.chanWord n (4 * (i - 0x100) + j) * 2 ^ (64 * j)) 0

/-- The frame of an element, by its target address; `x` is the tile that it names. -/
def Region.elementFrame (r : Region) (x : Tile) (t : Nat) : Nat :=
  let i := tIndex t
  match tClass t with
  | 1 => tableFrame x.code (4 * i)
  | 2 => (tabGet 0 x.laneCfg i).toNat
  | 3 => tableFrame x.matrix.records (4 * i)
  | 4 => (upFrom 0 8).foldl (fun f j => f + (tabGet 0 x.inlay.nodes (8 * i + j)).toNat * 2 ^ (32 * j)) 0
  | 5 => r.recordFrame (tTile t) x i
  | 6 => tableFrame x.routes (4 * i)
  | 7 => tableFrame (r.port (tTile t - 0xFF00)).words (4 * i)
  | _ => readNat x.spad (dataOffset t) 32

/-- An element that the region has. Scratchpad data lie in scratchpad banks. -/
def Region.hasElement (r : Region) (x : Tile) (t : Nat) : Bool :=
  tClass t != 0 && targetOk (r.info.rows * r.info.cols) t
    && (tClass t != 7 || r.ports.any fun e => 0xFF00 + e.1 == tTile t)
    && (!isDataClass (tClass t) || x.isSpad (dataOffset t))

/-- The logical tile whose state an element belongs to; a port's element belongs to none, and is reached with tile 0. -/
def elementTile (t : Nat) : Nat := if tClass t = 7 then 0 else tTile t

/-- A thaw restores an element from the image (R103, R345). -/
def Region.fromImage (r : Region) (x : Tile) (t : Nat) : Bool :=
  match tClass t with
  | 4 => !r.saveMask.getLsbD 17
  | 5 => tIndex t == 0 || decide (0x100 ≤ tIndex t)
  | c => !isDataClass c || !keptByte r.saveMask x.banks (dataOffset t)

/-- A node word whose reserved values are 0 (Table 7.5). -/
def cleanNode (v : Nat) : Nat :=
  let w := BitVec.ofNat 32 v
  if natBits v 29 3 = 7 then ((if natBits v 5 2 = 3 then w &&& ~~~(0x60#32) else w) &&& ~~~(0x1F#32)).toNat
  else ((if natBits v 23 2 = 3 then w &&& ~~~(0x1800000#32) else w) &&& ~~~(1#32)).toNat

/-- A channel of a region as a record of a logical tile gives it; its tokens and counters stay. -/
def Region.putChan (r : Region) (x : Tile) (n ch w : Nat) : Region :=
  let k := ChanRec.of n ch 0 w
  let c := r.channel ch
  let find (b : QBind) : End := match x.queues.find? fun q => q.2 == b with
    | some q => .queue n q.1
    | none => .unbound
  let side (here far : Bool) (port : Nat) (b : QBind) (old : End) : End :=
    if here then (if port = 0xFF then find b else .engine n port)
    else if far && k.peer == 0xFFFF then .region
    else if far && decide (0xFF00 ≤ k.peer) then .fport (k.peer - 0xFF00)
    else if old.tile = some n then .unbound
    else old
  r.setChannel ch { c with
    depth := if k.ends = 0 then c.depth else k.depth
    prod := side k.prodHere k.consHere k.pport (.producer ch) c.prod
    cons := side k.consHere k.prodHere k.cport (.consumer ch) c.cons }

/-- An element of a region written as a whole: the tile that it names, and the region. A field that holds a reserved value takes effect
as 0 (R345). -/
def Region.putElement (r : Region) (x : Tile) (t f : Nat) : Tile × Region :=
  let i := tIndex t
  let p (v : Nat) : Payload := ⟨t, 0, 0, BitVec.ofNat 256 v⟩
  match tClass t with
  | 4 => (x.deliver (p ((upFrom 0 8).foldl (fun g j => g + cleanNode (natBits f (32 * j) 32) * 2 ^ (32 * j)) 0)), r)
  | 5 =>
    if i = 1 then
      let y := x.deliver (p f)
      ({ y with stash := { y.stash with entries := x.stash.entries } }, r)
    else if 0x100 ≤ i then (x, (upFrom 0 4).foldl (fun r j => r.putChan x (tTile t) (4 * (i - 0x100) + j) (natBits f (64 * j) 64)) r)
    else
      let y := x.deliver (p f)
      if 0x40 ≤ i ∧ i % 2 = 0 then
        let a := y.actor ((i - 0x40) / 2)
        (if 6 ≤ a.substream then y.setActor ((i - 0x40) / 2) { a with substream := 0 } else y, r)
      else (y, r)
  | 7 =>
    let n := tTile t - 0xFF00
    (x, r.setPort n { r.port n with words := putWords (r.port n).words (4 * i) (BitVec.ofNat 256 f) })
  | _ => (x.deliver (p f), r)

/-- A frame with a 32-bit word replaced. -/
def putWord32 (f w v : Nat) : Nat := f - natBits f (32 * w) 32 * 2 ^ (32 * w) + v * 2 ^ (32 * w)

/-! ## READ and WRITE (R341, R343, R345) -/

/-- The element that a pop of a queue register would take. -/
def State.debugHead (s : State) (t : Nat) (k : Fin 4) (q : Nat) : Option Token :=
  (queueHead ((s.tile t).queue q) { s with cur := ⟨t, k⟩ } 1).head?

/-- What READ returns; none when it names nothing. -/
def State.debugValue (s : State) (h : BitVec 32) (t : Nat) (k : Fin 4) : DebugTarget → Option Word
  | .g n => some ((s.strandOf t k).rg n)
  | .p => some (((s.strandOf t k).p ||| 1).zeroExtend 64)
  | .pc => some ((s.strandOf t k).pc.zeroExtend 64)
  | .creg i => s.kreg t k i.toNat
  | .queue q => some (match s.debugHead t k q.toNat with
    | some v => v.payload
    | none => Config.emptyQueue s.steps)
  | .element a w =>
    let r := s.region h
    if r.hasElement (s.tile t) a.toNat ∧ w.toNat < 8 then
      some (BitVec.ofNat 64 (natBits (r.elementFrame (s.tile t) a.toNat) (32 * w.toNat) 32))
    else none

/-- The logical tile on which an operation acts: the one that its element names, or the strand's. -/
def debugTile (n : Nat) : DebugTarget → Nat
  | .element a _ => elementTile a.toNat
  | _ => n

/-- DEBUG_READ: the value read goes to the debug window (LOG 76 DEDUCED). -/
def execDebugRead (h : BitVec 32) (t : Nat) (k : Fin 4) (what : DebugTarget) (s : State) : Host.Outcome State Fault Refusal :=
  debugOp h (debugTile t what) (fun t s => (s.debugValue h t k what).map fun v => { s with debugData := v }) s

/-- KSTATUS as a WRITE leaves it: STRAND and FIRING cannot change. A reserved RM is not taken, or takes effect as 0 in a saved state. -/
def debugStatusWord (sr saved : Bool) (old v : Word) : Option Word :=
  let rm := field v 4 3
  let ok := decide (rm < 4) || (rm == 4 && sr)
  if (v ^^^ old) &&& 0x3800 ≠ 0 then none
  else
    let m : Word := if ok || saved then 0xC0FB else 0xC08B
    some ((old &&& ~~~m) ||| ((if ok then v else v &&& ~~~(0x70#64)) &&& m))

/-- The control registers that no WRITE changes (R343). -/
def debugFixed (n : Nat) : Bool := [0x011, 0x020, 0x021, 0x022, 0x023, 0x024, 0x025, 0x026, 0x027, 0x030, 0x031, 0x032, 0x040].contains n

/-- A register of a strand written; none when the WRITE is refused. `saved`: the strand's region is frozen. -/
def State.debugPutReg (s : State) (saved : Bool) (t : Nat) (k : Fin 4) (what : DebugTarget) (v : Word) : Option State :=
  let x := s.strandOf t k
  let put (y : Strand) : Option State := some (s.setStrandOf t k y)
  match what with
  | .g n => put (x.wg n v)
  | .p => put { x with p := v.truncate 8 }
  | .pc => put { x with pc := v.truncate 13, hold := if v.truncate 13 = x.pc then x.hold else .none }
  | .creg i =>
    if i = 0 then (debugStatusWord (s.feature 6) saved x.kstatus v).bind fun w => put { x with kstatus := w }
    else if debugFixed i.toNat then none
    else s.setKreg t k i.toNat v
  | .queue q => if (s.tile t).queue q.toNat = .unbound then some s else none
  | .element _ _ => none

/-- A word of an element written; none when the WRITE is refused. -/
def State.debugPutElement (s : State) (saved : Bool) (h : BitVec 32) (t a w : Nat) (v : Word) : Option State :=
  let r := s.region h
  let x := s.tile t
  if !r.hasElement x a || decide (8 ≤ w) || (saved && r.fromImage x a) then none
  else
    let (y, r1) := r.putElement x a (putWord32 (r.elementFrame x a) w (low v 32))
    let s1 := (s.setRegion h r1).setTile t y
    some (if saved then s1 else (s1.wakeTile t).wakePorts h)

/-- DEBUG_WRITE: refused for a register of a strand that is not halted, unless its region is frozen. -/
def execDebugWrite (h : BitVec 32) (t : Nat) (k : Fin 4) (what : DebugTarget) (value : Word) (s : State) : Host.Outcome State Fault Refusal :=
  debugChange h (debugTile t what) (fun t s =>
    let saved := t == debugSpot
    match what with
    | .element a w => s.debugPutElement saved h t a.toNat w.toNat value
    | _ => if saved || (s.strandOf t k).halted then s.debugPutReg saved t k what value else none) s

/-! ## HEADREPLACE (R344) -/

/-- DEBUG_HEADREPLACE: payload, type bit and exception bit as the debugger gives them, an exception bit of a scale token too (LOG 91 DESIGN
CHOICE). -/
def execDebugHeadreplace (h : BitVec 32) (t : Nat) (k : Fin 4) (q : BitVec 5) (payload : Word) (scale exc : Bool) (s : State) :
    Host.Outcome State Fault Refusal :=
  debugChange h t (fun t s =>
    let x := s.tile t
    let y := s.strandOf t k
    let new (v : Token) : Token := { v with payload := payload, scale := scale, exc := exc }
    let port (p : Nat) : Option State :=
      match x.port p with
      | v :: l => some (s.setTile t (x.setPort p (new v :: l)))
      | [] => none
    if !y.halted then none
    else match x.queue q.toNat, y.firing with
      | .consumer ch, some f =>
        let r := s.region h
        match (r.channel ch).fifo with
        | v :: l => if x.leftIn f ch = 0 then none else some (s.setRegion h (r.setChannel ch { r.channel ch with fifo := new v :: l }))
        | [] => none
      | .output p, _ => port p
      | .arrive st, _ => port (arrivePort st)
      | _, _ => none) s

/-! ## The watchdog (R346) -/

/-- DEBUG_WATCHDOG: the limit of a region set; 0 turns the watchdog off. -/
def execDebugWatchdog (h : BitVec 32) (limit : BitVec 32) (s : State) : Host.Outcome State Fault Refusal :=
  let r := s.region h
  .next (if s.live h && s.debugOn r then { s.setRegion h { r with watchdog := limit.toNat } with debugStatus := 0 }
    else { s with debugStatus := Cause.debugDenied.code })

/-- WATCHDOG_EXPIRE: a strand whose instruction has waited as long as the limit takes DEBUG_WATCHDOG at it; an
access that waits for a page answer loses its mark (R324) (LOG 19 DEDUCED)
(LOG 63 DEDUCED). -/
def execWatchdogExpire (t : Nat) (k : Fin 4) (s : State) : Host.Outcome State Fault Refusal :=
  let x := s.strandOf t k
  let l := (s.regionOf t).watchdog
  .next (if s.active t && x.isFiring && !x.halted && l != 0 && decide (l ≤ x.waited) then
      let y := match x.hold with
        | .page n => x.clearMark n
        | _ => x
      let s1 := s.setStrandOf t k { y with hold := .none }
      { takeTrap { s1 with cur := ⟨t, k⟩ } .debugWatchdog (BitVec.ofNat 64 l) x.pc with cur := s.cur }
    else s)

end Sys2Proof.Machine
end

