-- ==== Sys2Proof/Machine/Retire.lean ====
section
/-!
DEFINITION. Field retirement (12_wafer_fabric.md R385 to R388; 13_links_and_host.md R448): a failing tile's column or row is removed from
the enabled grid, and the regions of its band freeze.
-/
namespace Sys2Proof.Machine

/-! ## Choosing (R386) -/

/-- The axis of a retirement: a column when the grid has at least as many columns as rows, and for a hop without a path (R383). -/
def State.retiresColumn (s : State) (c : Cause) : Bool := c == .gridRetired || decide (s.gridRows ≤ s.gridCols)

/-- A tile lies in the band of a failing tile. -/
def inBand (col : Bool) (t u : Nat) : Bool :=
  if col then pcolOf t / 24 == pcolOf u / 24 else prowOf t / 32 == prowOf u / 32

/-- The physical tiles of a column of a die. -/
def columnTiles (d c : Nat) : List Nat := (upFrom 0 32).map fun r => (d / 8 * 32 + r) * 192 + d % 8 * 24 + c

/-- The physical tiles of a row of a die. -/
def rowTiles (d r : Nat) : List Nat := (upFrom 0 24).map fun c => (d / 8 * 32 + r) * 192 + d % 8 * 24 + c

/-- Sum of the transient counts of some tiles. -/
def State.transientSum (s : State) (ts : List Nat) : Nat := ts.foldl (fun n t => n + (s.tile t).transients) 0

/-- The index with the largest number, the highest index among equals. -/
def heaviest (f : Nat → Nat) : List Nat → Option Nat
  | [] => none
  | i :: r => match heaviest f r with
    | some j => if f j < f i then some i else some j
    | none => some i

/-- The index that a die of the band gives up: the failing tile's own, or the enabled one with the largest transient count. -/
def State.victimIndex (s : State) (col : Bool) (t d : Nat) : Nat :=
  if d = dieOf t then (if col then pcolOf t % 24 else prowOf t % 32)
  else if col then (heaviest (fun c => s.transientSum (columnTiles d c)) (s.dieCols d)).getD 0
  else (heaviest (fun r => s.transientSum (rowTiles d r)) (s.dieRows d)).getD 0

/-- The dies of the band of a failing tile. -/
def bandDies (col : Bool) (t : Nat) : List Nat :=
  if col then (upFrom 0 6).map fun a => 8 * a + dieOf t % 8 else (upFrom 0 8).map fun b => 8 * (dieOf t / 8) + b

/-- The entry of the field-retirement list for a failing tile. -/
def State.retirementOf (s : State) (col : Bool) (t : Nat) : Retirement :=
  ⟨if col then 0 else 1, if col then dieOf t % 8 else dieOf t / 8, (bandDies col t).map (s.victimIndex col t)⟩

/-! ## Applying (R382, R386) -/

/-- The columns or rows of a retirement disabled: one of every die of its band. -/
def State.disableFor (s : State) (r : Retirement) : State :=
  if r.axis = 0 then { s with offCols := s.offCols ++ (upFrom 0 6).map fun a => 64 * (8 * a + r.band) + nth 0 r.index a }
  else { s with offRows := s.offRows ++ (upFrom 0 8).map fun b => 64 * (8 * r.band + b) + nth 0 r.index b }

/-- A retirement applied: every die of its band disables one more column or row, and the band's count falls by 1. -/
def State.applyRetirement (s : State) (r : Retirement) : State :=
  let s1 := s.disableFor r
  if r.axis = 0 then { s1 with colCount := tabSet 0 s1.colCount r.band (s1.cb r.band - 1) }
  else { s1 with rowCount := tabSet 0 s1.rowCount r.band (s1.rb r.band - 1) }

/-- The field-retirement list, stored in both of its copies (R448). -/
def State.storeRetirements (s : State) (l : List Retirement) : State :=
  { s with retirements := l, retireCopies := tabSet [] (tabSet [] s.retireCopies 0 l) 1 l }

/-- A retirement recorded in the list of 128 entries; one that finds it full lasts until reset (R448). -/
def State.recordRetirement (s : State) (r : Retirement) : State :=
  if s.retirements.length < 128 then s.storeRetirements (s.retirements ++ [r])
  else { s with bootstat := setBit s.bootstat 5 true }

/-- A failing tile's column or row retired: the mapping changes, and the grid version rises (R45). -/
def State.retireTile (s : State) (col : Bool) (t : Nat) : State :=
  let r := s.retirementOf col t
  let s1 := (s.applyRetirement r).recordRetirement r
  { s1 with gridVersion := s1.gridVersion + 1 }

/-! ## Freezing the band (R387, step 1) -/

/-- A pending join of a tile's matrix engine fails with reason 4. -/
def Tile.breakJoin (t : Tile) : Tile :=
  let p := t.matrix.prog
  if p.arrived && p.joined.isNone then { t with matrix := { t.matrix with prog := { p with joined := some 4 } } } else t

/-- Every barrier of a region broken: its waiters return status 1 (R260). -/
def State.breakBarriers (s : State) (h : BitVec 32) : State :=
  (s.region h).barriers.foldl (fun s e =>
    let r := s.region h
    let b := r.barrier e.1
    if b.arrived = 0 then s else (s.setRegion h (r.setBarrier e.1 (b.close 1 b.arrived))).push (.barrierPass h e.1)) s

/-- A region of the band frozen. Its event follows the grid's change (R387, step 4). -/
def State.retireFreeze (s : State) (h : BitVec 32) : State :=
  let r := s.region h
  let s1 := ((s.mapTiles r.ownTiles Tile.breakJoin).breakBarriers h).freezeRegion h none none []
  if r.phase = .freezing then s1 else s1.setRegion h { s1.region h with cause := some .gridRetired }

/-- The regions that bind a tile of a band and that the retirement in progress has not frozen. -/
def State.bandRegions (s : State) (col : Bool) (t : Nat) : List (BitVec 32) :=
  ((s.regions.map (·.2)).filter fun r => s.live r.info.handle && r.ownTiles.any (inBand col t)
    && !s.retireFrozen.contains r.info.handle).map fun r => r.info.handle

/-- Jobs with a reservation in a band go back to their queues. -/
def State.releaseBand (s : State) (col : Bool) (t : Nat) : State :=
  let hit (j : Job) : Bool := j.reserved.any fun r => r.tiles.any (inBand col t)
  let s1 := match s.dist.placing with
    | some j => if hit j then (s.putBack j).setPlacing none else s
    | none => s
  let s2 := (s1.dist.interrupted.filter hit).foldl State.putBack s1
  { s2 with dist := { s2.dist with interrupted := s2.dist.interrupted.filter fun j => !hit j } }.ask .placementReserve

/-- The words of GRID_SHRINK (R388). `x` and `y` are the tile's place in the grid before it shrinks. -/
def State.shrinkWords (s : State) (col : Bool) (x y t : Nat) (c : Cause) (n : Nat) : List Word :=
  [ BitVec.ofNat 64 (s.gridVersion.toNat * 2 ^ 48 + s.gridRows * 256 + s.gridCols),
    BitVec.ofNat 64 ((if col then x * 2 ^ 40 else 2 ^ 56 + y * 2 ^ 40) + pcolOf t * 2 ^ 24 + prowOf t * 2 ^ 16 + c.code),
    BitVec.ofNat 64 n ]

/-- The oldest retirement is over: the next one follows, and a placement that waited for it goes on (R383). -/
def State.nextRetirement (s : State) : State :=
  let rest := s.toRetire.tail
  let s1 := { s with toRetire := rest }.ask .placementReserve
  if rest.isEmpty then s1 else s1.ask .gridRetire

/-- Steps 2 to 4 of R387, once every region of the band is frozen. -/
def State.finishRetirement (s : State) (col : Bool) (t : Nat) (c : Cause) : State :=
  let (x, y) := s.gridAt t
  let hs := s.retireFrozen
  let s1 := (s.releaseBand col t).retireTile col t
  let s2 := s1.post 2 0x0201 (s1.shrinkWords col x y t c hs.length)
  let s3 := hs.foldl (fun s h => if s.live h then s.contextError (s.region h) .gridRetired none [] else s) s2
  { s3 with retireFrozen := [] }.nextRetirement

/-- A job in its commit phase holds a reservation in the band: its commit ends first (R16, R354) (LOG 103 DEDUCED). -/
def State.committingIn (s : State) (col : Bool) (t : Nat) : Bool :=
  (s.dist.placing.toList ++ s.dist.interrupted).any fun j => j.committing && j.reserved.any fun r => r.tiles.any (inBand col t)

/-- GRID_RETIRE (R386, R387): the oldest tile raised for retirement. The step follows again until the regions of its band are frozen. A
tile whose column or row is already gone needs nothing (LOG 77 DEDUCED). -/
def execGridRetire (s : State) : Host.Outcome State Fault Refusal :=
  .next (match s.toRetire with
    | [] => s
    | (t, c) :: _ =>
      if !s.enabled t then s.nextRetirement
      else
        let col := s.retiresColumn c
        let hs := s.bandRegions col t
        if s.committingIn col t then s.ask .gridRetire
        else if !hs.isEmpty then
          let s1 := hs.foldl State.retireFreeze s
          { s1 with retireFrozen := s1.retireFrozen ++ hs }.ask .gridRetire
        else if s.retireFrozen.any fun h => s.live h && (s.region h).phase == .freezing then s.ask .gridRetire
        else s.finishRetirement col t c)

end Sys2Proof.Machine
end

