-- ==== Sys2Proof/Machine/Link.lean ====
section
/-!
DEFINITION. Optical ports, link packets, circuit leases and topology changes (13_links_and_host.md R420 to R430, R439, R440;
10_translation_and_traps.md R333 to R335). What arrives from other modules and from the switch stands in the arguments of a step.
-/
namespace Sys2Proof.Machine

/-! ## Ports and colours (R420 to R423) -/

/-- An optical port. -/
def State.optPort (s : State) (p : Nat) : OptPort := tabGet OptPort.idle s.links p

/-- The state with an optical port replaced. -/
def State.setOptPort (s : State) (p : Nat) (x : OptPort) : State := { s with links := tabSet OptPort.idle s.links p x }

/-- A port of the module: 0 to 23 scale-up, 24 to 35 scale-out (R435). -/
def portExists (p : Nat) : Bool := decide (p < 36)

/-- A port changed, if the module has it. -/
def State.onPort (s : State) (p : Nat) (f : OptPort → OptPort) : State := if portExists p then s.setOptPort p (f (s.optPort p)) else s

/-- Colours of a mask. -/
def colours (m : BitVec 16) : List Nat := (upFrom 0 16).filter m.getLsbD

/-- A mask of some colours. -/
def maskOf (cs : List Nat) : BitVec 16 := cs.foldl (fun m c => m ||| (1#16 <<< c)) 0

/-- The LINK_STATE event of a port with a state code (R439). -/
def State.postLink (s : State) (p code : Nat) : State :=
  let x := s.optPort p
  s.post (0x100 + p) 0x0401 [BitVec.ofNat 64 (code * 256 + p), BitVec.ofNat 64 (x.retired.toNat * 65536 + x.tx.toNat)]

/-- The boot stage of BOOTSTAT (R443). -/
def State.bootStage (s : State) : Nat := field s.bootstat 8 8

/-- The current version. -/
def State.topoVer (s : State) : BitVec 16 := s.ktopo.truncate 16

/-- Node identity of this end of a port: the module number in scale-up, the fabric address in scale-out (R420). -/
def State.identity (s : State) (p : Nat) : BitVec 16 := if p < 24 then s.moduleNumber.zeroExtend 16 else s.fabricAddr

/-- A link that goes down. Packets in its transmit queue stay there (R423). -/
def State.linkFalls (s : State) (p : Nat) : State := (s.onPort p fun x => { x with state := 0, fails := [] }).postLink p 0

/-- A port without the colours of a mask. -/
def OptPort.without (x : OptPort) (m : BitVec 16) : OptPort :=
  { x with tx := x.tx &&& ~~~m, rx := x.rx &&& ~~~m, retired := x.retired ||| m }

/-- A direction of a port has fewer than 2 colours. -/
def OptPort.starved (x : OptPort) : Bool := decide ((colours x.tx).length < 2) || decide ((colours x.rx).length < 2)

/-- COLOUR_RETIRE (R422): a colour whose flit CRC has failed twice in a row is retired. A link with fewer than 2 colours in a direction
goes down. -/
def execColourRetire (port colour : Nat) (s : State) : Host.Outcome State Fault Refusal :=
  let x := s.optPort port
  .next (if portExists port && decide (colour < 16) && !x.retired.getLsbD colour then
      let y := { x.without (1#16 <<< colour) with fails := tabSet 0 x.fails colour 0 }
      let s1 := (s.setOptPort port y).postLink port 3
      if y.starved && x.state != 0 then s1.linkFalls port else s1
    else s)

/-- LINK_DOWN (R423): a link goes down. -/
def execLinkDown (port : Nat) (s : State) : Host.Outcome State Fault Refusal :=
  .next (if portExists port && (s.optPort port).state != 0 then s.linkFalls port else s)

/-- A port can give up a pair of colours of a direction: its link is up, and the direction keeps 2 (R421). -/
def OptPort.canMove (x : OptPort) (toRx : Bool) : Bool := x.state == 2 && decide (4 ≤ (colours (if toRx then x.tx else x.rx)).length)

/-- A split change carried out: a pair of colours of the losing direction moves (R421). Which pair it is the spec leaves open (LOG 38 DESIGN CHOICE). -/
def OptPort.split (x : OptPort) (toRx : Bool) (n : Nat) : OptPort :=
  let lose := colours (if toRx then x.tx else x.rx)
  let pairs := lose.flatMap fun a => (lose.filter fun b => decide (a < b)).map fun b => [a, b]
  let m := maskOf (nth [] pairs (n % pairs.length))
  if toRx then { x with tx := x.tx &&& ~~~m, rx := x.rx ||| m } else { x with rx := x.rx &&& ~~~m, tx := x.tx ||| m }

/-! ## Leases and packets sent (R423 to R427, R430)

The spec gives no step with which a collective engine or a load-store port issues a packet: what the model puts into a transmit queue is
the negative acknowledgements of R429 (LOG 105 DEDUCED). -/

/-- A lease by LEASEID. -/
def State.lease (s : State) (n : BitVec 16) : Option Lease := tabGet none s.leases n.toNat

/-- The state with a lease replaced, or removed. -/
def State.setLease (s : State) (n : BitVec 16) (x : Option Lease) : State := { s with leases := tabSet none s.leases n.toNat x }

/-- The LEASE_STATE event of a lease with a status (R440). -/
def State.postLease (s : State) (n : BitVec 16) (x : Lease) (status : Nat) : State :=
  s.post (0x100 + x.port) 0x0403 [BitVec.ofNat 64 (status * 2 ^ 24 + n.toNat * 256 + x.port), BitVec.ofNat 64 (x.rejected % 2 ^ 32)]

/-- Bytes rounded up to whole flits, at least one. -/
def padFlits (bs : List Byte) : List Byte := bs ++ List.replicate (64 * max 1 ((bs.length + 63) / 64) - bs.length) 0

/-- Flits of the payload that a header announces. -/
def flitsOf (w0 : Word) : Nat := field w0 0 14 + 1

/-- The CRC-32 that ends a packet. -/
def LinkPacket.crc (k : LinkPacket) : BitVec 32 := crc32 (natLe 8 k.w0.toNat ++ natLe 8 k.w1.toNat ++ k.payload)

/-- The payload of a packet: a Shaving stream is expanded; none on an error (R430). -/
def packetPayload (w0 : Word) (bs : List Byte) : Option (List Byte) :=
  if w0.getLsbD 46 then shaveAll bs (16 * 64 * 16384) Shaver.idle [] else some bs

/-- A payload as the port sends it: COMP, and the flits. A stream that is not shorter, or does not give the payload back, is not used
(LOG 108 DESIGN CHOICE). -/
def codedPayload (compressing : Bool) (bs : List Byte) : Bool × List Byte :=
  let c := Config.shaveStream bs
  if compressing && decide (c.length < bs.length) && packetPayload (1 <<< 46) c == some bs then (true, padFlits c) else (false, padFlits bs)

/-- Bytes that a transmit queue holds (LOG 108 DESIGN CHOICE: header and CRC count). -/
def OptPort.queued (x : OptPort) : Nat := x.txq.foldl (fun n k => n + k.payload.length + 20) 0

/-- The port compresses above 48 KiB, and goes on until its queue is below 16 KiB (R430). -/
def OptPort.pace (x : OptPort) (feature : Bool) : OptPort :=
  { x with compressing := feature && (decide (49152 < x.queued) || (x.compressing && decide (16384 ≤ x.queued))) }

/-- Header word 0 of a packet that leaves a port now (R424). -/
def State.header (s : State) (p : Nat) (k : TxPacket) (lease : BitVec 16) (comp : Bool) (flits : Nat) : Word :=
  BitVec.ofNat 64 (s.topoVer.toNat * 2 ^ 48 + (if k.bulk then 0 else 2 ^ 47) + (if comp then 2 ^ 46 else 0)
    + (s.identity p).toNat * 2 ^ 30 + lease.toNat * 2 ^ 14 + (flits - 1))

/-- A packet leaves a port. Its flits take the next sequence numbers (R421). -/
def State.sendPacket (s : State) (p : Nat) (k : TxPacket) (lease : BitVec 16) : State :=
  let x := s.optPort p
  let c := codedPayload x.compressing k.payload
  let q : LinkPacket := ⟨s.header p k lease c.1 (c.2.length / 64), BitVec.ofNat 64 (k.routeClass.toNat * 65536 + k.dest.toNat), c.2⟩
  s.setOptPort p { x with txSeq := x.txSeq + flitsOf q.w0, sent := x.sent ++ [⟨x.txSeq, q, q.crc⟩] }

/-- An open lease of a port to a peer. -/
def State.leaseTo (s : State) (p : Nat) (peer : BitVec 16) : Option (BitVec 16) :=
  (s.leases.find? fun e => match e.2 with
    | some l => l.port == p && l.peer == peer && l.phase == .opened
    | none => false).map fun e => BitVec.ofNat 16 e.1

/-- The LEASEID under which a packet may leave now: 0 for LS; for BULK its own lease, if it is open or the packet's message had begun
when it began to drain, else an open lease to the same peer (R427). -/
def State.leaseFor (s : State) (p : Nat) (k : TxPacket) : Option (BitVec 16) :=
  if !k.bulk then some 0
  else match s.lease k.lease with
    | some l => if l.port == p && (l.phase == .opened || (l.phase == .draining && k.begun)) then some k.lease else s.leaseTo p k.dest
    | none => s.leaseTo p k.dest

/-- Packets of a port's queue sent in order; those without a lease wait. -/
def sendQueue (p : Nat) : List TxPacket → State → State
  | [], s => s
  | k :: rest, s =>
    match s.leaseFor p k with
    | some n => sendQueue p rest ((s.onPort p fun x => { x.pace (s.feature 4) with txq := x.txq.erase k }).sendPacket p k n)
    | none => sendQueue p rest s

/-- A port whose link is up sends what it can. -/
def State.transmit (s : State) (p : Nat) : State := if (s.optPort p).state = 2 then sendQueue p (s.optPort p).txq s else s

/-- A packet enters a port's transmit queue. -/
def State.enqueue (s : State) (p : Nat) (k : TxPacket) : State := (s.onPort p fun x => { x with txq := x.txq ++ [k] }).transmit p

/-- LINK_TRAIN (R420, R423, R335): a link that is down trains, at the 8/8 split less its retired colours; the end with the lower node
identity takes the even ones. The pending shootdown entries that reach a rejoining module in phase 5 are applied in order, and the
peer's sequence number is taken over; then the packets that waited are sent. No link trains when boot stopped at step 1 or 2 (R441). A
link that keeps fewer than 2 colours in a direction stays down (LOG 78 DEDUCED). -/
def execLinkTrain (port : Nat) (peer : LinkPeer) (entries : List ShootRange) (s : State) : Host.Outcome State Fault Refusal :=
  let x := s.optPort port
  let own : BitVec 16 := if s.identity port < peer.id then 0x5555 else 0xAAAA
  let y := { x with tx := own &&& ~~~x.retired, rx := ~~~own &&& ~~~x.retired, fails := [], state := 1 }
  .next (if portExists port && x.state == 0 && !y.starved && decide (3 ≤ s.bootStage) then
      let s1 := (s.setOptPort port y).postLink port 1
      let s2 := entries.foldl State.shootHere s1
      ((s2.onPort port fun z => { z with state := 2, peer := peer.id, rxSeq := peer.seq, rxWait := [] }).postLink port 2).transmit port
    else s)

/-- A circuit opened by its second end: it lasts from now for the duration that this end named. BULK packets that waited for it go. -/
def State.openLease (s : State) (n : BitVec 16) (x : Lease) : State :=
  let s1 := (s.setLease n (some { x with phase := .opened, expiry := s.time + 1000 * x.durationUs })).postLease n x 2
  (s1.ask (.leaseExpire n)).transmit x.port

/-- A lease that one end has opened: the other has 1 ms (R425). -/
def State.halfOpen (s : State) (n : BitVec 16) (port : Nat) (peer : BitVec 16) (durationUs : Nat) (ph : LeasePhase) : State :=
  (s.setLease n (some ⟨port, peer, durationUs, s.time + 1000000, ph, 0, false, false⟩)).ask (.leaseOpenTimeout n)

/-- A lease that can be opened anew. -/
def leaseFree (x : Option Lease) : Bool :=
  match x with
  | none => true
  | some l => l.phase == .closed

/-- A lease that only one end has opened for 1 ms is cancelled (R425). -/
def State.cancelStale (s : State) (lease : BitVec 16) : State :=
  match s.lease lease with
  | some x =>
    if (x.phase == .localOnly || x.phase == .peerOnly) && decide (x.expiry ≤ s.time) then (s.setLease lease none).postLease lease x 1
    else s
  | none => s

/-- LEASE_PEER_OPEN (R425): the peer has opened a lease on a port. One that this end has opened on another port or to another peer does not
open (LOG 80 DEDUCED); one that only one end has had open for 1 ms is cancelled first. -/
def execLeasePeerOpen (lease : BitVec 16) (port : Nat) (peer : BitVec 16) (duration : Nat) (s : State) : Host.Outcome State Fault Refusal :=
  let s := s.cancelStale lease
  .next (if leaseFree (s.lease lease) then
      if portExists port then s.halfOpen lease port peer duration .peerOnly else s
    else match s.lease lease with
      | some x => if x.phase == .localOnly && x.port == port && x.peer == peer then s.openLease lease x else s
      | none => s)

/-- LEASE_OPEN_TIMEOUT (R425): a lease that only one end has opened for 1 ms is cancelled. -/
def execLeaseOpenTimeout (lease : BitVec 16) (s : State) : Host.Outcome State Fault Refusal :=
  .next (match s.lease lease with
    | some x =>
      if x.phase == .localOnly || x.phase == .peerOnly then
        if x.expiry ≤ s.time then s.cancelStale lease else s.ask (.leaseOpenTimeout lease)
      else s
    | none => s)

/-- The packets of a circuit in a port's queue belong to messages that have begun. -/
def OptPort.begin (x : OptPort) (n : BitVec 16) : OptPort :=
  { x with txq := x.txq.map fun k => if k.bulk && k.lease == n then { k with begun := true } else k }

/-- LEASE_EXPIRE (R427): at its expiry the circuit drains. -/
def execLeaseExpire (lease : BitVec 16) (s : State) : Host.Outcome State Fault Refusal :=
  .next (match s.lease lease with
    | some x =>
      if x.phase == .opened then
        if x.expiry ≤ s.time then (s.setLease lease (some { x with phase := .draining })).onPort x.port fun y => y.begin lease
        else s.ask (.leaseExpire lease)
      else s
    | none => s)

/-- Every packet of a circuit that its messages began has left. -/
def State.drained (s : State) (n : BitVec 16) (p : Nat) : Bool := !(s.optPort p).txq.any fun k => k.bulk && k.lease == n && k.begun

/-- CIRCUIT_CLOSE (R427): this end sends its final token after its last flit, and the circuit closes when it has the peer's too. -/
def execCircuitClose (circuit : CircuitEnd) (s : State) : Host.Outcome State Fault Refusal :=
  let lease := circuit.lease
  .next (match s.lease lease with
    | some x =>
      if x.phase == .draining then
        let y := { x with sentFinal := x.sentFinal || s.drained lease x.port, gotFinal := x.gotFinal || circuit.peerFinal }
        if y.sentFinal && y.gotFinal then (s.setLease lease (some { y with phase := .closed })).postLease lease y 0
        else s.setLease lease (some y)
      else s
    | none => s)

/-! ## Topology changes (R428, R46) -/

/-- SHADOWVALID of KTOPO. -/
def State.shadowValid (s : State) : Bool := s.ktopo.getLsbD 32

/-- The shadow version. -/
def State.shadowVer (s : State) : BitVec 16 := s.ktopo.extractLsb' 16 16

/-- COMMAND_DONE of a command with a status (R434, R440). -/
def State.commandDone (s : State) (w7 : Word) (n : Nat) : State :=
  s.post 4 0x0501 [(w7 &&& 0xFFFF000000000000) ||| BitVec.ofNat 64 n]

/-- The TOPO_REQUEST command that a change serves ends with a status: 0 at the grant, 3 at a denial or a failure (LOG 106 DEDUCED). -/
def State.endRequest (s : State) (c : TopoChange) (n : Nat) : State :=
  match c.command with
  | some w7 => s.commandDone w7 n
  | none => s

/-- The TOPO_STATE event of a port (R440). -/
def State.postTopo (s : State) (p : Nat) (v : BitVec 16) (status : Nat) : State :=
  s.post (0x100 + p) 0x0404 [BitVec.ofNat 64 (status * 2 ^ 24 + v.toNat * 256 + p)]

/-- The lowest scale-up port through which no change runs. -/
def State.freeTopoPort (s : State) : Option Nat := (upFrom 0 24).find? fun p => (s.optPort p).topo.isNone

/-- A change requested of the switch, with its route table. -/
def State.requestTopo (s : State) (change : Word) (routes : List Byte) (command : Option Word) : Option State :=
  s.freeTopoPort.map fun p => s.onPort p fun x => { x with topo := some ⟨some change, routes, command, 0, false, 0⟩ }

/-- The change that removes a module. -/
def removalOf (m : Nat) : Word := BitVec.ofNat 64 (m * 256 + 1)

/-- A removal asked for while no port asks for it (R333). -/
def State.askRemoval (s : State) (m : Nat) : State :=
  if s.links.any fun e => match e.2.topo with
    | some c => c.change == some (removalOf m)
    | none => false then s
  else (s.requestTopo (removalOf m) [] none).getD s

/-- The removals for which shoots of contexts whose home is here still wait; the home module asks for them (R333). A shoot of another
context waits until a granted table does without the module (LOG 59 DEDUCED). -/
def State.askRemovals (s : State) : State :=
  s.shoots.foldl (fun s e => match e.2 with
    | some x => if s.isHome x.range.ctx then x.removing.foldl State.askRemoval s else s
    | none => s) s

/-- Shoots that wait for the removal of modules which a table no longer reaches go on. -/
def State.removed (s : State) (far : List Nat) : State :=
  { s with shoots := s.shoots.map fun e => (e.1, e.2.map fun x => { x with removing := x.removing.filter fun m => !far.contains m }) }

/-- A rejected request of class LS is answered with a negative acknowledgement to its sender (R429); which packets are requests, and what
the answer holds, is free (LOG 110 DESIGN CHOICE). -/
def State.nack (s : State) (p : Nat) (k : LinkPacket) : State :=
  if k.w0.getLsbD 47 && Config.lsRequest k.payload then
    s.enqueue p ⟨false, 0, k.w0.extractLsb' 30 16, k.w1.extractLsb' 16 2, Config.nackPayload k.payload, false⟩
  else s

/-- A packet delivered whose payload is a negative acknowledgement: the strand that it answers takes TOPO_STALE at its access to another
module (R145, R429); which payloads are, and of which strand, is free (LOG 110 DESIGN CHOICE). -/
def State.takeNack (s : State) (k : LinkPacket) : State :=
  if k.w0.getLsbD 47 then
    match Config.nackFor k.payload with
    | some (t, i) => if (s.tile t).bound.isSome then s.setStrandOf t i { s.strandOf t i with nacked := true } else s
    | none => s
  else s

/-- The packets that a port holds, delivered for a version and otherwise rejected as stale (R429). -/
def OptPort.settleHeld (x : OptPort) (v : Option (BitVec 16)) : OptPort :=
  let good := x.held.filter fun k => v == some (k.w0.extractLsb' 48 16)
  let bad := x.held.length - good.length
  { x with
    held := []
    delivered := x.delivered ++ good
    stale := x.stale + BitVec.ofNat 32 bad
    staleNew := x.staleNew + BitVec.ofNat 32 bad
    staleVer := match (x.held.filter fun k => v != some (k.w0.extractLsb' 48 16)).getLast? with
      | some k => k.w0.extractLsb' 48 16
      | none => x.staleVer }

/-- The TOPO_REJECT event of a port that has rejected packets, at most one in a millisecond (R429). -/
def State.postReject (s : State) (p : Nat) : State :=
  let x := s.optPort p
  if x.staleNew ≠ 0 ∧ x.staleNext ≤ s.time then
    (s.setOptPort p { x with staleNew := 0, staleNext := s.time + 1000000 }).post (0x100 + p) 0x0402
      [BitVec.ofNat 64 p, x.staleNew.zeroExtend 64, BitVec.ofNat 64 (s.topoVer.toNat * 65536 + x.staleVer.toNat)]
  else s

/-- A port's held packets settled, and the requests among the rejected ones answered. -/
def State.settlePort (v : Option (BitVec 16)) (s : State) (p : Nat) : State :=
  let held := (s.optPort p).held
  let s1 := (held.filter fun k => v == some (k.w0.extractLsb' 48 16)).foldl State.takeNack (s.onPort p fun x => x.settleHeld v)
  (held.filter fun k => v != some (k.w0.extractLsb' 48 16)).foldl (fun s k => s.nack p k) (s1.postReject p)

/-- Every port's held packets settled. -/
def State.settlePorts (s : State) (v : Option (BitVec 16)) : State := (s.links.map (·.1)).foldl (State.settlePort v) s

/-- TOPO_GRANT (R428): the switch grants version v, and the module loads its shadow table and acknowledges. -/
def execTopoGrant (port : Nat) (v : BitVec 16) (table : RouteTable) (s : State) : Host.Outcome State Fault Refusal :=
  .next (if portExists port then
      let c := (s.optPort port).topo.getD ⟨none, [], none, v, true, 0⟩
      let s1 := s.onPort port fun x => { x with topo := some { c with command := none, version := v, granted := true, timeouts := 0 } }
      let k : Word := (s.ktopo &&& 0xFFFF) ||| (v.zeroExtend 64 <<< 16) ||| 0x100000000
      let s2 := ({ s1 with ktopo := k, shadowRemoved := table.far, shadowRoutes := table.bytes } : State).removed table.far
      (s2.endRequest c 0).postTopo port v 2
    else s)

/-- Pending shootdowns of modules that have rejoined: they have been applied there, and are deleted (R335). -/
def State.dropPending (s : State) (ms : List Nat) : State :=
  { s with pendingShoot := ms.foldl (fun t m => tabErase t m) s.pendingShoot }

/-- TOPO_COMMIT (R428, R46): the shadow version becomes the current one. Held packets of that version are delivered. -/
def execTopoCommit (port : Nat) (v : BitVec 16) (s : State) : Host.Outcome State Fault Refusal :=
  .next (if portExists port && s.shadowValid && s.shadowVer == v then
      let s1 := { s with
        ktopo := v.zeroExtend 64 ||| (v.zeroExtend 64 <<< 16)
        unreachable := s.shadowRemoved
        shadowRemoved := []
        topoRoutes := s.shadowRoutes
        shadowRoutes := [] }
      let s2 := s1.dropPending (s.unreachable.filter fun m => !s.shadowRemoved.contains m)
      let s3 := (s2.links.map (·.1)).foldl (fun s p => s.onPort p fun x => { x with topo := x.topo.filter fun c => !c.granted }) s2
      ((s3.settlePorts (some v)).postTopo port v 0).askRemovals
    else s)

/-- TOPO_DENY (R428): the switch denies a request; it may be made again after the commit. -/
def execTopoDeny (port : Nat) (s : State) : Host.Outcome State Fault Refusal :=
  .next (match (s.optPort port).topo with
    | some c =>
      if c.granted then s else ((s.onPort port fun x => { x with topo := none }).endRequest c 3).postTopo port c.version 1
    | none => s)

/-- A change failed: the shadow table, if it was loaded, is discarded. -/
def State.failTopo (s : State) (port : Nat) (c : TopoChange) : State :=
  let s1 := s.onPort port fun x => { x with topo := none }
  let s2 := if c.granted then
      ({ s1 with ktopo := s1.ktopo &&& ~~~(0x100000000#64), shadowRemoved := [], shadowRoutes := [] } : State).settlePorts none
    else s1
  ((s2.endRequest c 3).postTopo port c.version 3).askRemovals

/-- TOPO_MESSAGE_TIMEOUT (R428): the current message of a change has had no answer; after the eighth time the change fails. -/
def execTopoMessageTimeout (port : Nat) (s : State) : Host.Outcome State Fault Refusal :=
  .next (match (s.optPort port).topo with
    | some c =>
      if c.timeouts + 1 < 8 then s.onPort port fun x => { x with topo := some { c with timeouts := c.timeouts + 1 } }
      else s.failTopo port c
    | none => s)

/-- SHOOT_ACK_TIMEOUT (R333, R334): a module that has not acknowledged is recorded as unreachable, and the context's home module requests
its removal. -/
def execShootAckTimeout (id m : Nat) (s : State) : Host.Outcome State Fault Refusal :=
  .next (match s.shootOf id with
    | some x =>
      if x.asked.contains m then
        let s1 := s.setShoot id (some { x with
          asked := x.asked.filter fun n => n != m
          removing := if s.unreachable.contains m then x.removing else x.removing ++ [m]
          recorded := x.recorded + 1 })
        (s1.recordShoot m x.range).askRemovals
      else s
    | none => s)

/-! ## Packets received (R421, R422, R424, R429, R430) -/

/-- A flit CRC failure on a colour: the second in a row retires it (R422). -/
def State.flitFails (s : State) (p colour : Nat) : State :=
  let x := s.optPort p
  let n := tabGet 0 x.fails colour + 1
  let s1 := s.setOptPort p { x with fails := tabSet 0 x.fails colour n }
  if 2 ≤ n then s1.ask (.colourRetire p colour) else s1

/-- A packet with a good CRC has come over a colour: a failure before it was transient (R385, R422). -/
def OptPort.passes (x : OptPort) (colour : Nat) : OptPort :=
  { x with
    fails := tabSet 0 x.fails colour 0
    transients := if tabGet 0 x.fails colour = 0 then x.transients else min (x.transients + 1) 255 }

/-- A packet is delivered, held for the shadow version, or rejected as stale (R429). -/
def State.acceptPacket (s : State) (p : Nat) (k : LinkPacket) : State :=
  let v : BitVec 16 := k.w0.extractLsb' 48 16
  if v = s.topoVer then (s.onPort p fun x => { x with delivered := x.delivered ++ [k] }).takeNack k
  else if s.shadowValid && v == s.shadowVer then s.onPort p fun x => { x with held := x.held ++ [k] }
  else ((s.onPort p fun x => { x with stale := x.stale + 1, staleNew := x.staleNew + 1, staleVer := v }).postReject p).nack p k

/-- A packet may pass: one of class LS, or of a circuit that is open (R427). -/
def State.circuitOpen (s : State) (w0 : Word) : Bool :=
  w0.getLsbD 47 || match s.lease (w0.extractLsb' 14 16) with
    | some x => x.phase == .opened || x.phase == .draining
    | none => false

/-- The flits of a rejected packet counted at its lease. -/
def State.countRejected (s : State) (w0 : Word) : State :=
  let n : BitVec 16 := w0.extractLsb' 14 16
  match s.lease n with
  | some x => s.setLease n (some { x with rejected := x.rejected + field w0 0 14 + 1 })
  | none => s

/-- A packet in its turn: taken, or counted at a circuit that has closed. -/
def State.takePacket (s : State) (p : Nat) (k : LinkPacket) : State := if s.circuitOpen k.w0 then s.acceptPacket p k else s.countRejected k.w0

/-- Packets that wait for their turn, taken in the order of their sequence numbers (R421). -/
def takeWaiting (p : Nat) : Nat → State → State
  | 0, s => s
  | fuel + 1, s =>
    let x := s.optPort p
    match x.rxWait.find? fun e => e.1 == x.rxSeq with
    | some e =>
      let y := { x with rxSeq := x.rxSeq + flitsOf e.2.w0, rxWait := x.rxWait.filter fun f => f.1 != x.rxSeq }
      takeWaiting p fuel ((s.setOptPort p y).takePacket p e.2)
    | none => s

/-- A packet that has arrived whole, whose first flit has a sequence number (LOG 109 DEDUCED); one that came before is dropped. -/
def State.arrive (s : State) (p seq : Nat) (k : LinkPacket) : State :=
  let x := s.optPort p
  if seq < x.rxSeq ∨ x.rxWait.any (fun e => e.1 == seq) then s
  else takeWaiting p (x.rxWait.length + 1) (s.setOptPort p { x with rxWait := x.rxWait ++ [(seq, k)] })

/-- The bytes of a packet agree with its CRC-32 and with the length in its header (R424). -/
def LinkPacket.whole (k : LinkPacket) (crc : BitVec 32) : Bool := k.crc == crc && k.payload.length == 64 * flitsOf k.w0

/-- LINK_PACKET_RECEIVE (R421, R422, R424, R427, R429, R430): a packet arrives at a port whose link is up. A length that differs from the
header's counts as a CRC failure (LOG 109 DEDUCED). -/
def execLinkPacketReceive (port colour seq : Nat) (w0 w1 : Word) (body : LinkBody) (s : State) :
    Host.Outcome State Fault Refusal :=
  .next (if portExists port && (s.optPort port).state == 2 then
      if !(⟨w0, w1, body.payload⟩ : LinkPacket).whole body.crc then s.flitFails port colour
      else match packetPayload w0 body.payload with
        | none => s.flitFails port colour
        | some bs => (s.onPort port fun x => x.passes colour).arrive port seq ⟨w0, w1, bs⟩
    else s)

end Sys2Proof.Machine
end

