-- ==== Sys2Proof/Machine/Boot.lean ====
section
/-!
DEFINITION. Boot, feature acceptance, attestation, clock and power (13_links_and_host.md R441 to R452; 12_wafer_fabric.md R379 to R381;
00_scope.md R1, R2).
-/
namespace Sys2Proof.Machine

/-! ## Measurement (R441) -/

/-- A measurement register. -/
def State.measured (s : State) (n : Nat) : BitVec 256 := tabGet 0 s.measure n

/-- A measurement register extended with the digest of an object. -/
def State.extend (s : State) (n : Nat) (digest : BitVec 256) : State :=
  let v := shaValue (natLe 32 (s.measured n).toNat ++ natLe 32 digest.toNat)
  { s with measure := tabSet 0 s.measure n v }

/-- The grid fields of KGRID (R45). -/
def State.gridWord (s : State) : Word := BitVec.ofNat 64 (s.gridVersion.toNat * 2 ^ 48 + s.gridRows * 256 + s.gridCols)

/-- The boot stage of BOOTSTAT set (R443). -/
def State.setStage (s : State) (n : Nat) : State :=
  { s with bootstat := (s.bootstat &&& ~~~(0xFF00#64)) ||| BitVec.ofNat 64 (n * 256) }

/-- A bit of BOOTSTAT set. -/
def State.setBoot (s : State) (bit : Nat) (b : Bool) : State := if b then { s with bootstat := setBit s.bootstat bit true } else s

/-- BOOT_DONE of BOOTSTAT. -/
def State.bootDone (s : State) : Bool := s.bootstat.getLsbD 6

/-! ## The grid (R380, R381) -/

/-- The least of some numbers, at most `cap`. -/
def leastUpTo (cap : Nat) (l : List Nat) : Nat := l.foldl min cap

/-- Columns that every die of a die-column band can enable. -/
def State.bandCols (s : State) (b : Nat) : Nat :=
  leastUpTo 24 ((upFrom 0 6).map fun a => ((upFrom 0 24).filter fun c => !s.offCols.contains (64 * (8 * a + b) + c)).length)

/-- Rows that every die of a die-row band can enable. -/
def State.bandRows (s : State) (a : Nat) : Nat :=
  leastUpTo 32 ((upFrom 0 8).map fun b => ((upFrom 0 32).filter fun r => !s.offRows.contains (64 * (8 * a + b) + r)).length)

/-- The lowest index of the largest number. -/
def largestAt (l : List Nat) : Nat :=
  let m := l.foldl max 0
  (l.findIdx? fun n => n == m).getD 0

/-- Counts lowered, the largest first, until their sum is at most a cap (R381). -/
def capCounts (cap : Nat) : Nat → List Nat → List Nat
  | 0, l => l
  | fuel + 1, l =>
    if cap < l.foldl (· + ·) 0 then capCounts cap fuel (setNth l (largestAt l) (nth 0 l (largestAt l) - 1)) else l

/-- Numbers as a table by position. -/
def tableOf (l : List Nat) : Table Nat := (upFrom 0 l.length).foldl (fun t i => tabSet 0 t i (nth 0 l i)) []

/-- Counts of every band, each at most a number. -/
def State.setCounts (s : State) (cols rows : List Nat) : State := { s with colCount := tableOf cols, rowCount := tableOf rows }

/-- The grid enabled for the ordering code: the base grid, or all that the bands supply. -/
def State.enableGrid (s : State) (surplus : Bool) : State :=
  let cols := (upFrom 0 8).map s.bandCols
  let rows := (upFrom 0 6).map s.bandRows
  if surplus then s.setCounts (capCounts 184 192 cols) (capCounts 180 192 rows)
  else
    (s.setCounts (cols.map (min 22)) (rows.map (min 28))).setBoot 4 ((cols.any fun n => decide (n < 22)) || rows.any fun n => decide (n < 28))

/-! ## BOOT (R441, R446 to R448) -/

/-- The machine at the release of reset; what lies outside the device, and what nothing clears, stays, module flash among it. -/
def State.released (s : State) (inp : BootInput) : State :=
  { State.reset with
    mem := s.mem
    hostMem := s.hostMem
    steps := s.steps
    cur := s.cur
    moduleNumber := inp.moduleNumber
    fabricAddr := inp.fabricAddr
    domain := inp.domain
    fusedMap := inp.fusedMap
    flash := tabSet [] (tabSet [] s.flash 0 (inp.flashA.getD (tabGet [] s.flash 0))) 1 (inp.flashB.getD (tabGet [] s.flash 1))
    retireCopies := s.retireCopies }

/-- A copy of the defect map in flash. -/
def State.mapCopy (s : State) (n : Nat) : List Byte := tabGet [] s.flash n

/-- A copy is good: its signature verifies, and its digest equals the fused one (R446). -/
def State.copyGood (s : State) (n : Nat) (signed : Bool) : Bool := signed && shaValue (s.mapCopy n) == s.fusedMap

/-- Step 3: the defect map, or quarantine boot (R446, R447). A copy that is not good is rewritten from the good one. M2 measures copy A
followed by copy B (LOG 82 DEDUCED). -/
def State.bootMap (s : State) (inp : BootInput) : State :=
  let a := s.copyGood 0 inp.mapASigned
  let b := s.copyGood 1 inp.mapBSigned
  let quarantine := !a && !b
  let s1 := { s.extend 2 (shaValue (s.mapCopy 0 ++ s.mapCopy 1)) with
    mapGood := (if a then 1 else 0) ||| (if b then 2 else 0)
    flash := if a && !b then tabSet [] s.flash 1 (s.mapCopy 0) else if b && !a then tabSet [] s.flash 0 (s.mapCopy 1) else s.flash
    defects := inp.defects.foldl (fun (t : Table Nat) (e : Nat × Nat) => tabSet 0 t e.1 e.2) []
    offCols := inp.offCols
    offRows := inp.offRows }
  ((s1.setBoot 0 quarantine).setBoot 1 quarantine).setBoot 2 (!quarantine && (!a || !b))

/-- Step 4: the surplus token of a ZE1-M184, which quarantine boot ignores (R2, R445, R447). -/
def State.bootToken (s : State) (inp : BootInput) : State :=
  if inp.m184 && !s.bootstat.getLsbD 0 then
    let s1 := (s.extend 3 inp.tokenDigest).setBoot 3 (!inp.tokenOk)
    if inp.tokenOk then { s1 with surplus := true, offered := s1.offered ||| 1 } else s1
  else s

/-- The field-retirement list that boot applies: that of a copy which verifies, or the empty one (R448). -/
def State.bootList (s : State) (inp : BootInput) : List Retirement :=
  if inp.listAOk then tabGet [] s.retireCopies 0 else if inp.listBOk then tabGet [] s.retireCopies 1 else []

/-- Steps 5 and 6: the grid, the field-retirement list and the self-test (R380, R386, R448). -/
def State.bootGrid (s : State) (inp : BootInput) : State :=
  let s1 := (s.extend 4 inp.listDigest).setBoot 2 (!inp.listAOk && !inp.listBOk)
  let list := s.bootList inp
  let s2 := { (list.foldl State.disableFor s1).enableGrid s1.surplus with retirements := list }
  let s3 := inp.selfTestFails.foldl (fun s t => if s.enabled t then s.retireTile (s.retiresColumn .matrixCheckHard) t else s) s2
  (s3.extend 5 (Config.objectDigest 5 s3.gridWord 0)).setStage 7

/-- BOOT (R441): reset is released, and the steps of Table 13.5 run up to the wait for ACCEPT0. A failure at step 1 or 2 stops boot
(LOG 82 DEDUCED). -/
def execBoot (inp : BootInput) (s : State) : Host.Outcome State Fault Refusal :=
  let s1 := (s.released inp).setStage 1
  .next (if !inp.rootKeyOk then s1
    else
      let s2 := (s1.extend 0 inp.romDigest).setStage 2
      if !inp.firmwareOk then s2
      else (((s2.extend 1 inp.firmwareDigest).bootMap inp).bootToken inp).bootGrid inp)

/-! ## ACCEPT (R444, R445) -/

/-- The grid without its surplus: each band at its base count, or fewer (R445). -/
def State.withdrawSurplus (s : State) : State :=
  let s1 := s.setCounts ((upFrom 0 8).map fun b => min 22 (s.cb b)) ((upFrom 0 6).map fun a => min 28 (s.rb a))
  { s1 with gridVersion := s1.gridVersion + 1, surplus := false }

/-- Step 8 of boot: BOOT_DONE is posted, and launches are taken. -/
def State.finishBoot (s : State) : State :=
  let s1 := (s.setStage 8).setBoot 6 true
  (s1.post 5 0x0701 [s1.bootstat, s1.gridWord]).ask .launchIntake

/-- A write of ACCEPTn: the first one sets the accepted bits. It is measured at step 7 of boot, which that of ACCEPT0 ends; where boot has
stopped at step 1 or 2 nothing follows it (LOG 82 DEDUCED). -/
def State.accept (s : State) (n : Nat) (v : Word) : State :=
  if 8 ≤ n ∨ s.acceptWritten.getLsbD n then s
  else
    let bits : BitVec 256 := (BitVec.ofNat 256 (low v 32) <<< (32 * n)) &&& s.offered
    let s1 := { s with accepted := s.accepted ||| bits, acceptWritten := s.acceptWritten ||| (1#8 <<< n) }
    if s.bootStage < 7 then s1
    else
    let s2 := if n = 0 ∧ s1.offered.getLsbD 0 ∧ !s1.accepted.getLsbD 0 then s1.withdrawSurplus else s1
    let s3 := s2.extend 6 (Config.objectDigest 6 v s2.gridWord)
    if n = 0 then s3.finishBoot else s3

/-- ACCEPT_WRITE (R444, R445). -/
def execAcceptWrite (n : Nat) (value : Word) (s : State) : Host.Outcome State Fault Refusal := .next (s.accept n value)

/-! ## Attestation (R442) -/

/-- The digest that a signature signs. -/
def State.attestationDigest (s : State) : BitVec 256 :=
  shaValue (readBytes s.attest 0 32 ++ ((upFrom 0 8).flatMap fun n => natLe 32 (s.measured n).toNat) ++ Config.serial
    ++ natLe 32 s.accepted.toNat ++ natLe 8 s.bootstat.toNat)

/-- 1 written at 0x0220: a signature of the nonce starts, or waits for the one in progress. -/
def State.attestStart (s : State) : State :=
  if s.attestState = 1 then { s with attestAgain := true }
  else { s with attestState := 1, attestDigest := s.attestationDigest }

/-- The certificate of the device key, in device ROM (R442). -/
def deviceCertificate : List Byte := (upFrom 0 Config.certLength.toNat).map fun i => Config.deviceRom (Config.certPointer.toNat + i)

/-- ATTEST_REQUEST (R442). -/
def execAttestRequest (s : State) : Host.Outcome State Fault Refusal := .next s.attestStart

/-- ATTEST_COMPLETE (R442): the signature is written, and one that has waited starts. -/
def execAttestComplete (s : State) : Host.Outcome State Fault Refusal :=
  .next (if s.attestState = 1 then
      let sig := (upFrom 0 384).map (Config.signature s.attestDigest)
      let s1 := { s with attest := writeBytes s.attest 0x40 sig, attestState := 2 }
      if s1.attestAgain then { s1 with attestAgain := false }.attestStart else s1
    else s)

/-! ## Clock and power (R451, R452) -/

/-- The THERMAL event. -/
def State.postThermal (s : State) (junction : Bool) (celsius : BitVec 16) : State :=
  s.post 5 0x0702 [BitVec.ofNat 64 (s.clockMHz + if junction then 65536 else 0), celsius.zeroExtend 64]

/-- Power removed: nothing runs until the next BOOT. -/
def State.powerOff (s : State) : State := { s with powered := false, agenda := [] }

/-- THERMAL (R451, R452): at 95 °C the tile clock drops to 900 MHz; at 105 °C the board controller removes power
(LOG 83 DEDUCED). -/
def execThermal (celsius : Nat) (s : State) : Host.Outcome State Fault Refusal :=
  .next (if 105 ≤ celsius then s.powerOff
    else if 95 ≤ celsius then { s with clockMHz := min s.clockMHz 900 }.postThermal true (BitVec.ofNat 16 celsius)
    else s)

/-- POWER_CAP_STEP (R451, R452): the tile clock steps down by 75 MHz, to a minimum of 600 MHz. -/
def execPowerCapStep (s : State) : Host.Outcome State Fault Refusal :=
  .next (if s.clockMHz ≤ 600 then s
    else { s with clockMHz := max 600 (s.clockMHz - 75) }.postThermal false (Config.junction s.steps))

/-- POWER_DOWN (R451). -/
def execPowerDown (s : State) : Host.Outcome State Fault Refusal := .next s.powerOff

end Sys2Proof.Machine
end

