-- ==== Sys2Proof/Machine/Control.lean ====
section
/-!
DEFINITION. Control transfer (03_encoding_and_assembly.md R94, 04_scalar_and_control.md R130 to R132).
-/
namespace Sys2Proof.Machine

/-- A transfer to an instruction-store index; a target above 8,191 takes BRANCH_RANGE at the instruction, and nothing else happens
(R94, R131). `s0` is the state before the instruction, `s` the state with its link written. -/
def transfer (s0 s : State) (target : Word) : Eff :=
  if target.toNat ≤ 8191 then .jump s (target.truncate 13) else .trap s0 .branchRange target

/-- PC as a word. -/
def State.pcWord (s : State) : Word := s.curStrand.pc.zeroExtend 64

/-- The target of a branch-shape instruction (R94). -/
def branchTarget (s : State) (off : BitVec 32) : Word := s.pcWord + sx32 off

/-- BR (R130). -/
def execBr (_hint : Bool) (off : BitVec 32) (s : State) : Host.Outcome State Fault Refusal :=
  issue s [] (transfer s s (branchTarget s off))

/-- BRP (R130): a branch that does not transfer does nothing. -/
def execBrp (a : BitVec 3) (neg _hint : Bool) (off : BitVec 32) (s : State) : Host.Outcome State Fault Refusal :=
  issue s [] (if s.curStrand.rp a != neg then transfer s s (branchTarget s off) else .done s)

/-- CALL (R131). -/
def execCall (d : BitVec 6) (_hint : Bool) (off : BitVec 32) (s : State) : Host.Outcome State Fault Refusal :=
  issue s [d] (transfer s (s.setCur (s.curStrand.wg d (s.pcWord + 1))) (branchTarget s off))

/-- RET (R131). -/
def execRet (a : BitVec 6) (s : State) : Host.Outcome State Fault Refusal := issue s [a] (transfer s s (s.curStrand.rg a))

/-- JMPR (R131). -/
def execJmpr (d a : BitVec 6) (s : State) : Host.Outcome State Fault Refusal :=
  issue s [d, a] (transfer s (s.setCur (s.curStrand.wg d (s.pcWord + 1))) (s.curStrand.rg a))

/-- YIELD (R132) has no architectural effect; the model's strands take turns at every instruction (LOG 4 DESIGN CHOICE). -/
def execYield (s : State) : Host.Outcome State Fault Refusal := issue s [] (.done s)

end Sys2Proof.Machine
end

