-- ==== Sys2Proof/Machine/Derive.lean ====
section
/-!
DEFINITION. Backward derivation (08_network_version_system.md R286, 12_wafer_fabric.md R418, R419).
-/
namespace Sys2Proof.Machine

/-! ## The three ranges -/

/-- The first address of a range, and the first address of every later page that it enters. -/
def rangePages (va : BitVec 56) (len : Nat) : List (BitVec 56) :=
  va :: ((upFrom 1 ((va.toNat % 16384 + len + 16383) / 16384 - 1)).map fun k => BitVec.ofNat 56 ((va.toNat / 16384 + k) * 16384))

/-- The home address of a virtual address by the pages that have been translated. -/
def homeOf (pages : List (BitVec 56 × Nat)) (va : BitVec 56) : Nat :=
  match pages.find? fun p => pageOf p.1 == pageOf va with
  | some p => p.2 / 16384 * 16384 + va.toNat % 16384
  | none => 0

/-- The pages of a range translated for the issuing strand. -/
def rangePas (s : State) (va : BitVec 56) (len : Nat) (write : Bool) : M (State × List (BitVec 56 × Nat)) := do
  let vas := rangePages va len
  let (s1, pas) ← strandPas write s vas
  return (s1, vas.zip pas)

/-- `n` frames read at an address. -/
def derFrames (pages : List (BitVec 56 × Nat)) (va : BitVec 56) : Nat → State → M (State × List Frame)
  | 0, s => .ok (s, [])
  | n + 1, s => do
    let (s1, bs) ← readPas false (va.zeroExtend 64) s ((vaRange va 32).map (homeOf pages))
    let (s2, fs) ← derFrames pages (va + 32) n s1
    return (s2, BitVec.ofNat 256 (leNat bs) :: fs)

/-- Frames written at an address, through the tile's L1 as frames are read: as accesses of the strand (LOG 123 DEDUCED). -/
def derWrite (pages : List (BitVec 56 × Nat)) (va : BitVec 56) : List Frame → State → State
  | [], s => s
  | f :: fs, s => derWrite pages (va + 32) fs (writePas false s ((vaRange va 32).map (homeOf pages)) (natLe 32 f.toNat))

/-! ## The derivation (R419) -/

/-- A class-5 payload that holds actor entries. -/
def isActorIndex (i : Nat) : Bool := decide (0x40 ≤ i ∧ i < 0xC0)

/-- A field of a frame replaced. -/
def putFr (f : Frame) (lo n v : Nat) : Frame :=
  BitVec.ofNat 256 (f.toNat - fr f lo n * 2 ^ lo + v * 2 ^ lo)

/-- END 1 and 2 swapped in a channel record. -/
def swapEnd (n : Nat) : Nat := if n = 1 then 2 else if n = 2 then 1 else n

/-- KIND 1 and 2, and 3 and 4, swapped in a queue binding. -/
def swapKind (n : Nat) : Nat := nth n [0, 2, 1, 4, 3] n

/-- The lowest template of the class of a target that matches a payload; `tbl` is the table's 257 frames. -/
def templateOf (tbl : List Frame) (target : Nat) (p : Frame) : Option Nat :=
  (upFrom 0 64).find? fun e => fr (frameAt tbl 0) (4 * e) 4 == tClass target && p &&& frameAt tbl (1 + 4 * e) == frameAt tbl (2 + 4 * e)

/-- A payload of the backward image; none when no template matches. Null slots are copied. -/
def derivePayload (tbl : List Frame) (e : Elements) (x : Payload) : Option Frame :=
  let i := tIndex x.target
  let p := x.data
  let c := tClass x.target
  if isChanFrame x then some ((upFrom 0 4).foldl (fun f j => putFr f (64 * j + 50) 2 (swapEnd (fr f (64 * j + 50) 2))) p)
  else if c = 5 ∧ 0x20 ≤ i ∧ i < 0x28 then some ((upFrom 0 4).foldl (fun f j => putFr f (64 * j + 61) 3 (swapKind (fr f (64 * j + 61) 3))) p)
  else if c = 5 ∧ isActorIndex i then some (putFr p 0 144 (fr (e.data 5 (tTile x.target) (if i % 2 = 0 then i + 1 else i - 1)) 0 144))
  else if c = 0 ∨ c = 5 ∨ isDataClass c then some p
  else match templateOf tbl x.target p with
    | some n => some ((p &&& frameAt tbl (3 + 4 * n)) ||| frameAt tbl (4 + 4 * n))
    | none => none

/-- The body of the backward image, or the target of the first payload without a template. -/
def deriveBody (tbl : List Frame) (e : Elements) (im : List Frame) : List Payload → Except Nat (List Frame)
  | [] => .ok []
  | x :: xs =>
    match derivePayload tbl e x with
    | none => .error x.target
    | some f =>
      match deriveBody tbl e im xs with
      | .ok fs => .ok (if (x.frame - 5) % 9 = 0 then frameAt im x.addr :: f :: fs else f :: fs)
      | .error t => .error t

/-- The first three frames of the backward image. -/
def deriveHead (im : List Frame) : List Frame :=
  [frameAt im 0 ^^^ BitVec.ofNat 256 (2 ^ 223), frameAt im 1, frameAt im 2]

/-- The backward image, or the target at which the derivation aborts with the frames that it has written
(LOG 73 DEDUCED). -/
def derive (sr : Bool) (tbl im : List Frame) : Except (Nat × List Frame) (List Frame) :=
  let h0 := frameAt im 0
  let ps := payloads im
  match checkImage sr (fr h0 152 8) (fr h0 144 8) im with
  | some _ => .error (0, [])
  | none =>
    match deriveBody tbl (elements ps) im ps with
    | .error t => .error (t, deriveHead im)
    | .ok body =>
      let head := deriveHead im
      .ok (head ++ [shaValue ((head ++ body).flatMap fun f => natLe 32 f.toNat)] ++ body)

/-- BWDDERIVE: the length of the output range is that of the forward image as its H0 gives it, and every page is translated before a
frame is written. -/
def bwdderiveEff (d : BitVec 6) (va vb vc : BitVec 56) (s : State) : M Eff := do
  privileged s
  let (s0, p0) ← rangePas s va 32 false
  let (s1, hs) ← derFrames p0 va 1 s0
  let n := imageFrames (hs.headD 0)
  let (s2, pi) ← rangePas s1 va (32 * n) false
  let (s3, pt) ← rangePas s2 vc (32 * 257) false
  let (s4, po) ← rangePas s3 vb (32 * n) true
  let (s5, im) ← derFrames pi va n s4
  let (s6, tbl) ← derFrames pt vc 257 s5
  match derive (s6.feature 6) tbl im with
  | .ok fs =>
    let s7 := derWrite po vb fs s6
    return .done (s7.setCur (s7.curStrand.wg d (BitVec.ofNat 64 (n % 2 ^ 32))))
  | .error (t, fs) =>
    let s7 := derWrite po vb fs s6
    return .done (s7.setCur (s7.curStrand.wg d (BitVec.ofNat 64 (2 ^ 63 + t))))

/-- BWDDERIVE (R286). -/
def execBwdderive (d a b c : BitVec 6) (s : State) : Host.Outcome State Fault Refusal :=
  let x := s.curStrand
  issueM s [d, a, b, c] (bwdderiveEff d ((x.rg a).truncate 56) ((x.rg b).truncate 56) ((x.rg c).truncate 56) s)

end Sys2Proof.Machine
end

