-- ==== Sys2Proof/Machine/HostIf.lean ====
section
/-!
DEFINITION. The host interface (13_links_and_host.md R431 to R440, 10_translation_and_traps.md R332): the register space, the commands
of the command window, and the events that wait for queue space.
-/
namespace Sys2Proof.Machine

/-! ## Commands (R434, R435) -/

/-- A word of the command window. -/
def State.cmd (s : State) (n : Nat) : Word := tabGet 0 s.dist.command n

/-- The bits that a command names in words 0 to 6; the words after the last are 0. -/
abbrev CmdMask := List Word

/-- A command names every bit that is set (LOG 81 DEDUCED). -/
def State.cmdOk (s : State) (m : CmdMask) : Bool := (upFrom 0 7).all fun n => s.cmd n &&& ~~~(nth 0 m n) == 0

/-- Word 7 of the command window latched. -/
def State.latchCommand (s : State) (w7 : Word) : State := { s with dist := { s.dist with command := tabSet 0 s.dist.command 7 w7 } }

/-- A command run: word 7 is latched, and COMMAND_DONE is posted with its status. A refused command changes nothing. -/
def State.command (s : State) (w7 : Word) (m : CmdMask) (f : State → Except Nat State) : State :=
  let s1 := s.latchCommand w7
  if s1.cmdOk m then
    match f s1 with
    | .ok s2 => s2.commandDone w7 0
    | .error n => s1.commandDone w7 n
  else s1.commandDone w7 1

/-- A condition without which a command is refused with a status. -/
def need (b : Bool) (status : Nat) : Except Nat Unit := if b then .ok () else .error status

/-- CTXID of word 0. -/
def State.cmdCtx (s : State) : BitVec 16 := (s.cmd 0).truncate 16

/-- A command on a context that exists. -/
def State.onContext (s : State) (f : Context → Except Nat Context) : Except Nat State :=
  match s.context s.cmdCtx with
  | none => .error 1
  | some c => (f c).map fun d => s.setContext s.cmdCtx d

/-- CTX_CREATE. -/
def State.ctxCreate (s : State) : Except Nat State := do
  let root := (s.cmd 1).truncate 56
  need (root.toNat % 16384 == 0) 1
  need (s.context s.cmdCtx).isNone 2
  return s.setContext s.cmdCtx ⟨0, root, field (s.cmd 2) 0 40, 0, 0, [], false, 0, [], none⟩

/-- The records of a context removed from a cluster; waiting requests enter. -/
def Cluster.dropContext (x : Cluster) (c : BitVec 16) : Cluster :=
  let keep (l : List FaultRec) : List FaultRec := l.filter fun r => r.ctx != c
  { x with records := keep x.records, waiting := keep x.waiting, outbox := keep x.outbox }.refill

/-- Every fault buffer without the records of a context. A record of intake that waited for one of them is taken up again. -/
def State.dropRecords (s : State) (c : BitVec 16) : State :=
  let s1 := (s.clusters.map (·.1)).foldl (fun s n =>
    (s.setCluster n ((s.cluster n).dropContext c)).ask (.faultBufferFlush n)) s
  match s1.dist.intake with
  | ws :: _ => if (Launch.ofWords ws).ctx = c then (s1.setIntakeFault none).ask .launchIntake else s1
  | [] => s1

/-- A region of a killed context: frozen, and destroyed as soon as it is. -/
def State.killRegion (s : State) (h : BitVec 32) : State :=
  if !s.live h then s
  else
    let r := s.region h
    if r.phase = .frozen then s.destroy h
    else (s.setRegion h { r with doomed := true }).freezeRegion h (some .contextKilled) none []

/-- The launches of a context that wait outside the placement queues discarded (R352). -/
def State.dropWaiting (s : State) (c : BitVec 16) : State :=
  { s with dist := { s.dist with
    gangs := s.dist.gangs.filter fun i => i.ctx != c
    chainWait := s.dist.chainWait.filter fun i => i.ctx != c } }

/-- CTX_KILL (R332, R352). Launches in the placement queues, and the context's pending-shootdown entries, stay. -/
def State.ctxKill (s : State) : Except Nat State := do
  let s0 ← s.onContext fun c => .ok { c with gen := c.gen + 1 }
  let s1 := s0.dropWaiting s.cmdCtx
  return ((s1.regionsOf s.cmdCtx).map fun r => r.info.handle).foldl State.killRegion (s1.dropRecords s.cmdCtx)

/-- CTX_SAVEAREA (R339). -/
def State.ctxSavearea (s : State) : Except Nat State := do
  let pa := (s.cmd 1).truncate 56
  need (pa.toNat % 64 == 0 && (s.context s.cmdCtx).isSome) 1
  need (!(s.regionsOf s.cmdCtx).any fun r => r.phase == .frozen) 2
  s.onContext fun c => .ok { c with savePa := pa, saveBytes := (s.cmd 2).toNat }

/-- CTX_DEBUG (R341). -/
def State.ctxDebug (s : State) : Except Nat State := s.onContext fun c => .ok { c with debug := (s.cmd 0).getLsbD 16 }

/-- HANDLE of word 0. -/
def State.cmdHandle (s : State) : BitVec 32 := (s.cmd 0).extractLsb' 32 32

/-- HOST_FREEZE (R337). -/
def State.hostFreeze (s : State) : Except Nat State := do
  let h := s.cmdHandle
  need (s.live h) 1
  need ((s.region h).phase != .frozen) 2
  return s.freezeRegion h (some .hostFreeze) none []

/-- HOST_THAW (R340). -/
def State.hostThaw (s : State) : Except Nat State := do
  let h := s.cmdHandle
  need (s.live h) 1
  need ((s.region h).phase == .frozen) 2
  return s.startThaw h

/-- PV_PLACE (R261): a slot set that holds a retained version, or is reserved, stays where it is. Waiting publishers try again. -/
def State.pvPlace (s : State) : Except Nat State := do
  let w := field (s.cmd 0) 16 6
  let n := field (s.cmd 0) 24 2
  let va := (s.cmd 1).truncate 56
  let bytes := (s.cmd 2).toNat
  need (va.toNat % 16384 == 0 && bytes % 4096 == 0 && (s.context s.cmdCtx).isSome) 1
  let x := s.weights w
  need ((x.slot n).version == 0 && !(x.reserved.any fun r => r.2 == n)) 2
  return s.setWeights w (x.setSlot n ⟨true, s.cmdCtx, va, bytes, 0⟩)

/-- LEASEID of word 0. -/
def State.cmdLease (s : State) : BitVec 16 := (s.cmd 0).truncate 16

/-- LEASE_OPEN (R425): this end opens a lease. It opens the circuit when the peer's end has opened it; an end that names another port or
peer is refused (LOG 80 DEDUCED); one that only one end has had open for 1 ms is cancelled first. -/
def State.leaseOpen (s : State) : Except Nat State := do
  let port := field (s.cmd 0) 16 6
  let peer : BitVec 16 := (s.cmd 1).truncate 16
  let dur := field (s.cmd 2) 0 32
  need (portExists port && dur != 0) 1
  let s := s.cancelStale s.cmdLease
  let x : Lease := ⟨port, peer, dur, 0, .localOnly, 0, false, false⟩
  if leaseFree (s.lease s.cmdLease) then return s.halfOpen s.cmdLease port peer dur .localOnly
  else match s.lease s.cmdLease with
    | some y =>
      need (y.phase == .peerOnly) 2
      need (y.port == port && y.peer == peer) 3
      return s.openLease s.cmdLease x
    | none => .error 2

/-- LEASE_RENEW (R426): accepted within the last tenth of the duration that runs. -/
def State.leaseRenew (s : State) : Except Nat State := do
  let dur := field (s.cmd 2) 0 32
  need (dur != 0) 1
  match s.lease s.cmdLease with
  | some x =>
    need (x.phase == .opened && decide (x.expiry ≤ s.time + 100 * x.durationUs ∧ s.time < x.expiry)) 2
    return s.setLease s.cmdLease (some { x with expiry := x.expiry + 1000 * dur, durationUs := dur })
  | none => .error 2

/-- TOPO_REQUEST (R428): the request goes to the switch through the lowest scale-up port through which no change runs
(LOG 79 DEDUCED). Change 2 carries the route table, which is read from the host's memory. -/
def State.topoRequest (s : State) (w7 : Word) : Except Nat State := do
  let change := field (s.cmd 0) 0 2
  need (change != 3 && (if change = 2 then field (s.cmd 0) 8 8 == 0 else s.cmd 1 == 0 && s.cmd 2 == 0)) 1
  let routes := if change = 2 then readBytes s.hostMem (s.cmd 1).toNat (s.cmd 2).toNat else []
  match s.requestTopo (s.cmd 0) routes (some w7) with
  | some s1 => return s1
  | none => .error 2

/-- COLOUR_SPLIT (R421): a pair of colours moves, unless the peer does not agree. Each direction keeps 2 colours. -/
def State.colourSplit (s : State) (agreed : Bool) : Except Nat State := do
  let port := field (s.cmd 0) 0 6
  let toRx := (s.cmd 0).getLsbD 8
  need (portExists port) 1
  let x := s.optPort port
  need (x.canMove toRx) 2
  need agreed 3
  return s.setOptPort port (x.split toRx (Config.colourPair s.steps))

/-- A move that the peer's host has started: this end takes its part in it, if it agrees. No command of this module ends with it (R421). -/
def State.peerSplit (s : State) (port : Nat) (toRx agreed : Bool) : State :=
  let x := s.optPort port
  if portExists port && x.canMove toRx && agreed then s.setOptPort port (x.split toRx (Config.colourPair s.steps)) else s

/-- QUOTA_SET (R308). -/
def State.quotaSet (s : State) : Except Nat State := s.onContext fun c => .ok { c with quota := field (s.cmd 2) 0 40 }

/-- MEASURE_EXTEND (R441). -/
def State.measureExtend (s : State) : Except Nat State :=
  .ok (s.extend 7 (BitVec.ofNat 256 (leNat ((upFrom 0 4).flatMap fun n => natLe 8 (s.cmd n).toNat))))

/-- The bytes that a MAP_WRITE names. -/
def State.mapBytes (s : State) : List Byte := readBytes s.hostMem (s.cmd 1).toNat (s.cmd 2).toNat

/-- MAP_WRITE (R447): a copy that verified good at this boot is not written, nor is a map that fails a check. -/
def State.mapWrite (s : State) (signatureOk : Bool) : Except Nat State := do
  let copy := field (s.cmd 0) 0 1
  need ((s.cmd 1).toNat % 64 == 0) 1
  need (!s.mapGood.getLsbD copy) 2
  need (signatureOk && shaValue s.mapBytes == s.fusedMap) 1
  return { s with flash := tabSet [] s.flash copy s.mapBytes }

/-- The bits that each command names (R435). -/
def ctxCreateMask : CmdMask := [0xFFFF, 0xFFFFFFFFFFFFFF, 0xFFFFFFFFFF]
/-- One context. -/
def ctxMask : CmdMask := [0xFFFF]
/-- CTX_SAVEAREA. -/
def ctxSaveareaMask : CmdMask := [0xFFFF, 0xFFFFFFFFFFFFFF, 0xFFFFFFFFFFFFFFFF]
/-- CTX_DEBUG. -/
def ctxDebugMask : CmdMask := [0x1FFFF]
/-- HOST_FREEZE and HOST_THAW. -/
def handleMask : CmdMask := [0xFFFFFFFF00000000]
/-- PV_PLACE. -/
def pvPlaceMask : CmdMask := [0x33FFFFF, 0xFFFFFFFFFFFFFF, 0xFFFFFFFFFFFFFFFF]
/-- LEASE_OPEN. -/
def leaseOpenMask : CmdMask := [0x3FFFFF, 0xFFFF, 0xFFFFFFFF]
/-- LEASE_RENEW. -/
def leaseRenewMask : CmdMask := [0xFFFF, 0, 0xFFFFFFFF]
/-- TOPO_REQUEST. -/
def topoRequestMask : CmdMask := [0xFF03, 0xFFFFFFFFFFFFFFFF, 0xFFFFFFFFFFFFFFFF]
/-- COLOUR_SPLIT. -/
def colourSplitMask : CmdMask := [0x13F]
/-- QUOTA_SET. -/
def quotaSetMask : CmdMask := [0xFFFF, 0, 0xFFFFFFFFFF]
/-- MEASURE_EXTEND. -/
def measureExtendMask : CmdMask := [0xFFFFFFFFFFFFFFFF, 0xFFFFFFFFFFFFFFFF, 0xFFFFFFFFFFFFFFFF, 0xFFFFFFFFFFFFFFFF]
/-- MAP_WRITE. -/
def mapWriteMask : CmdMask := [1, 0xFFFFFFFFFFFFFFFF, 0xFFFFFFFFFFFFFFFF]

/-- CTX_CREATE (R434). -/
def execCtxCreate (w7 : Word) (s : State) : Host.Outcome State Fault Refusal := .next (s.command w7 ctxCreateMask State.ctxCreate)

/-- CTX_KILL (R332). -/
def execCtxKill (w7 : Word) (s : State) : Host.Outcome State Fault Refusal := .next (s.command w7 ctxMask State.ctxKill)

/-- CTX_SAVEAREA (R434). -/
def execCtxSavearea (w7 : Word) (s : State) : Host.Outcome State Fault Refusal := .next (s.command w7 ctxSaveareaMask State.ctxSavearea)

/-- CTX_DEBUG (R434). -/
def execCtxDebug (w7 : Word) (s : State) : Host.Outcome State Fault Refusal := .next (s.command w7 ctxDebugMask State.ctxDebug)

/-- HOST_FREEZE (R434). -/
def execHostFreeze (w7 : Word) (s : State) : Host.Outcome State Fault Refusal := .next (s.command w7 handleMask State.hostFreeze)

/-- HOST_THAW (R434). -/
def execHostThaw (w7 : Word) (s : State) : Host.Outcome State Fault Refusal := .next (s.command w7 handleMask State.hostThaw)

/-- PV_PLACE (R434). -/
def execPvPlace (w7 : Word) (s : State) : Host.Outcome State Fault Refusal := .next (s.command w7 pvPlaceMask State.pvPlace)

/-- LEASE_OPEN (R425). -/
def execLeaseOpen (w7 : Word) (s : State) : Host.Outcome State Fault Refusal := .next (s.command w7 leaseOpenMask State.leaseOpen)

/-- LEASE_RENEW (R426). -/
def execLeaseRenew (w7 : Word) (s : State) : Host.Outcome State Fault Refusal := .next (s.command w7 leaseRenewMask State.leaseRenew)

/-- TOPO_REQUEST run: COMMAND_DONE follows the switch's answer, unless the command is refused here (LOG 106 DEDUCED). -/
def State.topoCommand (s : State) (w7 : Word) : State :=
  let s1 := s.latchCommand w7
  if s1.cmdOk topoRequestMask then
    match s1.topoRequest w7 with
    | .ok s2 => s2
    | .error n => s1.commandDone w7 n
  else s1.commandDone w7 1

/-- TOPO_REQUEST (R428). -/
def execTopoRequest (w7 : Word) (s : State) : Host.Outcome State Fault Refusal := .next (s.topoCommand w7)

/-- COLOUR_SPLIT (R421): the host's command, or a move of a port that the peer's host has started and whose direction gains here. -/
def execColourSplit (w7 : Word) (act : SplitAct) (s : State) : Host.Outcome State Fault Refusal :=
  .next (match act with
    | .host agreed => s.command w7 colourSplitMask fun s => s.colourSplit agreed
    | .peer port toRx agreed => s.peerSplit port toRx agreed)

/-- QUOTA_SET (R434). -/
def execQuotaSet (w7 : Word) (s : State) : Host.Outcome State Fault Refusal := .next (s.command w7 quotaSetMask State.quotaSet)

/-- MEASURE_EXTEND (R434). -/
def execMeasureExtend (w7 : Word) (s : State) : Host.Outcome State Fault Refusal :=
  .next (s.command w7 measureExtendMask State.measureExtend)

/-- MAP_WRITE (R447). -/
def execMapWrite (w7 : Word) (signatureOk : Bool) (s : State) : Host.Outcome State Fault Refusal :=
  .next (s.command w7 mapWriteMask fun s => s.mapWrite signatureOk)

/-- The command that word 7 starts, by its OP; every other OP returns status 1 (Table 13.3). -/
def State.startCommand (s : State) (w7 : Word) : State :=
  match field w7 48 8 with
  | 0x01 => s.command w7 ctxCreateMask State.ctxCreate
  | 0x02 => s.command w7 ctxMask State.ctxKill
  | 0x03 => s.command w7 ctxSaveareaMask State.ctxSavearea
  | 0x04 => s.command w7 ctxDebugMask State.ctxDebug
  | 0x05 => s.command w7 handleMask State.hostFreeze
  | 0x06 => s.command w7 handleMask State.hostThaw
  | 0x07 => s.command w7 pvPlaceMask State.pvPlace
  | 0x08 => s.command w7 leaseOpenMask State.leaseOpen
  | 0x09 => s.command w7 leaseRenewMask State.leaseRenew
  | 0x0A => s.topoCommand w7
  | 0x0B => s.command w7 colourSplitMask fun s => s.colourSplit (Config.peerAgrees s.steps)
  | 0x0C => s.command w7 quotaSetMask State.quotaSet
  | 0x0D => s.command w7 measureExtendMask State.measureExtend
  | 0x0E => s.command w7 mapWriteMask fun s => s.mapWrite (Config.mapSigned (shaValue s.mapBytes))
  | _ => s.command w7 measureExtendMask fun _ => .error 1

/-! ## Events that wait (R438) -/

/-- The oldest waiting event of the lowest source that has one written. -/
def State.writeWaiting (s : State) : Option State :=
  match s.events.find? fun e => !e.2.buffer.isEmpty with
  | some (n, e) =>
    match e.buffer with
    | ws :: rest => some ({ s with events := tabSet EventSource.idle s.events n { e with buffer := rest } }.writeEvent ws)
    | [] => none
  | none => none

/-- Waiting events written while the queue has space. -/
def drainEvents : Nat → State → State
  | 0, s => s
  | fuel + 1, s =>
    if s.eventSpace then
      match s.writeWaiting with
      | some s1 => drainEvents fuel s1
      | none => s
    else s

/-- The sources that have dropped events. -/
def State.droppers (s : State) : List (Nat × EventSource) := s.events.filter fun e => e.2.dropped != 0

/-- EVENT_LOST for up to six sources, whose counts start again (R438, R440). -/
def State.postLost (s : State) : State :=
  let ds := s.droppers.take 6
  let s1 := ds.foldl (fun s d => { s with events := tabSet EventSource.idle s.events d.1 { tabGet EventSource.idle s.events d.1 with dropped := 0 } }) s
  s1.post 4 0x0601 (ds.map fun d => BitVec.ofNat 64 (d.1 * 2 ^ 32 + d.2.dropped.toNat))

/-- EVENT_QUEUE_ADVANCE (R436, R438): the host has consumed entries. Waiting events are written, and dropped ones are reported. -/
def execEventQueueAdvance (s : State) : Host.Outcome State Fault Refusal :=
  let s1 := drainEvents (s.events.foldl (fun n e => n + e.2.buffer.length) 0) s
  .next (if s1.eventSpace && !s1.droppers.isEmpty then
      let s2 := s1.postLost
      if s2.droppers.isEmpty then s2 else s2.ask .eventQueueAdvance
    else s1)

/-! ## The register space (R431, Table 13.2) -/

/-- A step of a window's last word, taken in a state. -/
def taken (s : State) : Host.Outcome State Fault Refusal → State
  | .next t => t
  | _ => s

/-- A write of a 64-bit register by offset. Offsets that the table does not list, and read-only registers, ignore it. The layout of the
debug window the spec does not give: its operations are steps of their own (LOG 43 DEDUCED). -/
def State.writeRegister (s : State) (off : Nat) (v : Word) : State :=
  let d := s.dist
  let n := off % 64 / 8
  if off % 8 ≠ 0 then s
  else if off < 0x38 then { s with dist := { d with window := tabSet 0 d.window n v } }
  else if off = 0x38 then s.takeRecord v
  else if off = 0x40 then { s with dist := { d with seedWindow := tabSet 0 d.seedWindow 0 v } }
  else if off = 0x48 then
    taken s (execSeedWindowWrite (tabGet 0 d.seedWindow 0) v { s with dist := { d with seedWindow := tabSet 0 d.seedWindow 1 v } })
  else if off = 0x50 then { s with dist := { d with answerWindow := tabSet 0 d.answerWindow 0 v } }
  else if off = 0x58 then
    taken s (execPageAnswer (tabGet 0 d.answerWindow 0) v { s with dist := { d with answerWindow := tabSet 0 d.answerWindow 1 v } })
  else if 0x80 ≤ off ∧ off < 0xB8 then { s with dist := { d with command := tabSet 0 d.command ((off - 0x80) / 8) v } }
  else if off = 0xB8 then s.startCommand v
  else if off = 0xC0 ∨ off = 0xE0 then { s with hostRegs := tabSet 0 s.hostRegs off v }
  else if off = 0xC8 ∨ off = 0xD0 then { s with hostRegs := tabSet 0 s.hostRegs off v }.ask .eventQueueAdvance
  else if off = 0xE8 ∨ off = 0xF0 then
    s.clusters.foldl (fun s c => if c.2.outbox.isEmpty then s else s.ask (.faultQueueWrite c.1)) { s with hostRegs := tabSet 0 s.hostRegs off v }
  else if 0x100 ≤ off ∧ off < 0x140 then s.accept ((off - 0x100) / 8) v
  else if 0x200 ≤ off ∧ off < 0x220 then { s with attest := writeNat s.attest (off - 0x200) 8 v.toNat }
  else if off = 0x220 then (if v = 1 then s.attestStart else s)
  else s

/-- A read of a 64-bit register by offset. What the spec gives for writing only, and the debug window, whose layout it does not give, read
as a free value (LOG 107 DESIGN CHOICE); offsets that the table does not list read 0. -/
def State.readRegister (s : State) (off : Nat) : Word :=
  if off % 8 ≠ 0 then 0
  else if off < 0x60 ∨ (0x80 ≤ off ∧ off < 0xC0) ∨ (0x100 ≤ off ∧ off < 0x140) ∨ (0x1000 ≤ off ∧ off < 0x2000) then
    Config.windowRead off s.steps
  else if (0xC0 ≤ off ∧ off < 0xD8) ∨ (0xE0 ≤ off ∧ off < 0xF8) then s.hostReg off
  else if 0x140 ≤ off ∧ off < 0x180 then BitVec.ofNat 64 (s.offered.toNat / 2 ^ (4 * (off - 0x140)) % 2 ^ 32)
  else if off = 0x180 then s.bootstat
  else if off = 0x220 then s.attestState
  else if off = 0x3C0 then Config.certLength
  else if off = 0x3C8 then Config.certPointer
  else if 0x200 ≤ off ∧ off < 0x400 then readWord s.attest (off - 0x200)
  else 0

/-- The posted writes of a link that have not reached their homes. -/
def State.postedOn (s : State) (link : Nat) : List (Nat × List Byte) := tabGet [] s.posted link

/-- Bytes written at their homes from an address on. -/
def State.homeWrites (s : State) (pa : Nat) : List Byte → State
  | [] => s
  | b :: bs => State.homeWrites (s.homeWrite pa b) (pa + 1) bs

/-- The oldest posted write of a link reaches its home. -/
def State.landOne (s : State) (link : Nat) : State :=
  match s.postedOn link with
  | [] => s
  | (pa, bs) :: rest => { s with posted := tabSet [] s.posted link rest }.homeWrites pa bs

/-- Every posted write of a link reaches its home, in order (R432). -/
def State.landAll (s : State) (link : Nat) : State :=
  (s.postedOn link).foldl (fun s w => s.homeWrites w.1 w.2) { s with posted := tabSet [] s.posted link [] }

/-- What the host does on a link, which is 0 or 1 (R431, R432). Writes of one link take effect in their order, so a register is written
when every earlier posted write of the link has reached its home; what the host stored before a launch record is there when the record is
taken (R296, R303). -/
def State.hostAct (s : State) (link : Nat) : HostAct → State
  | .register off v => (s.landAll link).writeRegister off v
  | .read off => let s1 := s.landAll link; { s1 with hostRead := s1.readRegister off }
  | .store pa bs => { s with posted := tabSet [] s.posted link (s.postedOn link ++ [(pa, bs)]) }
  | .land => s.landOne link

/-- REGISTER_WRITE (R431, R432): the host acts on one of its two links. -/
def execRegisterWrite (link : Nat) (act : HostAct) (s : State) : Host.Outcome State Fault Refusal :=
  .next (if link < 2 then s.hostAct link act else s)

end Sys2Proof.Machine
end

