-- ==== Sys2Proof/Machine/ScalarFp.lean ====
section
/-!
DEFINITION. Scalar floating point (04_scalar_and_control.md R117 to R119, R135 to R144).
-/
namespace Sys2Proof.Machine

/-- The value of a format's operand in the low bits of a register (R117). -/
def FFmt.value (f : FFmt) (w : Word) : FpNum := unpack f (low w (f.eb + f.mb + 1))

/-- Bits of a format's operand (R117). -/
def FFmt.code (f : FFmt) (w : Word) : Nat := low w (f.eb + f.mb + 1)

/-- A scalar floating-point result is written and its flags are set (R117 to R119). -/
def fpWrite (regs : List (BitVec 6)) (d : BitVec 6) (arg : Word) (r : FRes) (s : State) :
    Host.Outcome State Fault Refusal :=
  issue s regs (endFp (s.setCur (s.curStrand.wg d (BitVec.ofNat 64 r.bits))) r.fl (BitVec.ofNat 64 r.bits) arg)

/-- A rounding operation of two values. -/
def fp2 (f : FFmt) (op : FFmt → RMode → FpNum → FpNum → FRes) (regs : List (BitVec 6)) (d a : BitVec 6) (b : Word) (rnd : Rnd)
    (s : State) : Host.Outcome State Fault Refusal :=
  let x := s.curStrand
  fpWrite regs d (x.rg a) (op f (arithMode rnd x) (f.value (x.rg a)) (f.value b)) s

/-- FFMA of a format (R136). -/
def fp3 (f : FFmt) (d a b c : BitVec 6) (rnd : Rnd) (s : State) : Host.Outcome State Fault Refusal :=
  let x := s.curStrand
  fpWrite [d, a, b, c] d (x.rg a) (fFma f (arithMode rnd x) (f.value (x.rg a)) (f.value (x.rg b)) (f.value (x.rg c))) s

/-- FSQRT of a format (R136). -/
def fpRoot (f : FFmt) (d a : BitVec 6) (rnd : Rnd) (s : State) : Host.Outcome State Fault Refusal :=
  let x := s.curStrand
  fpWrite [d, a] d (x.rg a) (fSqrt f (arithMode rnd x) (f.value (x.rg a))) s

/-- A function of R137 in FP32. For RANGE, KTVAL holds the argument's bit pattern (R84). -/
def fpFn (g : Fn) (d a : BitVec 6) (s : State) : Host.Outcome State Fault Refusal :=
  let v := s.curStrand.rg a
  fpWrite [d, a] d (BitVec.ofNat 64 (f32.code v)) (fnF32 g (f32.value v)) s

/-- A function of R137 in FP16 or BF16. -/
def fpFnNarrow (f : FFmt) (g : Fn) (d a : BitVec 6) (rnd : Rnd) (s : State) : Host.Outcome State Fault Refusal :=
  let v := s.curStrand.rg a
  fpWrite [d, a] d (BitVec.ofNat 64 (f.code v)) (fnNarrow f g (arithMode rnd s.curStrand) (f.value v)) s

/-- An operation on the bits of two operands (FMIN, FMAX). -/
def fpBits (f : FFmt) (op : FFmt → Nat → Nat → FRes) (regs : List (BitVec 6)) (d a : BitVec 6) (b : Word) (s : State) :
    Host.Outcome State Fault Refusal :=
  fpWrite regs d (s.curStrand.rg a) (op f (f.code (s.curStrand.rg a)) (f.code b)) s

/-- FCMP: p[d] and the flags of R140; KTVAL of a trap holds the predicate written (LOG 22 DEDUCED). -/
def fpCompare (f : FFmt) (regs : List (BitVec 6)) (d : BitVec 3) (a : BitVec 6) (b : Word) (c : FCond) (s : State) :
    Host.Outcome State Fault Refusal :=
  let r := fCmp c (f.value (s.curStrand.rg a)) (f.value b)
  issue s regs (endFp (s.setCur (s.curStrand.wp d r.1)) r.2 (if r.1 then 1 else 0) 0)

/-- FCLASS of a format (R141). -/
def fpClass (f : FFmt) (d a : BitVec 6) (s : State) : Host.Outcome State Fault Refusal :=
  issueStrand s [d, a] (s.curStrand.wg d (BitVec.ofNat 64 (fClass f (f.code (s.curStrand.rg a)))))

/-- FABS or FNEG (R142). -/
def fpSign (op : FFmt → Nat → FRes) (d a : BitVec 6) (s : State) : Host.Outcome State Fault Refusal :=
  fpWrite [d, a] d (s.curStrand.rg a) (op f32 (f32.code (s.curStrand.rg a))) s

/-- FCVT (R143, R144). -/
def fcvtEff (d a : BitVec 6) (src dst : CvtFmt) (sat : Bool) (rnd : Rnd) (s : State) : M Eff := do
  let mode ← convMode rnd (src.narrowing dst) s
  let (draw, t) := s.drawFor mode
  let r := convert src dst sat mode draw (t.curStrand.rg a).toNat
  let w := cvtPlace dst r.bits
  return endFp (t.setCur (t.curStrand.wg d w)) r.fl w 0

/-! ## Meanings -/

/-- FADD.F32 (R136). -/
def execFaddF32 (d a b : BitVec 6) (rnd : Rnd) (s : State) : Host.Outcome State Fault Refusal :=
  fp2 f32 fAdd [d, a, b] d a (s.curStrand.rg b) rnd s

/-- FADD.F32 with an immediate (R136). -/
def execFaddF32I (d a : BitVec 6) (rnd : Rnd) (imm : BitVec 32) (s : State) : Host.Outcome State Fault Refusal :=
  fp2 f32 fAdd [d, a] d a (zx32 imm) rnd s

/-- FSUB.F32 (R136). -/
def execFsubF32 (d a b : BitVec 6) (rnd : Rnd) (s : State) : Host.Outcome State Fault Refusal :=
  fp2 f32 fSub [d, a, b] d a (s.curStrand.rg b) rnd s

/-- FSUB.F32 with an immediate (R136). -/
def execFsubF32I (d a : BitVec 6) (rnd : Rnd) (imm : BitVec 32) (s : State) : Host.Outcome State Fault Refusal :=
  fp2 f32 fSub [d, a] d a (zx32 imm) rnd s

/-- FMUL.F32 (R136). -/
def execFmulF32 (d a b : BitVec 6) (rnd : Rnd) (s : State) : Host.Outcome State Fault Refusal :=
  fp2 f32 fMul [d, a, b] d a (s.curStrand.rg b) rnd s

/-- FMUL.F32 with an immediate (R136). -/
def execFmulF32I (d a : BitVec 6) (rnd : Rnd) (imm : BitVec 32) (s : State) : Host.Outcome State Fault Refusal :=
  fp2 f32 fMul [d, a] d a (zx32 imm) rnd s

/-- FFMA.F32 (R136). -/
def execFfmaF32 (d a b c : BitVec 6) (rnd : Rnd) (s : State) : Host.Outcome State Fault Refusal :=
  fp3 f32 d a b c rnd s

/-- FDIV.F32 (R136). -/
def execFdivF32 (d a b : BitVec 6) (rnd : Rnd) (s : State) : Host.Outcome State Fault Refusal :=
  fp2 f32 fDiv [d, a, b] d a (s.curStrand.rg b) rnd s

/-- FSQRT.F32 (R136). -/
def execFsqrtF32 (d a : BitVec 6) (rnd : Rnd) (s : State) : Host.Outcome State Fault Refusal :=
  fpRoot f32 d a rnd s

/-- FRSQRT.F32 (R137). -/
def execFrsqrtF32 (d a : BitVec 6) (s : State) : Host.Outcome State Fault Refusal :=
  fpFn .rsqrt d a s

/-- FEXP2.F32 (R137). -/
def execFexp2F32 (d a : BitVec 6) (s : State) : Host.Outcome State Fault Refusal :=
  fpFn .exp2 d a s

/-- FLOG2.F32 (R137). -/
def execFlog2F32 (d a : BitVec 6) (s : State) : Host.Outcome State Fault Refusal :=
  fpFn .log2 d a s

/-- FSIN.F32 (R137). -/
def execFsinF32 (d a : BitVec 6) (s : State) : Host.Outcome State Fault Refusal :=
  fpFn .sin d a s

/-- FCOS.F32 (R137). -/
def execFcosF32 (d a : BitVec 6) (s : State) : Host.Outcome State Fault Refusal :=
  fpFn .cos d a s

/-- FMIN.F32 (R139). -/
def execFminF32 (d a b : BitVec 6) (s : State) : Host.Outcome State Fault Refusal :=
  fpBits f32 fMin [d, a, b] d a (s.curStrand.rg b) s

/-- FMIN.F32 with an immediate (R139). -/
def execFminF32I (d a : BitVec 6) (imm : BitVec 32) (s : State) : Host.Outcome State Fault Refusal :=
  fpBits f32 fMin [d, a] d a (zx32 imm) s

/-- FMAX.F32 (R139). -/
def execFmaxF32 (d a b : BitVec 6) (s : State) : Host.Outcome State Fault Refusal :=
  fpBits f32 fMax [d, a, b] d a (s.curStrand.rg b) s

/-- FMAX.F32 with an immediate (R139). -/
def execFmaxF32I (d a : BitVec 6) (imm : BitVec 32) (s : State) : Host.Outcome State Fault Refusal :=
  fpBits f32 fMax [d, a] d a (zx32 imm) s

/-- FCMP.F32 (R140). -/
def execFcmpF32 (d : BitVec 3) (a b : BitVec 6) (cond : FCond) (s : State) : Host.Outcome State Fault Refusal :=
  fpCompare f32 [a, b] d a (s.curStrand.rg b) cond s

/-- FCMP.F32 with an immediate (R140). -/
def execFcmpF32I (d : BitVec 3) (a : BitVec 6) (cond : FCond) (imm : BitVec 32) (s : State) : Host.Outcome State Fault Refusal :=
  fpCompare f32 [a] d a (zx32 imm) cond s

/-- FCLASS.F32 (R141). -/
def execFclassF32 (d a : BitVec 6) (s : State) : Host.Outcome State Fault Refusal :=
  fpClass f32 d a s

/-- FADD.F16 (R136). -/
def execFaddF16 (d a b : BitVec 6) (rnd : Rnd) (s : State) : Host.Outcome State Fault Refusal :=
  fp2 f16 fAdd [d, a, b] d a (s.curStrand.rg b) rnd s

/-- FSUB.F16 (R136). -/
def execFsubF16 (d a b : BitVec 6) (rnd : Rnd) (s : State) : Host.Outcome State Fault Refusal :=
  fp2 f16 fSub [d, a, b] d a (s.curStrand.rg b) rnd s

/-- FMUL.F16 (R136). -/
def execFmulF16 (d a b : BitVec 6) (rnd : Rnd) (s : State) : Host.Outcome State Fault Refusal :=
  fp2 f16 fMul [d, a, b] d a (s.curStrand.rg b) rnd s

/-- FFMA.F16 (R136). -/
def execFfmaF16 (d a b c : BitVec 6) (rnd : Rnd) (s : State) : Host.Outcome State Fault Refusal :=
  fp3 f16 d a b c rnd s

/-- FDIV.F16 (R136). -/
def execFdivF16 (d a b : BitVec 6) (rnd : Rnd) (s : State) : Host.Outcome State Fault Refusal :=
  fp2 f16 fDiv [d, a, b] d a (s.curStrand.rg b) rnd s

/-- FSQRT.F16 (R136). -/
def execFsqrtF16 (d a : BitVec 6) (rnd : Rnd) (s : State) : Host.Outcome State Fault Refusal :=
  fpRoot f16 d a rnd s

/-- FRSQRT.F16 (R137). -/
def execFrsqrtF16 (d a : BitVec 6) (rnd : Rnd) (s : State) : Host.Outcome State Fault Refusal :=
  fpFnNarrow f16 .rsqrt d a rnd s

/-- FEXP2.F16 (R137). -/
def execFexp2F16 (d a : BitVec 6) (rnd : Rnd) (s : State) : Host.Outcome State Fault Refusal :=
  fpFnNarrow f16 .exp2 d a rnd s

/-- FLOG2.F16 (R137). -/
def execFlog2F16 (d a : BitVec 6) (rnd : Rnd) (s : State) : Host.Outcome State Fault Refusal :=
  fpFnNarrow f16 .log2 d a rnd s

/-- FSIN.F16 (R137). -/
def execFsinF16 (d a : BitVec 6) (rnd : Rnd) (s : State) : Host.Outcome State Fault Refusal :=
  fpFnNarrow f16 .sin d a rnd s

/-- FCOS.F16 (R137). -/
def execFcosF16 (d a : BitVec 6) (rnd : Rnd) (s : State) : Host.Outcome State Fault Refusal :=
  fpFnNarrow f16 .cos d a rnd s

/-- FMIN.F16 (R139). -/
def execFminF16 (d a b : BitVec 6) (s : State) : Host.Outcome State Fault Refusal :=
  fpBits f16 fMin [d, a, b] d a (s.curStrand.rg b) s

/-- FMAX.F16 (R139). -/
def execFmaxF16 (d a b : BitVec 6) (s : State) : Host.Outcome State Fault Refusal :=
  fpBits f16 fMax [d, a, b] d a (s.curStrand.rg b) s

/-- FCMP.F16 (R140). -/
def execFcmpF16 (d : BitVec 3) (a b : BitVec 6) (cond : FCond) (s : State) : Host.Outcome State Fault Refusal :=
  fpCompare f16 [a, b] d a (s.curStrand.rg b) cond s

/-- FCLASS.F16 (R141). -/
def execFclassF16 (d a : BitVec 6) (s : State) : Host.Outcome State Fault Refusal :=
  fpClass f16 d a s

/-- FADD.BF16 (R136). -/
def execFaddBf16 (d a b : BitVec 6) (rnd : Rnd) (s : State) : Host.Outcome State Fault Refusal :=
  fp2 b16 fAdd [d, a, b] d a (s.curStrand.rg b) rnd s

/-- FSUB.BF16 (R136). -/
def execFsubBf16 (d a b : BitVec 6) (rnd : Rnd) (s : State) : Host.Outcome State Fault Refusal :=
  fp2 b16 fSub [d, a, b] d a (s.curStrand.rg b) rnd s

/-- FMUL.BF16 (R136). -/
def execFmulBf16 (d a b : BitVec 6) (rnd : Rnd) (s : State) : Host.Outcome State Fault Refusal :=
  fp2 b16 fMul [d, a, b] d a (s.curStrand.rg b) rnd s

/-- FFMA.BF16 (R136). -/
def execFfmaBf16 (d a b c : BitVec 6) (rnd : Rnd) (s : State) : Host.Outcome State Fault Refusal :=
  fp3 b16 d a b c rnd s

/-- FDIV.BF16 (R136). -/
def execFdivBf16 (d a b : BitVec 6) (rnd : Rnd) (s : State) : Host.Outcome State Fault Refusal :=
  fp2 b16 fDiv [d, a, b] d a (s.curStrand.rg b) rnd s

/-- FSQRT.BF16 (R136). -/
def execFsqrtBf16 (d a : BitVec 6) (rnd : Rnd) (s : State) : Host.Outcome State Fault Refusal :=
  fpRoot b16 d a rnd s

/-- FRSQRT.BF16 (R137). -/
def execFrsqrtBf16 (d a : BitVec 6) (rnd : Rnd) (s : State) : Host.Outcome State Fault Refusal :=
  fpFnNarrow b16 .rsqrt d a rnd s

/-- FEXP2.BF16 (R137). -/
def execFexp2Bf16 (d a : BitVec 6) (rnd : Rnd) (s : State) : Host.Outcome State Fault Refusal :=
  fpFnNarrow b16 .exp2 d a rnd s

/-- FLOG2.BF16 (R137). -/
def execFlog2Bf16 (d a : BitVec 6) (rnd : Rnd) (s : State) : Host.Outcome State Fault Refusal :=
  fpFnNarrow b16 .log2 d a rnd s

/-- FSIN.BF16 (R137). -/
def execFsinBf16 (d a : BitVec 6) (rnd : Rnd) (s : State) : Host.Outcome State Fault Refusal :=
  fpFnNarrow b16 .sin d a rnd s

/-- FCOS.BF16 (R137). -/
def execFcosBf16 (d a : BitVec 6) (rnd : Rnd) (s : State) : Host.Outcome State Fault Refusal :=
  fpFnNarrow b16 .cos d a rnd s

/-- FMIN.BF16 (R139). -/
def execFminBf16 (d a b : BitVec 6) (s : State) : Host.Outcome State Fault Refusal :=
  fpBits b16 fMin [d, a, b] d a (s.curStrand.rg b) s

/-- FMAX.BF16 (R139). -/
def execFmaxBf16 (d a b : BitVec 6) (s : State) : Host.Outcome State Fault Refusal :=
  fpBits b16 fMax [d, a, b] d a (s.curStrand.rg b) s

/-- FCMP.BF16 (R140). -/
def execFcmpBf16 (d : BitVec 3) (a b : BitVec 6) (cond : FCond) (s : State) : Host.Outcome State Fault Refusal :=
  fpCompare b16 [a, b] d a (s.curStrand.rg b) cond s

/-- FCLASS.BF16 (R141). -/
def execFclassBf16 (d a : BitVec 6) (s : State) : Host.Outcome State Fault Refusal :=
  fpClass b16 d a s

/-- FABS.F32 (R142). -/
def execFabsF32 (d a : BitVec 6) (s : State) : Host.Outcome State Fault Refusal :=
  fpSign fAbs d a s

/-- FNEG.F32 (R142). -/
def execFnegF32 (d a : BitVec 6) (s : State) : Host.Outcome State Fault Refusal :=
  fpSign fNeg d a s

/-- FCVT (R143, R144). -/
def execFcvt (d a : BitVec 6) (src dst : CvtFmt) (sat : Bool) (rnd : Rnd) (s : State) : Host.Outcome State Fault Refusal :=
  issueM s [d, a] (fcvtEff d a src dst sat rnd s)

end Sys2Proof.Machine
end

