-- ==== Sys2Proof/Machine/Dispatch.lean ====
section
/-!
DEFINITION. Which meaning each row of the opcode table has: one arm for each constructor of Instr.
-/
namespace Sys2Proof.Machine

/-- What an instruction, or a step of another agent, does. -/
def exec (i : Instr) (s : State) : Host.Outcome State Fault Refusal :=
  match i with
  | .firingDispatch t => Sys2Proof.Machine.execFiringDispatch t s
  | .engineFiringCommit t kind => Sys2Proof.Machine.execEngineFiringCommit t kind s
  | .channelTokenArrival h ch => Sys2Proof.Machine.execChannelTokenArrival h ch s
  | .freeSpaceReturn h ch => Sys2Proof.Machine.execFreeSpaceReturn h ch s
  | .seedWindowWrite w0 w1 => Sys2Proof.Machine.execSeedWindowWrite w0 w1 s
  | .seedDelivery h => Sys2Proof.Machine.execSeedDelivery h s
  | .resultPortPop h ch => Sys2Proof.Machine.execResultPortPop h ch s
  | .streamPortPush h n => Sys2Proof.Machine.execStreamPortPush h n s
  | .collectPortPop h n => Sys2Proof.Machine.execCollectPortPop h n s
  | .spindleEntryExecute t => Sys2Proof.Machine.execSpindleEntryExecute t s
  | .matrixEntryExecute t => Sys2Proof.Machine.execMatrixEntryExecute t s
  | .maccReexecute t clean => Sys2Proof.Machine.execMaccReexecute t clean s
  | .quartetJoin t => Sys2Proof.Machine.execQuartetJoin t s
  | .inlayEntryExecute t => Sys2Proof.Machine.execInlayEntryExecute t s
  | .networkQueueEntry t => Sys2Proof.Machine.execNetworkQueueEntry t s
  | .meshPacketHop t port first => Sys2Proof.Machine.execMeshPacketHop t port first s
  | .routerCombine t route => Sys2Proof.Machine.execRouterCombine t route s
  | .linkFlitRetry t port clean => Sys2Proof.Machine.execLinkFlitRetry t port clean s
  | .ntokArrival t => Sys2Proof.Machine.execNtokArrival t s
  | .chunkFire t chunk => Sys2Proof.Machine.execChunkFire t chunk s
  | .faceplateBlockSend h n => Sys2Proof.Machine.execFaceplateBlockSend h n s
  | .lightBlockHeaderArrive c damage => Sys2Proof.Machine.execLightBlockHeaderArrive c damage s
  | .lightBlockLanded t slot damage => Sys2Proof.Machine.execLightBlockLanded t slot damage s
  | .releaseTokenArrive h group => Sys2Proof.Machine.execReleaseTokenArrive h group s
  | .faceplatePatternEnd h n => Sys2Proof.Machine.execFaceplatePatternEnd h n s
  | .passBoundarySwitch h w => Sys2Proof.Machine.execPassBoundarySwitch h w s
  | .barrierPass h b => Sys2Proof.Machine.execBarrierPass h b s
  | .gradarmArrive t => Sys2Proof.Machine.execGradarmArrive t s
  | .copyOperation t => Sys2Proof.Machine.execCopyOperation t s
  | .spillTransfer t k => Sys2Proof.Machine.execSpillTransfer t k s
  | .pageWalk t k va write => Sys2Proof.Machine.execPageWalk t k va write s
  | .faultBufferFlush c => Sys2Proof.Machine.execFaultBufferFlush c s
  | .faultRecordResend c tag => Sys2Proof.Machine.execFaultRecordResend c tag s
  | .faultQueueWrite c => Sys2Proof.Machine.execFaultQueueWrite c s
  | .pageAnswer w0 w1 => Sys2Proof.Machine.execPageAnswer w0 w1 s
  | .victimEvict ctx => Sys2Proof.Machine.execVictimEvict ctx s
  | .victimRecall ctx va => Sys2Proof.Machine.execVictimRecall ctx va s
  | .regionFreeze h => Sys2Proof.Machine.execRegionFreeze h s
  | .thawRestore h damage => Sys2Proof.Machine.execThawRestore h damage s
  | .debugHalt h t k => Sys2Proof.Machine.execDebugHalt h t k s
  | .debugResume h t k => Sys2Proof.Machine.execDebugResume h t k s
  | .debugStep h t k => Sys2Proof.Machine.execDebugStep h t k s
  | .debugRead h t k what => Sys2Proof.Machine.execDebugRead h t k what s
  | .debugWrite h t k what value => Sys2Proof.Machine.execDebugWrite h t k what value s
  | .debugHeadreplace h t k q payload scale exc => Sys2Proof.Machine.execDebugHeadreplace h t k q payload scale exc s
  | .debugWatchdog h limit => Sys2Proof.Machine.execDebugWatchdog h limit s
  | .watchdogExpire t k => Sys2Proof.Machine.execWatchdogExpire t k s
  | .launchRecord w7 => Sys2Proof.Machine.execLaunchRecord w7 s
  | .endRecord w7 => Sys2Proof.Machine.execEndRecord w7 s
  | .placementLoad h => Sys2Proof.Machine.execPlacementLoad h s
  | .configCompleteWave t => Sys2Proof.Machine.execConfigCompleteWave t s
  | .waveAcknowledge h => Sys2Proof.Machine.execWaveAcknowledge h s
  | .regionEnd h => Sys2Proof.Machine.execRegionEnd h s
  | .chainedCommit h => Sys2Proof.Machine.execChainedCommit h s
  | .stashRelief h => Sys2Proof.Machine.execStashRelief h s
  | .versionLag h => Sys2Proof.Machine.execVersionLag h s
  | .colourRetire port colour => Sys2Proof.Machine.execColourRetire port colour s
  | .linkTrain port peer entries => Sys2Proof.Machine.execLinkTrain port peer entries s
  | .linkPacketReceive port colour seq w0 w1 body => Sys2Proof.Machine.execLinkPacketReceive port colour seq w0 w1 body s
  | .topoGrant port v table => Sys2Proof.Machine.execTopoGrant port v table s
  | .topoCommit port v => Sys2Proof.Machine.execTopoCommit port v s
  | .topoDeny port => Sys2Proof.Machine.execTopoDeny port s
  | .topoMessageTimeout port => Sys2Proof.Machine.execTopoMessageTimeout port s
  | .shootAckTimeout id m => Sys2Proof.Machine.execShootAckTimeout id m s
  | .shootAcknowledge id m => Sys2Proof.Machine.execShootAcknowledge id m s
  | .leaseOpenTimeout lease => Sys2Proof.Machine.execLeaseOpenTimeout lease s
  | .leaseExpire lease => Sys2Proof.Machine.execLeaseExpire lease s
  | .circuitClose circuit => Sys2Proof.Machine.execCircuitClose circuit s
  | .ctxCreate w7 => Sys2Proof.Machine.execCtxCreate w7 s
  | .ctxKill w7 => Sys2Proof.Machine.execCtxKill w7 s
  | .ctxSavearea w7 => Sys2Proof.Machine.execCtxSavearea w7 s
  | .ctxDebug w7 => Sys2Proof.Machine.execCtxDebug w7 s
  | .hostFreeze w7 => Sys2Proof.Machine.execHostFreeze w7 s
  | .hostThaw w7 => Sys2Proof.Machine.execHostThaw w7 s
  | .pvPlace w7 => Sys2Proof.Machine.execPvPlace w7 s
  | .leaseOpen w7 => Sys2Proof.Machine.execLeaseOpen w7 s
  | .leaseRenew w7 => Sys2Proof.Machine.execLeaseRenew w7 s
  | .topoRequest w7 => Sys2Proof.Machine.execTopoRequest w7 s
  | .colourSplit w7 act => Sys2Proof.Machine.execColourSplit w7 act s
  | .quotaSet w7 => Sys2Proof.Machine.execQuotaSet w7 s
  | .measureExtend w7 => Sys2Proof.Machine.execMeasureExtend w7 s
  | .mapWrite w7 signatureOk => Sys2Proof.Machine.execMapWrite w7 signatureOk s
  | .acceptWrite n value => Sys2Proof.Machine.execAcceptWrite n value s
  | .registerWrite link act => Sys2Proof.Machine.execRegisterWrite link act s
  | .boot inp => Sys2Proof.Machine.execBoot inp s
  | .thermal celsius => Sys2Proof.Machine.execThermal celsius s
  | .fillDrainPortTransfer h n => Sys2Proof.Machine.execFillDrainPortTransfer h n s
  | .linkDown port => Sys2Proof.Machine.execLinkDown port s
  | .leasePeerOpen lease port peer duration => Sys2Proof.Machine.execLeasePeerOpen lease port peer duration s
  | .add d a b => Sys2Proof.Machine.execAdd d a b s
  | .addI d a imm => Sys2Proof.Machine.execAddI d a imm s
  | .sub d a b => Sys2Proof.Machine.execSub d a b s
  | .subI d a imm => Sys2Proof.Machine.execSubI d a imm s
  | .mul d a b => Sys2Proof.Machine.execMul d a b s
  | .mulI d a imm => Sys2Proof.Machine.execMulI d a imm s
  | .mulh d a b sg => Sys2Proof.Machine.execMulh d a b sg s
  | .mulhI d a sg imm => Sys2Proof.Machine.execMulhI d a sg imm s
  | .div d a b sg => Sys2Proof.Machine.execDiv d a b sg s
  | .divI d a sg imm => Sys2Proof.Machine.execDivI d a sg imm s
  | .rem d a b sg => Sys2Proof.Machine.execRem d a b sg s
  | .remI d a sg imm => Sys2Proof.Machine.execRemI d a sg imm s
  | .and d a b => Sys2Proof.Machine.execAnd d a b s
  | .andI d a imm => Sys2Proof.Machine.execAndI d a imm s
  | .or d a b => Sys2Proof.Machine.execOr d a b s
  | .orI d a imm => Sys2Proof.Machine.execOrI d a imm s
  | .xor d a b => Sys2Proof.Machine.execXor d a b s
  | .xorI d a imm => Sys2Proof.Machine.execXorI d a imm s
  | .andn d a b => Sys2Proof.Machine.execAndn d a b s
  | .andnI d a imm => Sys2Proof.Machine.execAndnI d a imm s
  | .shl d a b => Sys2Proof.Machine.execShl d a b s
  | .shlI d a imm => Sys2Proof.Machine.execShlI d a imm s
  | .shr d a b => Sys2Proof.Machine.execShr d a b s
  | .shrI d a imm => Sys2Proof.Machine.execShrI d a imm s
  | .sar d a b => Sys2Proof.Machine.execSar d a b s
  | .sarI d a imm => Sys2Proof.Machine.execSarI d a imm s
  | .rot d a b => Sys2Proof.Machine.execRot d a b s
  | .rotI d a imm => Sys2Proof.Machine.execRotI d a imm s
  | .min d a b sg => Sys2Proof.Machine.execMin d a b sg s
  | .minI d a sg imm => Sys2Proof.Machine.execMinI d a sg imm s
  | .max d a b sg => Sys2Proof.Machine.execMax d a b sg s
  | .maxI d a sg imm => Sys2Proof.Machine.execMaxI d a sg imm s
  | .cmp d a b cond => Sys2Proof.Machine.execCmp d a b cond s
  | .cmpI d a cond imm => Sys2Proof.Machine.execCmpI d a cond imm s
  | .sel d a b neg k => Sys2Proof.Machine.execSel d a b neg k s
  | .selI d a neg k imm => Sys2Proof.Machine.execSelI d a neg k imm s
  | .padd d a b => Sys2Proof.Machine.execPadd d a b s
  | .paddI d a imm => Sys2Proof.Machine.execPaddI d a imm s
  | .psub d a b => Sys2Proof.Machine.execPsub d a b s
  | .psubI d a imm => Sys2Proof.Machine.execPsubI d a imm s
  | .clz d a => Sys2Proof.Machine.execClz d a s
  | .popc d a => Sys2Proof.Machine.execPopc d a s
  | .mov d a => Sys2Proof.Machine.execMov d a s
  | .movi d imm => Sys2Proof.Machine.execMovi d imm s
  | .movhi d a imm => Sys2Proof.Machine.execMovhi d a imm s
  | .extb d a pos len => Sys2Proof.Machine.execExtb d a pos len s
  | .insb d a pos len => Sys2Proof.Machine.execInsb d a pos len s
  | .sext d a n => Sys2Proof.Machine.execSext d a n s
  | .zext d a n => Sys2Proof.Machine.execZext d a n s
  | .pfmt d a fmt blk => Sys2Proof.Machine.execPfmt d a fmt blk s
  | .pmeta d a => Sys2Proof.Machine.execPmeta d a s
  | .pchk d a fmt => Sys2Proof.Machine.execPchk d a fmt s
  | .pand d a b => Sys2Proof.Machine.execPand d a b s
  | .por d a b => Sys2Proof.Machine.execPor d a b s
  | .pxor d a b => Sys2Proof.Machine.execPxor d a b s
  | .pnot d a => Sys2Proof.Machine.execPnot d a s
  | .addW d a b => Sys2Proof.Machine.execAddW d a b s
  | .addWI d a imm => Sys2Proof.Machine.execAddWI d a imm s
  | .subW d a b => Sys2Proof.Machine.execSubW d a b s
  | .mulW d a b => Sys2Proof.Machine.execMulW d a b s
  | .mulWI d a imm => Sys2Proof.Machine.execMulWI d a imm s
  | .shlW d a b => Sys2Proof.Machine.execShlW d a b s
  | .shrW d a b => Sys2Proof.Machine.execShrW d a b s
  | .sarW d a b => Sys2Proof.Machine.execSarW d a b s
  | .br hint off => Sys2Proof.Machine.execBr hint off s
  | .brp a neg hint off => Sys2Proof.Machine.execBrp a neg hint off s
  | .call d hint off => Sys2Proof.Machine.execCall d hint off s
  | .ret a => Sys2Proof.Machine.execRet a s
  | .jmpr d a => Sys2Proof.Machine.execJmpr d a s
  | .yield => Sys2Proof.Machine.execYield s
  | .waitany d mask => Sys2Proof.Machine.execWaitany d mask s
  | .endfire => Sys2Proof.Machine.execEndfire s
  | .faddF32 d a b rnd => Sys2Proof.Machine.execFaddF32 d a b rnd s
  | .faddF32I d a rnd imm => Sys2Proof.Machine.execFaddF32I d a rnd imm s
  | .fsubF32 d a b rnd => Sys2Proof.Machine.execFsubF32 d a b rnd s
  | .fsubF32I d a rnd imm => Sys2Proof.Machine.execFsubF32I d a rnd imm s
  | .fmulF32 d a b rnd => Sys2Proof.Machine.execFmulF32 d a b rnd s
  | .fmulF32I d a rnd imm => Sys2Proof.Machine.execFmulF32I d a rnd imm s
  | .ffmaF32 d a b c rnd => Sys2Proof.Machine.execFfmaF32 d a b c rnd s
  | .fdivF32 d a b rnd => Sys2Proof.Machine.execFdivF32 d a b rnd s
  | .fsqrtF32 d a rnd => Sys2Proof.Machine.execFsqrtF32 d a rnd s
  | .frsqrtF32 d a => Sys2Proof.Machine.execFrsqrtF32 d a s
  | .fexp2F32 d a => Sys2Proof.Machine.execFexp2F32 d a s
  | .flog2F32 d a => Sys2Proof.Machine.execFlog2F32 d a s
  | .fsinF32 d a => Sys2Proof.Machine.execFsinF32 d a s
  | .fcosF32 d a => Sys2Proof.Machine.execFcosF32 d a s
  | .fminF32 d a b => Sys2Proof.Machine.execFminF32 d a b s
  | .fminF32I d a imm => Sys2Proof.Machine.execFminF32I d a imm s
  | .fmaxF32 d a b => Sys2Proof.Machine.execFmaxF32 d a b s
  | .fmaxF32I d a imm => Sys2Proof.Machine.execFmaxF32I d a imm s
  | .fcmpF32 d a b cond => Sys2Proof.Machine.execFcmpF32 d a b cond s
  | .fcmpF32I d a cond imm => Sys2Proof.Machine.execFcmpF32I d a cond imm s
  | .fclassF32 d a => Sys2Proof.Machine.execFclassF32 d a s
  | .fcvt d a src dst sat rnd => Sys2Proof.Machine.execFcvt d a src dst sat rnd s
  | .fabsF32 d a => Sys2Proof.Machine.execFabsF32 d a s
  | .fnegF32 d a => Sys2Proof.Machine.execFnegF32 d a s
  | .faddF16 d a b rnd => Sys2Proof.Machine.execFaddF16 d a b rnd s
  | .fsubF16 d a b rnd => Sys2Proof.Machine.execFsubF16 d a b rnd s
  | .fmulF16 d a b rnd => Sys2Proof.Machine.execFmulF16 d a b rnd s
  | .ffmaF16 d a b c rnd => Sys2Proof.Machine.execFfmaF16 d a b c rnd s
  | .fdivF16 d a b rnd => Sys2Proof.Machine.execFdivF16 d a b rnd s
  | .fsqrtF16 d a rnd => Sys2Proof.Machine.execFsqrtF16 d a rnd s
  | .frsqrtF16 d a rnd => Sys2Proof.Machine.execFrsqrtF16 d a rnd s
  | .fexp2F16 d a rnd => Sys2Proof.Machine.execFexp2F16 d a rnd s
  | .flog2F16 d a rnd => Sys2Proof.Machine.execFlog2F16 d a rnd s
  | .fsinF16 d a rnd => Sys2Proof.Machine.execFsinF16 d a rnd s
  | .fcosF16 d a rnd => Sys2Proof.Machine.execFcosF16 d a rnd s
  | .fminF16 d a b => Sys2Proof.Machine.execFminF16 d a b s
  | .fmaxF16 d a b => Sys2Proof.Machine.execFmaxF16 d a b s
  | .fcmpF16 d a b cond => Sys2Proof.Machine.execFcmpF16 d a b cond s
  | .fclassF16 d a => Sys2Proof.Machine.execFclassF16 d a s
  | .faddBf16 d a b rnd => Sys2Proof.Machine.execFaddBf16 d a b rnd s
  | .fsubBf16 d a b rnd => Sys2Proof.Machine.execFsubBf16 d a b rnd s
  | .fmulBf16 d a b rnd => Sys2Proof.Machine.execFmulBf16 d a b rnd s
  | .ffmaBf16 d a b c rnd => Sys2Proof.Machine.execFfmaBf16 d a b c rnd s
  | .fdivBf16 d a b rnd => Sys2Proof.Machine.execFdivBf16 d a b rnd s
  | .fsqrtBf16 d a rnd => Sys2Proof.Machine.execFsqrtBf16 d a rnd s
  | .frsqrtBf16 d a rnd => Sys2Proof.Machine.execFrsqrtBf16 d a rnd s
  | .fexp2Bf16 d a rnd => Sys2Proof.Machine.execFexp2Bf16 d a rnd s
  | .flog2Bf16 d a rnd => Sys2Proof.Machine.execFlog2Bf16 d a rnd s
  | .fsinBf16 d a rnd => Sys2Proof.Machine.execFsinBf16 d a rnd s
  | .fcosBf16 d a rnd => Sys2Proof.Machine.execFcosBf16 d a rnd s
  | .fminBf16 d a b => Sys2Proof.Machine.execFminBf16 d a b s
  | .fmaxBf16 d a b => Sys2Proof.Machine.execFmaxBf16 d a b s
  | .fcmpBf16 d a b cond => Sys2Proof.Machine.execFcmpBf16 d a b cond s
  | .fclassBf16 d a => Sys2Proof.Machine.execFclassBf16 d a s
  | .ld d a b scale sx size ord scope off => Sys2Proof.Machine.execLd d a b scale sx size ord scope off s
  | .st d a b scale size ord scope off => Sys2Proof.Machine.execSt d a b scale size ord scope off s
  | .ldx d a b scale rf ord scope off => Sys2Proof.Machine.execLdx d a b scale rf ord scope off s
  | .stx d a b scale rf ord scope off => Sys2Proof.Machine.execStx d a b scale rf ord scope off s
  | .lds d a b scale sx size ord scope off => Sys2Proof.Machine.execLds d a b scale sx size ord scope off s
  | .sts d a b scale size ord scope off => Sys2Proof.Machine.execSts d a b scale size ord scope off s
  | .pref a b scale off => Sys2Proof.Machine.execPref a b scale off s
  | .clean a b scale off => Sys2Proof.Machine.execClean a b scale off s
  | .inval a b scale off => Sys2Proof.Machine.execInval a b scale off s
  | .fence ord scope => Sys2Proof.Machine.execFence ord scope s
  | .spb d a b scale cnt off => Sys2Proof.Machine.execSpb d a b scale cnt off s
  | .fla d a b scale cnt off => Sys2Proof.Machine.execFla d a b scale cnt off s
  | .spw => Sys2Proof.Machine.execSpw s
  | .copy d a b c dsp ssp rnd arrive st => Sys2Proof.Machine.execCopy d a b c dsp ssp rnd arrive st s
  | .ctest d a => Sys2Proof.Machine.execCtest d a s
  | .cwait d a => Sys2Proof.Machine.execCwait d a s
  | .amoadd d a b scale size ord scope off => Sys2Proof.Machine.execAmoadd d a b scale size ord scope off s
  | .amomin d a b scale size ord scope off => Sys2Proof.Machine.execAmomin d a b scale size ord scope off s
  | .amomax d a b scale size ord scope off => Sys2Proof.Machine.execAmomax d a b scale size ord scope off s
  | .amoand d a b scale size ord scope off => Sys2Proof.Machine.execAmoand d a b scale size ord scope off s
  | .amoor d a b scale size ord scope off => Sys2Proof.Machine.execAmoor d a b scale size ord scope off s
  | .amoxor d a b scale size ord scope off => Sys2Proof.Machine.execAmoxor d a b scale size ord scope off s
  | .amoswap d a b scale size ord scope off => Sys2Proof.Machine.execAmoswap d a b scale size ord scope off s
  | .cas d a b scale size ord scope off => Sys2Proof.Machine.execCas d a b scale size ord scope off s
  | .amofaddF32 d a b scale ord scope off => Sys2Proof.Machine.execAmofaddF32 d a b scale ord scope off s
  | .amoaddSpad d a b scale size ord scope off => Sys2Proof.Machine.execAmoaddSpad d a b scale size ord scope off s
  | .amominSpad d a b scale size ord scope off => Sys2Proof.Machine.execAmominSpad d a b scale size ord scope off s
  | .amomaxSpad d a b scale size ord scope off => Sys2Proof.Machine.execAmomaxSpad d a b scale size ord scope off s
  | .amoandSpad d a b scale size ord scope off => Sys2Proof.Machine.execAmoandSpad d a b scale size ord scope off s
  | .amoorSpad d a b scale size ord scope off => Sys2Proof.Machine.execAmoorSpad d a b scale size ord scope off s
  | .amoxorSpad d a b scale size ord scope off => Sys2Proof.Machine.execAmoxorSpad d a b scale size ord scope off s
  | .amoswapSpad d a b scale size ord scope off => Sys2Proof.Machine.execAmoswapSpad d a b scale size ord scope off s
  | .casSpad d a b scale size ord scope off => Sys2Proof.Machine.execCasSpad d a b scale size ord scope off s
  | .amofaddF32Spad d a b scale ord scope off => Sys2Proof.Machine.execAmofaddF32Spad d a b scale ord scope off s
  | .qpush d a cnt => Sys2Proof.Machine.execQpush d a cnt s
  | .qpushI d imm => Sys2Proof.Machine.execQpushI d imm s
  | .qpushs d a cnt => Sys2Proof.Machine.execQpushs d a cnt s
  | .qpushsI d imm => Sys2Proof.Machine.execQpushsI d imm s
  | .qpop d a cnt => Sys2Proof.Machine.execQpop d a cnt s
  | .qpeek d a cnt => Sys2Proof.Machine.execQpeek d a cnt s
  | .qtry d a b cnt => Sys2Proof.Machine.execQtry d a b cnt s
  | .qstat d a => Sys2Proof.Machine.execQstat d a s
  | .chsend d a cnt => Sys2Proof.Machine.execChsend d a cnt s
  | .chsendI d imm => Sys2Proof.Machine.execChsendI d imm s
  | .chrecv d a cnt => Sys2Proof.Machine.execChrecv d a cnt s
  | .cbwaitF a b => Sys2Proof.Machine.execCbwaitF a b s
  | .cbwaitFI a n => Sys2Proof.Machine.execCbwaitFI a n s
  | .cbwaitE a b => Sys2Proof.Machine.execCbwaitE a b s
  | .cbwaitEI a n => Sys2Proof.Machine.execCbwaitEI a n s
  | .cbadvP a b => Sys2Proof.Machine.execCbadvP a b s
  | .cbadvPI a n => Sys2Proof.Machine.execCbadvPI a n s
  | .cbadvC a b => Sys2Proof.Machine.execCbadvC a b s
  | .cbadvCI a n => Sys2Proof.Machine.execCbadvCI a n s
  | .cbset d a b => Sys2Proof.Machine.execCbset d a b s
  | .cbget d a c => Sys2Proof.Machine.execCbget d a c s
  | .vcfg b => Sys2Proof.Machine.execVcfg b s
  | .vcfgI imm => Sys2Proof.Machine.execVcfgI imm s
  | .vrunHh d a len keep ew => Sys2Proof.Machine.execVrunHh d a len keep ew s
  | .vrunHq d a len keep ew => Sys2Proof.Machine.execVrunHq d a len keep ew s
  | .vrunQh d a len keep ew => Sys2Proof.Machine.execVrunQh d a len keep ew s
  | .vrunQq d a len keep => Sys2Proof.Machine.execVrunQq d a len keep s
  | .vloop d b => Sys2Proof.Machine.execVloop d b s
  | .vloopI d imm => Sys2Proof.Machine.execVloopI d imm s
  | .vend d => Sys2Proof.Machine.execVend d s
  | .vsync => Sys2Proof.Machine.execVsync s
  | .mldsS a mf plane => Sys2Proof.Machine.execMldsS a mf plane s
  | .mldsH a mf => Sys2Proof.Machine.execMldsH a mf s
  | .mswap => Sys2Proof.Machine.execMswap s
  | .maccNH d a af rowb nm1 => Sys2Proof.Machine.execMaccNH d a af rowb nm1 s
  | .maccNQ d a af rowb nm1 => Sys2Proof.Machine.execMaccNQ d a af rowb nm1 s
  | .maccTH d a af rowb nm1 => Sys2Proof.Machine.execMaccTH d a af rowb nm1 s
  | .maccTQ d a af rowb nm1 => Sys2Proof.Machine.execMaccTQ d a af rowb nm1 s
  | .mzero d => Sys2Proof.Machine.execMzero d s
  | .mscale a tgt => Sys2Proof.Machine.execMscale a tgt s
  | .mscaleI tgt e => Sys2Proof.Machine.execMscaleI tgt e s
  | .mdrain dst a df rnd zero => Sys2Proof.Machine.execMdrain dst a df rnd zero s
  | .mgang mask => Sys2Proof.Machine.execMgang mask s
  | .mperm a => Sys2Proof.Machine.execMperm a s
  | .mxchg d a => Sys2Proof.Machine.execMxchg d a s
  | .iload d a => Sys2Proof.Machine.execIload d a s
  | .irunH a slot nm1 => Sys2Proof.Machine.execIrunH a slot nm1 s
  | .irunQ a slot nm1 => Sys2Proof.Machine.execIrunQ a slot nm1 s
  | .idrain dst nf nm1 => Sys2Proof.Machine.execIdrain dst nf nm1 s
  | .istat d sel => Sys2Proof.Machine.execIstat d sel s
  | .iunload slot => Sys2Proof.Machine.execIunload slot s
  | .nsend a route nm1 => Sys2Proof.Machine.execNsend a route nm1 s
  | .nsendH a route ns => Sys2Proof.Machine.execNsendH a route ns s
  | .nrecv d route nm1 => Sys2Proof.Machine.execNrecv d route nm1 s
  | .nrecvH d route ns => Sys2Proof.Machine.execNrecvH d route ns s
  | .nred a route nm1 => Sys2Proof.Machine.execNred a route nm1 s
  | .nredH a route ns => Sys2Proof.Machine.execNredH a route ns s
  | .nbcast a route nm1 => Sys2Proof.Machine.execNbcast a route nm1 s
  | .nbcastH a route ns => Sys2Proof.Machine.execNbcastH a route ns s
  | .ntok a => Sys2Proof.Machine.execNtok a s
  | .ntokI imm => Sys2Proof.Machine.execNtokI imm s
  | .narm d a b => Sys2Proof.Machine.execNarm d a b s
  | .narmI d imm => Sys2Proof.Machine.execNarmI d imm s
  | .nfence => Sys2Proof.Machine.execNfence s
  | .vnwait d sel mask => Sys2Proof.Machine.execVnwait d sel mask s
  | .vnrel a => Sys2Proof.Machine.execVnrel a s
  | .vnrelI imm => Sys2Proof.Machine.execVnrelI imm s
  | .bar d a sync => Sys2Proof.Machine.execBar d a sync s
  | .barI d bar sync count => Sys2Proof.Machine.execBarI d bar sync count s
  | .pvget d a => Sys2Proof.Machine.execPvget d a s
  | .pvgetI d imm => Sys2Proof.Machine.execPvgetI d imm s
  | .pvpin d a => Sys2Proof.Machine.execPvpin d a s
  | .pvunpin a => Sys2Proof.Machine.execPvunpin a s
  | .pvpubRes d a => Sys2Proof.Machine.execPvpubRes d a s
  | .pvpubCom d a => Sys2Proof.Machine.execPvpubCom d a s
  | .pvswitch d a => Sys2Proof.Machine.execPvswitch d a s
  | .pvtag d a => Sys2Proof.Machine.execPvtag d a s
  | .stash a b => Sys2Proof.Machine.execStash a b s
  | .unstash d a b => Sys2Proof.Machine.execUnstash d a b s
  | .srseed a sub => Sys2Proof.Machine.execSrseed a sub s
  | .gradarm bar => Sys2Proof.Machine.execGradarm bar s
  | .trap a => Sys2Proof.Machine.execTrap a s
  | .trapI imm => Sys2Proof.Machine.execTrapI imm s
  | .eret => Sys2Proof.Machine.execEret s
  | .krd d creg => Sys2Proof.Machine.execKrd d creg s
  | .kwr a creg => Sys2Proof.Machine.execKwr a creg s
  | .tlbinv a => Sys2Proof.Machine.execTlbinv a s
  | .tlbinvr a b => Sys2Proof.Machine.execTlbinvr a b s
  | .shoot d a b => Sys2Proof.Machine.execShoot d a b s
  | .freeze d a => Sys2Proof.Machine.execFreeze d a s
  | .thaw d a => Sys2Proof.Machine.execThaw d a s
  | .featrd d a => Sys2Proof.Machine.execFeatrd d a s
  | .featrdI d imm => Sys2Proof.Machine.execFeatrdI d imm s
  | .brk code => Sys2Proof.Machine.execBrk code s
  | .dhalt a => Sys2Proof.Machine.execDhalt a s
  | .dresume a => Sys2Proof.Machine.execDresume a s
  | .bwdderive d a b c => Sys2Proof.Machine.execBwdderive d a b c s
  | .deferredFaultDelivery => Sys2Proof.Machine.execDeferredFaultDelivery s
  | .launchIntake => Sys2Proof.Machine.execLaunchIntake s
  | .placementReserve => Sys2Proof.Machine.execPlacementReserve s
  | .placementCommit => Sys2Proof.Machine.execPlacementCommit s
  | .gridRetire => Sys2Proof.Machine.execGridRetire s
  | .eventQueueAdvance => Sys2Proof.Machine.execEventQueueAdvance s
  | .attestRequest => Sys2Proof.Machine.execAttestRequest s
  | .attestComplete => Sys2Proof.Machine.execAttestComplete s
  | .powerCapStep => Sys2Proof.Machine.execPowerCapStep s
  | .powerDown => Sys2Proof.Machine.execPowerDown s

end Sys2Proof.Machine
end

