-- ==== Sys2Proof/Machine/Step.lean ====
section
/-!
DEFINITION. One step of the machine: a step of another agent from the agenda, or the turn of a strand, which fetches the word at
its PC, evaluates the guard, decodes and executes (03_encoding_and_assembly.md R86, R97, 10_translation_and_traps.md R321; LOG 4 DESIGN CHOICE).
-/
namespace Sys2Proof.Machine

/-- The tile that issues after a tile: the next one listed, or the first. -/
def State.nextTile (s : State) (t : Nat) : Nat :=
  match s.tiles.find? fun e => decide (t < e.1) with
  | some e => e.1
  | none => match s.tiles with
    | e :: _ => e.1
    | [] => t

/-- The next strand in turn: the strands of a tile in order, then the next tile (LOG 4 DESIGN CHOICE). -/
def State.rotate (s : State) : State :=
  let k := s.cur.strand
  { s with cur := if k = 3 then ⟨s.nextTile s.cur.tile, 0⟩ else ⟨s.cur.tile, k + 1⟩ }

/-- The feature bit that a code needs, if it needs one (R239). -/
def gateOf (opc : Nat) : Option Nat :=
  if 0x150 ≤ opc ∧ opc ≤ 0x155 then some 2
  else if 0x192 ≤ opc ∧ opc ≤ 0x198 then some 5
  else if opc = 0x1CF then some 8
  else none

/-- Decoding in a state: check 1 of R97 counts a gated code without its feature bit as unassigned (R239). -/
noncomputable def State.decodeHere (s : State) (w : Word) : Decoded :=
  match gateOf (field w 55 9) with
  | some n => if s.feature n then decode w else .illegalOpcode
  | none => decode w

/-- The issuing strand runs the word at its PC (R86, R97). -/
noncomputable def State.runWord (s : State) (w : Word) : Host.Outcome State Fault Refusal :=
  let x := s.curStrand
  let g := guardOf w
  if x.rp g.p == g.neg then .next (retire s)
  else match s.decodeHere w with
    | .ok i => exec i s
    | .illegalOpcode => .next (takeTrap s .illegalOpcode w x.pc)
    | .reservedField => .next (takeTrap s .reservedField w x.pc)
    | .illegalModifier => .next (takeTrap s .illegalModifier w x.pc)

/-- The turn of the strand that issues: an idle strand's tile may dispatch (R369), a halted one does nothing (R342), a deferred
fault comes before the instruction (R166), one in a trap handler too (LOG 45 DEDUCED), and otherwise the instruction runs. -/
noncomputable def State.strandTurn (s : State) : Host.Outcome State Fault Refusal :=
  let x := s.curStrand
  if !s.powered || !s.active s.cur.tile || x.halted then .next s
  else if !x.isFiring then exec (.firingDispatch s.cur.tile) s
  else if !x.deferred.isEmpty then exec .deferredFaultDelivery s
  else s.runWord s.word

/-- The clock and the step count move on, and the turn changes (LOG 4 DESIGN CHOICE, LOG 5 DESIGN CHOICE). -/
def State.tick (s : State) : State :=
  { s with steps := s.steps + 1, time := s.time + Config.stepNs s.steps, evTurn := !s.evTurn }

/-- A next state changed by a function. -/
def mapNext (f : State → State) : Host.Outcome State Fault Refusal → Host.Outcome State Fault Refusal
  | .next s => .next (f s)
  | o => o

/-- One step. -/
noncomputable def step (s : State) : Host.Outcome State Fault Refusal :=
  match s.evTurn, s.agenda with
  | true, e :: rest => exec e { s.tick with agenda := rest }
  | _, _ => mapNext State.rotate s.tick.strandTurn

/-- A region of one tile that runs: what a fetch needs of a tile that no region binds (LOG 6 DESIGN CHOICE). -/
def fetchRegion (h : BitVec 32) (t : Nat) : Region :=
  { Region.idle with info := { Launch.idle with handle := h, rows := 1, cols := 1 }, phase := .running, tiles := [t] }

/-- The state with an instruction stored where the next step fetches: at PC of the strand that issues, which runs a firing in a
running region, with every offered feature accepted (LOG 6 DESIGN CHOICE). -/
def State.withFetchWord (s : State) (nbits w : Nat) : State :=
  let word := BitVec.ofNat 64 (w % 2 ^ nbits)
  let t := s.curTile
  let x := s.curStrand
  let h := if t.handle = 0 then 1 else t.handle
  let y := { (x.setStatus 13 true).setStatus 15 false with
    firing := match x.firing with
      | some f => some f
      | none => some ⟨0, 0, [], [], []⟩
    deferred := [] }
  let t1 := { t.setStrand s.cur.strand y with
    code := tabSet 0 t.code x.pc.toNat word
    bound := match t.bound with
      | some b => some { b with handle := h }
      | none => some ⟨h, 0, 0⟩
    freezing := false }
  let r := if s.live h then { s.region h with phase := .running } else fetchRegion h s.cur.tile
  { (s.setCurTile t1).setRegion h r with powered := true, evTurn := false, accepted := s.accepted ||| s.offered }

end Sys2Proof.Machine
end

