-- ==== Sys2Proof/Safety.lean ====
section
/-!
DEFINITION. What a safe run is, in the terms that statements use: a step that answers a next state, and the canonical form of the
memories that every step keeps.
-/
namespace Sys2Proof.Machine

/-- A step from the state answers a next state: it is no fault and no refusal. -/
def State.SafeStep (s : State) : Prop := ∃ t, step s = .next t

/-- Home memory and host memory are in their canonical form. -/
def State.MemOk (s : State) : Prop := s.mem.wf = true ∧ s.hostMem.wf = true

end Sys2Proof.Machine
end

