-- ==== Sys2Proof/Certificates/Slice0/Obligations.lean ====
section
/-!
DEFINITION. The statements about the machine, each a proposition that formalises rules of spec/ and names them. Words used:
an instruction is READY when none of the g registers that it names holds a scoreboard token (R161) and a next index exists (R94).
-/
namespace Sys2Proof.Claims
open Sys2Proof.Machine

/-! ## What an instruction leaves that retires -/

/-- None of some registers holds a scoreboard token (R161). -/
def Free (s : State) (rs : List (BitVec 6)) : Prop := ∀ r ∈ rs, s.curStrand.tokens.getLsbD r.toNat = false

/-- None of some registers holds a scoreboard token, and the instruction does not stand at the last index (R161, R94). -/
def Ready (s : State) (rs : List (BitVec 6)) : Prop := Free s rs ∧ s.curStrand.pc ≠ 8191

/-- A strand that has retired an instruction: PC stands at the next index, nothing of a wait is left, and with KSTATUS.SSTEP the
strand has halted (R342). -/
def goneOn (x : Strand) : Strand :=
  let y := { x with pc := x.pc + 1, hold := .none, waited := 0 }
  if x.kstatus.getLsbD 14 then { y with kstatus := y.kstatus ||| 0x8000 } else y

/-- A strand that has retired a transfer to an index. -/
def wentTo (x : Strand) (pc : BitVec 13) : Strand := { goneOn x with pc := pc }

/-- The state after an instruction that replaces the issuing strand and retires. -/
def became (s : State) (x : Strand) : State := s.setCur (goneOn x)

/-- The state after an instruction that writes one g register. -/
def wrote (s : State) (d : BitVec 6) (v : Word) : State := became s (s.curStrand.wg d v)

/-- The state after an instruction that writes one predicate. -/
def wroteP (s : State) (d : BitVec 3) (b : Bool) : State := became s (s.curStrand.wp d b)

/-- A home byte that a tile's L1 holds dirty. -/
def DirtyAt (s : State) (t pa : Nat) : Prop := ∃ l, l1Find (s.tile t).l1 (pa / 32) = some l ∧ l.dirty.getLsbD (pa % 32) = true

/-- The byte that a tile reads at a physical address: its L1 line's when it holds the line, and the home's otherwise. -/
def seenAt (s : State) (t pa : Nat) : Byte :=
  match l1Find (s.tile t).l1 (pa / 32) with
  | some l => l.data.extractLsb' (8 * (pa % 32)) 8
  | none => readByte s.mem pa

/-- The state after an instruction that writes no register. -/
def passed (s : State) : State := became s s.curStrand

end Sys2Proof.Claims

open Sys2Proof Sys2Proof.Machine Sys2Proof.Claims

/-- Integer register forms (R121): each answers the next state with its result in g[d], and changes nothing else but PC. The
results are stated in integer arithmetic. -/
def Sys2Proof.Claims.IntegerRegisterForms : Prop :=
  ∀ (s : State) (d a b : BitVec 6), Ready s [d, a, b] →
    let x := s.curStrand.rg a
    let y := s.curStrand.rg b
    let n := y.toNat % 64
    exec (.add d a b) s = .next (wrote s d (BitVec.ofNat 64 (x.toNat + y.toNat))) ∧
    exec (.sub d a b) s = .next (wrote s d (BitVec.ofInt 64 (x.toInt - y.toInt))) ∧
    exec (.mul d a b) s = .next (wrote s d (BitVec.ofNat 64 (x.toNat * y.toNat))) ∧
    exec (.mulh d a b false) s = .next (wrote s d (BitVec.ofNat 64 (x.toNat * y.toNat / 2 ^ 64))) ∧
    exec (.mulh d a b true) s = .next (wrote s d (BitVec.ofInt 64 (x.toInt * y.toInt / 2 ^ 64))) ∧
    exec (.and d a b) s = .next (wrote s d (x &&& y)) ∧
    exec (.or d a b) s = .next (wrote s d (x ||| y)) ∧
    exec (.xor d a b) s = .next (wrote s d (x ^^^ y)) ∧
    exec (.andn d a b) s = .next (wrote s d (x &&& ~~~y)) ∧
    exec (.shl d a b) s = .next (wrote s d (BitVec.ofNat 64 (x.toNat * 2 ^ n))) ∧
    exec (.shr d a b) s = .next (wrote s d (BitVec.ofNat 64 (x.toNat / 2 ^ n))) ∧
    exec (.sar d a b) s = .next (wrote s d (BitVec.ofInt 64 (x.toInt / 2 ^ n))) ∧
    exec (.rot d a b) s = .next (wrote s d (x.rotateLeft n)) ∧
    exec (.min d a b false) s = .next (wrote s d (if x.toNat ≤ y.toNat then x else y)) ∧
    exec (.min d a b true) s = .next (wrote s d (if x.toInt ≤ y.toInt then x else y)) ∧
    exec (.max d a b false) s = .next (wrote s d (if y.toNat ≤ x.toNat then x else y)) ∧
    exec (.max d a b true) s = .next (wrote s d (if y.toInt ≤ x.toInt then x else y))

/-- Integer immediate forms (R91, R121): the immediate is sign-extended, and zero-extended for AND, OR, XOR and ANDN. -/
def Sys2Proof.Claims.IntegerImmediateForms : Prop :=
  ∀ (s : State) (d a : BitVec 6) (imm : BitVec 32), Ready s [d, a] →
    let x := s.curStrand.rg a
    let y := imm.signExtend 64
    let z := imm.zeroExtend 64
    let n := imm.toNat % 64
    exec (.addI d a imm) s = .next (wrote s d (BitVec.ofInt 64 (x.toInt + imm.toInt))) ∧
    exec (.subI d a imm) s = .next (wrote s d (BitVec.ofInt 64 (x.toInt - imm.toInt))) ∧
    exec (.mulI d a imm) s = .next (wrote s d (BitVec.ofInt 64 (x.toInt * imm.toInt))) ∧
    exec (.mulhI d a false imm) s = .next (wrote s d (BitVec.ofNat 64 (x.toNat * y.toNat / 2 ^ 64))) ∧
    exec (.mulhI d a true imm) s = .next (wrote s d (BitVec.ofInt 64 (x.toInt * imm.toInt / 2 ^ 64))) ∧
    exec (.andI d a imm) s = .next (wrote s d (x &&& z)) ∧
    exec (.orI d a imm) s = .next (wrote s d (x ||| z)) ∧
    exec (.xorI d a imm) s = .next (wrote s d (x ^^^ z)) ∧
    exec (.andnI d a imm) s = .next (wrote s d (x &&& ~~~z)) ∧
    exec (.shlI d a imm) s = .next (wrote s d (BitVec.ofNat 64 (x.toNat * 2 ^ n))) ∧
    exec (.shrI d a imm) s = .next (wrote s d (BitVec.ofNat 64 (x.toNat / 2 ^ n))) ∧
    exec (.sarI d a imm) s = .next (wrote s d (BitVec.ofInt 64 (x.toInt / 2 ^ n))) ∧
    exec (.rotI d a imm) s = .next (wrote s d (x.rotateLeft n)) ∧
    exec (.minI d a false imm) s = .next (wrote s d (if x.toNat ≤ y.toNat then x else y)) ∧
    exec (.minI d a true imm) s = .next (wrote s d (if x.toInt ≤ imm.toInt then x else y)) ∧
    exec (.maxI d a false imm) s = .next (wrote s d (if y.toNat ≤ x.toNat then x else y)) ∧
    exec (.maxI d a true imm) s = .next (wrote s d (if imm.toInt ≤ x.toInt then x else y))

/-- DIV and REM (R122): truncation toward zero, the remainder with the sign of the dividend, all ones and the dividend for a zero
divisor; the division of the most negative number by -1 wraps to the dividend and leaves 0. With DZT a zero divisor traps
DIVZERO after the result is written, KEPC the next index and KTVAL the dividend. -/
def Obligations.DivisionResults : Prop :=
  ∀ (s : State) (d a b : BitVec 6) (imm : BitVec 32),
    let x := s.curStrand.rg a
    let trapped (v : Word) : State := takeTrap ((s.setCur { s.curStrand.wg d v with hold := .none })) .divZero x (s.curStrand.pc + 1)
    (Ready s [d, a, b] →
      let y := s.curStrand.rg b
      (y ≠ 0 →
        exec (.div d a b false) s = .next (wrote s d (BitVec.ofNat 64 (x.toNat / y.toNat))) ∧
        exec (.div d a b true) s = .next (wrote s d (BitVec.ofInt 64 (x.toInt.tdiv y.toInt))) ∧
        exec (.rem d a b false) s = .next (wrote s d (BitVec.ofNat 64 (x.toNat % y.toNat))) ∧
        exec (.rem d a b true) s = .next (wrote s d (BitVec.ofInt 64 (x.toInt.tmod y.toInt)))) ∧
      (y = 0 → s.curStrand.kstatus.getLsbD 1 = false → ∀ sg : Bool,
        exec (.div d a b sg) s = .next (wrote s d 0xFFFFFFFFFFFFFFFF) ∧ exec (.rem d a b sg) s = .next (wrote s d x)) ∧
      (y = 0 → s.curStrand.kstatus.getLsbD 1 = true → ∀ sg : Bool,
        exec (.div d a b sg) s = .next (trapped 0xFFFFFFFFFFFFFFFF) ∧ exec (.rem d a b sg) s = .next (trapped x))) ∧
    (Ready s [d, a] →
      let y := imm.signExtend 64
      (imm ≠ 0 →
        exec (.divI d a false imm) s = .next (wrote s d (BitVec.ofNat 64 (x.toNat / y.toNat))) ∧
        exec (.divI d a true imm) s = .next (wrote s d (BitVec.ofInt 64 (x.toInt.tdiv imm.toInt))) ∧
        exec (.remI d a false imm) s = .next (wrote s d (BitVec.ofNat 64 (x.toNat % y.toNat))) ∧
        exec (.remI d a true imm) s = .next (wrote s d (BitVec.ofInt 64 (x.toInt.tmod imm.toInt)))) ∧
      (imm = 0 → s.curStrand.kstatus.getLsbD 1 = false → ∀ sg : Bool,
        exec (.divI d a sg imm) s = .next (wrote s d 0xFFFFFFFFFFFFFFFF) ∧ exec (.remI d a sg imm) s = .next (wrote s d x)) ∧
      (imm = 0 → s.curStrand.kstatus.getLsbD 1 = true → ∀ sg : Bool,
        exec (.divI d a sg imm) s = .next (trapped 0xFFFFFFFFFFFFFFFF) ∧ exec (.remI d a sg imm) s = .next (trapped x)))

/-- The .W forms (R123): low 32 bits of the operands, the result sign-extended from bit 31. -/
def Sys2Proof.Claims.WordForms : Prop :=
  ∀ (s : State) (d a b : BitVec 6) (imm : BitVec 32),
    let x := s.curStrand.rg a
    let y := s.curStrand.rg b
    let w (v : Int) : Word := (BitVec.ofInt 32 v).signExtend 64
    let n := y.toNat % 32
    (Ready s [d, a, b] →
      exec (.addW d a b) s = .next (wrote s d (w (x.toInt + y.toInt))) ∧
      exec (.subW d a b) s = .next (wrote s d (w (x.toInt - y.toInt))) ∧
      exec (.mulW d a b) s = .next (wrote s d (w (x.toInt * y.toInt))) ∧
      exec (.shlW d a b) s = .next (wrote s d (w (x.toInt * 2 ^ n))) ∧
      exec (.shrW d a b) s = .next (wrote s d (w ((x.toNat % 2 ^ 32 / 2 ^ n : Nat)))) ∧
      exec (.sarW d a b) s = .next (wrote s d (w ((BitVec.ofInt 32 x.toInt).toInt / 2 ^ n)))) ∧
    (Ready s [d, a] →
      exec (.addWI d a imm) s = .next (wrote s d (w (x.toInt + imm.toInt))) ∧
      exec (.mulWI d a imm) s = .next (wrote s d (w (x.toInt * imm.toInt))))

/-- Moves, bit fields and counts (R124, Table 4.4): positions above 63 read 0 and are dropped. -/
def Sys2Proof.Claims.MovesAndBitFields : Prop :=
  ∀ (s : State) (d a pos len : BitVec 6) (imm : BitVec 32), Ready s [d, a] →
    let x := s.curStrand.rg a
    exec (.mov d a) s = .next (wrote s d x) ∧
    exec (.movhi d a imm) s = .next (wrote s d (BitVec.ofNat 64 (imm.toNat * 2 ^ 32 + x.toNat % 2 ^ 32))) ∧
    exec (.extb d a pos len) s =
      .next (wrote s d (BitVec.ofNat 64 (x.toNat / 2 ^ pos.toNat % 2 ^ (len.toNat + 1)))) ∧
    exec (.sext d a pos) s = .next (wrote s d ((x.toNat : Int).bmod (2 ^ (pos.toNat + 1)) |> BitVec.ofInt 64)) ∧
    exec (.zext d a pos) s = .next (wrote s d (BitVec.ofNat 64 (x.toNat % 2 ^ (pos.toNat + 1)))) ∧
    (∃ v, exec (.insb d a pos len) s = .next (wrote s d v) ∧ ∀ i, i < 64 →
      v.getLsbD i = if pos.toNat ≤ i ∧ i ≤ pos.toNat + len.toNat then x.getLsbD (i - pos.toNat)
        else (s.curStrand.rg d).getLsbD i) ∧
    (∃ v, exec (.clz d a) s = .next (wrote s d v) ∧ v.toNat ≤ 64 ∧ x.toNat < 2 ^ (64 - v.toNat) ∧
      (v.toNat < 64 → 2 ^ (63 - v.toNat) ≤ x.toNat)) ∧
    exec (.popc d a) s = .next (wrote s d (BitVec.ofNat 64 (((List.range 64).filter fun i => x.getLsbD i).length))) ∧
    (Ready s [d] → exec (.movi d imm) s = .next (wrote s d (BitVec.ofInt 64 imm.toInt)))

/-- Pointer instructions (R125, R126): PADD and PSUB change only the address field, modulo 2^56. -/
def Sys2Proof.Claims.PointerForms : Prop :=
  ∀ (s : State) (d a b : BitVec 6) (p : BitVec 3) (fmt : BitVec 5) (blk : BitVec 3) (imm : BitVec 32),
    let x := s.curStrand.rg a
    let y := s.curStrand.rg b
    let addr (v : Int) : Word := x.extractLsb' 56 8 ++ BitVec.ofInt 56 v
    (Ready s [d, a, b] →
      exec (.padd d a b) s = .next (wrote s d (addr (x.toInt + y.toInt))) ∧
      exec (.psub d a b) s = .next (wrote s d (addr (x.toInt - y.toInt)))) ∧
    (Ready s [d, a] →
      exec (.paddI d a imm) s = .next (wrote s d (addr (x.toInt + imm.toInt))) ∧
      exec (.psubI d a imm) s = .next (wrote s d (addr (x.toInt - imm.toInt))) ∧
      exec (.pfmt d a fmt blk) s = .next (wrote s d (fmt ++ blk ++ x.extractLsb' 0 56)) ∧
      exec (.pmeta d a) s = .next (wrote s d (BitVec.ofNat 64 (x.toNat / 2 ^ 56)))) ∧
    (Ready s [a] →
      exec (.pchk p a fmt) s = .next (wroteP s p (decide (x.toNat / 2 ^ 59 = fmt.toNat ∧ fmt.toNat ≤ 9 ∧
        x.toNat % (if fmt = 2 ∨ fmt = 4 ∨ fmt = 5 then 2 else if fmt = 3 ∨ fmt = 6 then 4 else 1) = 0))))

/-- CMP, SEL and the predicate logic (R127 to R129). -/
def Sys2Proof.Claims.PredicateForms : Prop :=
  ∀ (s : State) (d a b : BitVec 6) (p q k : BitVec 3) (c : Cond) (neg : Bool) (imm : BitVec 32),
    let x := s.curStrand.rg a
    let y := s.curStrand.rg b
    let i := imm.signExtend 64
    let rel (u v : Word) : Bool := match c with
      | .eq => decide (u = v)
      | .ne => decide (u ≠ v)
      | .lt => decide (u.toInt < v.toInt)
      | .le => decide (u.toInt ≤ v.toInt)
      | .gt => decide (v.toInt < u.toInt)
      | .ge => decide (v.toInt ≤ u.toInt)
      | .ltu => decide (u.toNat < v.toNat)
      | .leu => decide (u.toNat ≤ v.toNat)
      | .gtu => decide (v.toNat < u.toNat)
      | .geu => decide (v.toNat ≤ u.toNat)
    let sel := if neg then !s.curStrand.rp k else s.curStrand.rp k
    (Ready s [a, b] → exec (.cmp p a b c) s = .next (wroteP s p (rel x y))) ∧
    (Ready s [a] → exec (.cmpI p a c imm) s = .next (wroteP s p (rel x i))) ∧
    (Ready s [d, a, b] → exec (.sel d a b neg k) s = .next (wrote s d (if sel then x else y))) ∧
    (Ready s [d, a] → exec (.selI d a neg k imm) s = .next (wrote s d (if sel then x else i))) ∧
    (Ready s [] →
      exec (.pand p q k) s = .next (wroteP s p (s.curStrand.rp q && s.curStrand.rp k)) ∧
      exec (.por p q k) s = .next (wroteP s p (s.curStrand.rp q || s.curStrand.rp k)) ∧
      exec (.pxor p q k) s = .next (wroteP s p (s.curStrand.rp q ^^ s.curStrand.rp k)) ∧
      exec (.pnot p q) s = .next (wroteP s p (!s.curStrand.rp q)))

/-- The integer register, immediate and word forms, all three parts. -/
def Obligations.IntegerForms : Prop := Claims.IntegerRegisterForms ∧ Claims.IntegerImmediateForms ∧ Claims.WordForms

/-- Moves, bit fields, element addresses and predicates, all three parts. -/
def Obligations.MoveAndPointerForms : Prop := Claims.MovesAndBitFields ∧ Claims.PointerForms ∧ Claims.PredicateForms

namespace Sys2Proof.Claims

/-- KFLAGS after a scalar floating-point instruction that raises flags: they are set, and SRCSCAL with them (R118). -/
def raised (s : State) (fl : FlagSet) : State :=
  if fl = 0 then s else s.setCurTile { s.curTile with kflags := s.curTile.kflags ||| (fl ||| 0x100).zeroExtend 64 }

/-- The state after a scalar floating-point instruction that completes without a trap. -/
def fpWrote (s : State) (d : BitVec 6) (r : FRes) : State := wrote (raised s r.fl) d (BitVec.ofNat 64 r.bits)

/-- Under FXT no raised flag is one that traps (R119): NV, DZ, OF, SAT, RANGE. -/
def NoTrap (s : State) (fl : FlagSet) : Prop := s.curStrand.kstatus.getLsbD 3 = true → fl &&& 0x67 = 0

/-- The mode of an arithmetic instruction (R74, R75): DYN takes KSTATUS.RM, and SR there rounds RNE. -/
def rmOf (s : State) : Rnd → RMode
  | .rne => .rne
  | .rtz => .rtz
  | .rup => .rup
  | .rdn => .rdn
  | .sr => .rne
  | .dyn => match s.curStrand.kstatus.toNat / 16 % 8 with
    | 1 => .rtz
    | 2 => .rup
    | 3 => .rdn
    | _ => .rne

/-- What a scalar floating-point instruction does: the g registers that it names, its destination, its result with the flags that it
raises, and the argument's bits that KTVAL holds for RANGE. -/
structure FpDoes where
  regs : List (BitVec 6)
  d : BitVec 6
  res : FRes
  arg : Word

/-- The operand of FP32 in a register value: bits [31:0] (R117). -/
def in32 (w : Word) : Nat := w.toNat % 2 ^ 32
/-- The operand of FP16 or BF16: bits [15:0] (R117). -/
def in16 (w : Word) : Nat := w.toNat % 2 ^ 16

/-- An operation on two values. -/
def does2 (f : FFmt) (w : Word → Nat) (op : FFmt → RMode → FpNum → FpNum → FRes) (s : State) (d a b : BitVec 6) (r : Rnd) : FpDoes :=
  let x := s.curStrand.rg a
  ⟨[d, a, b], d, op f (rmOf s r) (unpack f (w x)) (unpack f (w (s.curStrand.rg b))), x⟩

/-- An FP32 operation on a register value and an immediate bit pattern (R91). -/
def doesImm (op : FFmt → RMode → FpNum → FpNum → FRes) (s : State) (d a : BitVec 6) (i : BitVec 32) (r : Rnd) : FpDoes :=
  let x := s.curStrand.rg a
  ⟨[d, a], d, op f32 (rmOf s r) (unpack f32 (in32 x)) (unpack f32 i.toNat), x⟩

/-- FFMA. -/
def does3 (f : FFmt) (w : Word → Nat) (s : State) (d a b c : BitVec 6) (r : Rnd) : FpDoes :=
  let x := s.curStrand.rg a
  ⟨[d, a, b, c], d, fFma f (rmOf s r) (unpack f (w x)) (unpack f (w (s.curStrand.rg b))) (unpack f (w (s.curStrand.rg c))), x⟩

/-- FSQRT. -/
def doesRoot (f : FFmt) (w : Word → Nat) (s : State) (d a : BitVec 6) (r : Rnd) : FpDoes :=
  let x := s.curStrand.rg a
  ⟨[d, a], d, fSqrt f (rmOf s r) (unpack f (w x)), x⟩

/-- A function of R137 in FP32. -/
def doesFn (g : Fn) (s : State) (d a : BitVec 6) : FpDoes :=
  let x := in32 (s.curStrand.rg a)
  ⟨[d, a], d, fnF32 g (unpack f32 x), BitVec.ofNat 64 x⟩

/-- A function of R137 in FP16 or BF16: the FP32 form, then the narrowing, the flags of both ORed. -/
def doesNarrow (f : FFmt) (g : Fn) (s : State) (d a : BitVec 6) (r : Rnd) : FpDoes :=
  let x := in16 (s.curStrand.rg a)
  let wide := fnF32 g (unpack f x)
  let out := roundNum f (rmOf s r) 0 (unpack f32 wide.bits)
  ⟨[d, a], d, ⟨out.bits, wide.fl ||| out.fl⟩, BitVec.ofNat 64 x⟩

/-- FMIN or FMAX of two registers. -/
def doesPick (f : FFmt) (w : Word → Nat) (op : FFmt → Nat → Nat → FRes) (s : State) (d a b : BitVec 6) : FpDoes :=
  ⟨[d, a, b], d, op f (w (s.curStrand.rg a)) (w (s.curStrand.rg b)), s.curStrand.rg a⟩

/-- FMIN or FMAX of a register and an immediate bit pattern. -/
def doesPickImm (op : FFmt → Nat → Nat → FRes) (s : State) (d a : BitVec 6) (i : BitVec 32) : FpDoes :=
  ⟨[d, a], d, op f32 (in32 (s.curStrand.rg a)) i.toNat, s.curStrand.rg a⟩

/-- The scalar floating-point instructions that write a rounded or chosen value (R136, R137, R139, R142); SR on an arithmetic
instruction is no encoding (R75). -/
def fpDoes (s : State) : Instr → Option FpDoes
  | .faddF32 d a b r => some (does2 f32 in32 fAdd s d a b r)
  | .fsubF32 d a b r => some (does2 f32 in32 fSub s d a b r)
  | .fmulF32 d a b r => some (does2 f32 in32 fMul s d a b r)
  | .fdivF32 d a b r => some (does2 f32 in32 fDiv s d a b r)
  | .faddF16 d a b r => some (does2 f16 in16 fAdd s d a b r)
  | .fsubF16 d a b r => some (does2 f16 in16 fSub s d a b r)
  | .fmulF16 d a b r => some (does2 f16 in16 fMul s d a b r)
  | .fdivF16 d a b r => some (does2 f16 in16 fDiv s d a b r)
  | .faddBf16 d a b r => some (does2 b16 in16 fAdd s d a b r)
  | .fsubBf16 d a b r => some (does2 b16 in16 fSub s d a b r)
  | .fmulBf16 d a b r => some (does2 b16 in16 fMul s d a b r)
  | .fdivBf16 d a b r => some (does2 b16 in16 fDiv s d a b r)
  | .faddF32I d a r i => some (doesImm fAdd s d a i r)
  | .fsubF32I d a r i => some (doesImm fSub s d a i r)
  | .fmulF32I d a r i => some (doesImm fMul s d a i r)
  | .ffmaF32 d a b c r => some (does3 f32 in32 s d a b c r)
  | .ffmaF16 d a b c r => some (does3 f16 in16 s d a b c r)
  | .ffmaBf16 d a b c r => some (does3 b16 in16 s d a b c r)
  | .fsqrtF32 d a r => some (doesRoot f32 in32 s d a r)
  | .fsqrtF16 d a r => some (doesRoot f16 in16 s d a r)
  | .fsqrtBf16 d a r => some (doesRoot b16 in16 s d a r)
  | .frsqrtF32 d a => some (doesFn .rsqrt s d a)
  | .fexp2F32 d a => some (doesFn .exp2 s d a)
  | .flog2F32 d a => some (doesFn .log2 s d a)
  | .fsinF32 d a => some (doesFn .sin s d a)
  | .fcosF32 d a => some (doesFn .cos s d a)
  | .frsqrtF16 d a r => some (doesNarrow f16 .rsqrt s d a r)
  | .fexp2F16 d a r => some (doesNarrow f16 .exp2 s d a r)
  | .flog2F16 d a r => some (doesNarrow f16 .log2 s d a r)
  | .fsinF16 d a r => some (doesNarrow f16 .sin s d a r)
  | .fcosF16 d a r => some (doesNarrow f16 .cos s d a r)
  | .frsqrtBf16 d a r => some (doesNarrow b16 .rsqrt s d a r)
  | .fexp2Bf16 d a r => some (doesNarrow b16 .exp2 s d a r)
  | .flog2Bf16 d a r => some (doesNarrow b16 .log2 s d a r)
  | .fsinBf16 d a r => some (doesNarrow b16 .sin s d a r)
  | .fcosBf16 d a r => some (doesNarrow b16 .cos s d a r)
  | .fminF32 d a b => some (doesPick f32 in32 fMin s d a b)
  | .fmaxF32 d a b => some (doesPick f32 in32 fMax s d a b)
  | .fminF16 d a b => some (doesPick f16 in16 fMin s d a b)
  | .fmaxF16 d a b => some (doesPick f16 in16 fMax s d a b)
  | .fminBf16 d a b => some (doesPick b16 in16 fMin s d a b)
  | .fmaxBf16 d a b => some (doesPick b16 in16 fMax s d a b)
  | .fminF32I d a i => some (doesPickImm fMin s d a i)
  | .fmaxF32I d a i => some (doesPickImm fMax s d a i)
  | .fabsF32 d a => some ⟨[d, a], d, fAbs f32 (in32 (s.curStrand.rg a)), s.curStrand.rg a⟩
  | .fnegF32 d a => some ⟨[d, a], d, fNeg f32 (in32 (s.curStrand.rg a)), s.curStrand.rg a⟩
  | _ => none

/-- The cause of the trap that FXT asks for, by the priority of R119. -/
def fxtTakes (fl : FlagSet) : Cause :=
  if fl.getLsbD 6 then .range
  else if fl.getLsbD 0 then .fpInvalid
  else if fl.getLsbD 1 then .fpDivZero
  else if fl.getLsbD 2 then .fpOverflow
  else .fpSaturate

/-- The state `t` of an instruction that has completed and raised flags, once FXT makes it trap after itself (R119, R120): KEPC is the
next index. -/
def trapsAfter (t : State) (fl : FlagSet) (tval : Word) : State :=
  let u := raised t fl
  takeTrap (u.setCur { u.curStrand with hold := .none }) (fxtTakes fl) tval (u.curStrand.pc + 1)

end Sys2Proof.Claims

/-- Every scalar floating-point instruction of R136, R137, R139 and R142 completes when FXT asks for no trap: it writes its result,
zero-extended, and sets the flags that it raises and with them SRCSCAL (R117, R118). -/
def Obligations.FloatResults : Prop :=
  ∀ (s : State) (i : Instr) (p : FpDoes), fpDoes s i = some p → Ready s p.regs → NoTrap s p.res.fl →
    exec i s = .next (fpWrote s p.d p.res)

/-- Under FXT an instruction that raises NV, DZ, OF, SAT or RANGE first completes and then traps (R119, R120): one cause by the
priority of R119, KEPC the next index, KTVAL the result bits or for RANGE the argument's bits. -/
def Sys2Proof.Claims.FloatTraps : Prop :=
  ∀ (s : State) (i : Instr) (p : FpDoes), fpDoes s i = some p → Ready s p.regs →
    s.curStrand.kstatus.getLsbD 3 = true → p.res.fl &&& 0x67 ≠ 0 →
    let r := BitVec.ofNat 64 p.res.bits
    let t := raised s p.res.fl
    exec i s = .next (takeTrap (t.setCur { t.curStrand.wg p.d r with hold := .none }) (fxtTakes p.res.fl)
      (if p.res.fl.getLsbD 6 then p.arg else r) (s.curStrand.pc + 1))

/-- FCMP writes a predicate and no g register (R140): the relation between ordered values, zeros equal, and NV for a signalling NaN, or
for any NaN under LT, LE, GT and GE. Under FXT an NV makes it trap FP_INVALID after itself (R119), with KTVAL the predicate written,
which is the model's reading (LOG 22 DEDUCED). FCLASS writes its mask and sets no flag (R141). -/
def Sys2Proof.Claims.FloatCompareAndClass : Prop :=
  ∀ (s : State) (p : BitVec 3) (d a b : BitVec 6) (c : FCond) (imm : BitVec 32),
    let x := s.curStrand.rg a
    let y := s.curStrand.rg b
    let rel (u v : FpNum) : Bool :=
      let nan := u.isNan || v.isNan
      match c with
      | .eq => !nan && cmpNum u v == .eq
      | .ne => nan || cmpNum u v != .eq
      | .lt => !nan && cmpNum u v == .lt
      | .le => !nan && cmpNum u v != .gt
      | .gt => !nan && cmpNum u v == .gt
      | .ge => !nan && cmpNum u v != .lt
      | .un => nan
      | .or => !nan
    let fl (u v : FpNum) : FlagSet :=
      if u.isSig || v.isSig || ((u.isNan || v.isNan) && (c == .lt || c == .le || c == .gt || c == .ge)) then 1 else 0
    let ends (u v : FpNum) (o : Host.Outcome State Fault Refusal) : Prop :=
      (NoTrap s (fl u v) → o = .next (wroteP (raised s (fl u v)) p (rel u v))) ∧
      (¬ NoTrap s (fl u v) → o = .next (trapsAfter (s.setCur (s.curStrand.wp p (rel u v))) 1 (if rel u v then 1 else 0)))
    (Ready s [a, b] →
      ends (unpack f32 (in32 x)) (unpack f32 (in32 y)) (exec (.fcmpF32 p a b c) s) ∧
      ends (unpack f16 (in16 x)) (unpack f16 (in16 y)) (exec (.fcmpF16 p a b c) s) ∧
      ends (unpack b16 (in16 x)) (unpack b16 (in16 y)) (exec (.fcmpBf16 p a b c) s)) ∧
    (Ready s [a] → ends (unpack f32 (in32 x)) (unpack f32 imm.toNat) (exec (.fcmpF32I p a c imm) s)) ∧
    (Ready s [d, a] →
      exec (.fclassF32 d a) s = .next (wrote s d (BitVec.ofNat 64 (fClass f32 (in32 x)))) ∧
      exec (.fclassF16 d a) s = .next (wrote s d (BitVec.ofNat 64 (fClass f16 (in16 x)))) ∧
      exec (.fclassBf16 d a) s = .next (wrote s d (BitVec.ofNat 64 (fClass b16 (in16 x)))))

/-- FCLASS gives a one-hot mask: the bit of the class of every FP32, FP16 and BF16 pattern (R141). -/
def Sys2Proof.Claims.ClassMask : Prop :=
  ∀ (f : FFmt) (b : Nat), f = f32 ∨ f = f16 ∨ f = b16 →
    let neg := b / 2 ^ (f.eb + f.mb) % 2 = 1
    let ex := b / 2 ^ f.mb % 2 ^ f.eb
    let fr := b % 2 ^ f.mb
    let top := 2 ^ f.eb - 1
    (ex = top → fr = 0 → fClass f b = if neg then 0x001 else 0x080) ∧
    (0 < ex → ex < top → fClass f b = if neg then 0x002 else 0x040) ∧
    (ex = 0 → fr ≠ 0 → fClass f b = if neg then 0x004 else 0x020) ∧
    (ex = 0 → fr = 0 → fClass f b = if neg then 0x008 else 0x010) ∧
    (ex = top → fr ≠ 0 → fr < 2 ^ (f.mb - 1) → fClass f b = 0x100) ∧
    (ex = top → 2 ^ (f.mb - 1) ≤ fr → fClass f b = 0x200)

/-- A NaN operand gives the canonical NaN, with NV when an operand is signalling, and the invalid operations of R136 give it with NV;
a finite non-zero value divided by a zero gives an infinity of the XOR of the signs and DZ (R59, R136). -/
def Sys2Proof.Claims.InvalidOperations : Prop :=
  ∀ (f : FFmt) (m : RMode) (x y : FpNum) (g n : Bool) (k : Nat) (e : Int),
    let nan (v : Bool) : FRes := ⟨(2 ^ f.eb - 1) * 2 ^ f.mb + 2 ^ (f.mb - 1), if v then 1 else 0⟩
    (x.isNan = true ∨ y.isNan = true →
      fAdd f m x y = nan (x.isSig || y.isSig) ∧ fSub f m x y = nan (x.isSig || y.isSig) ∧
      fMul f m x y = nan (x.isSig || y.isSig) ∧ fDiv f m x y = nan (x.isSig || y.isSig)) ∧
    fAdd f m (.inf g) (.inf !g) = nan true ∧ fSub f m (.inf g) (.inf g) = nan true ∧
    fMul f m (.fin n 0 e) (.inf g) = nan true ∧ fMul f m (.inf g) (.fin n 0 e) = nan true ∧
    fDiv f m (.fin n 0 e) (.fin g 0 e) = nan true ∧ fDiv f m (.inf n) (.inf g) = nan true ∧
    (k ≠ 0 → fSqrt f m (.fin true k e) = nan true) ∧ fSqrt f m (.inf true) = nan true ∧
    fFma f m (.fin n 0 e) (.inf g) x = nan true ∧
    (k ≠ 0 → fDiv f m (.fin n k e) (.fin g 0 e) =
      ⟨(if n ≠ g then 2 ^ (f.eb + f.mb) else 0) + (2 ^ f.eb - 1) * 2 ^ f.mb, 2⟩) ∧
    fSqrt f m (.fin true 0 e) = ⟨2 ^ (f.eb + f.mb), 0⟩

/-- Rounding a value that a format holds gives that value back under every mode, without a flag: every FP32, FP16 and BF16 pattern
that is no NaN (R58, R60: subnormal values are kept). -/
def Obligations.RoundingKeepsValues : Prop :=
  ∀ (f : FFmt) (m : RMode) (draw b : Nat), f = f32 ∨ f = f16 ∨ f = b16 → b < 2 ^ (f.eb + f.mb + 1) →
    (unpack f b).isNan = false → roundNum f m draw (unpack f b) = ⟨b, 0⟩

/-- FCVT with a rounding suffix, or under DYN with RM other than SR (R143, R144): the result is placed in the low bits, integers
sign-extended, and the flags are set; under FXT it then traps, with KTVAL the result written (R119). With SR, where it is offered, it takes one draw of the firing's substream, whose
counter rises by 1 (R41, R77); DYN with RM = SR and SRT = 0 takes ILLEGAL_MODIFIER on a narrowing pair (R75). -/
def Obligations.ConvertResults : Prop :=
  ∀ (s : State) (d a : BitVec 6) (src dst : CvtFmt) (sat : Bool) (r : Rnd), Ready s [d, a] →
    let x := (s.curStrand.rg a).toNat
    let rm := s.curStrand.kstatus.toNat / 16 % 8
    let ends (t : State) (m : RMode) (draw : Nat) : Prop :=
      let v := convert src dst sat m draw x
      (NoTrap s v.fl → exec (.fcvt d a src dst sat r) s = .next (wrote (raised t v.fl) d (cvtPlace dst v.bits))) ∧
      (¬ NoTrap s v.fl → exec (.fcvt d a src dst sat r) s =
        .next (trapsAfter (t.setCur (t.curStrand.wg d (cvtPlace dst v.bits))) v.fl (cvtPlace dst v.bits)))
    let taken := (s.draw s.cur.tile s.substream)
    (r ≠ .sr → (r = .dyn → rm ≠ 4 ∨ src.narrowing dst = false) → ends s (rmOf s r) 0) ∧
    (r = .sr → s.accepted.getLsbD 6 = true → ends taken.2 .sr taken.1) ∧
    (r = .dyn → rm = 4 → src.narrowing dst = true → s.curStrand.kstatus.getLsbD 7 = true → ends taken.2 .sr taken.1) ∧
    (r = .dyn → rm = 4 → src.narrowing dst = true → s.curStrand.kstatus.getLsbD 7 = false →
      exec (.fcvt d a src dst sat r) s = .next (takeTrap s .illegalModifier s.word s.curStrand.pc))

/-- What FCMP and FCLASS write, and what each class bit means. -/
def Obligations.FloatCompareRules : Prop := Claims.FloatCompareAndClass ∧ Claims.ClassMask

/-- What traps, and which operations are invalid. -/
def Obligations.FloatExceptions : Prop := Claims.FloatTraps ∧ Claims.InvalidOperations

/-- An instruction that retires goes on at the next index (R94): PC alone moves, what a wait left is cleared, and a strand that
single-steps halts (R342). Sequential flow past index 8,191 takes BRANCH_RANGE after the instruction has retired, with KEPC
8,191 and KTVAL 8,192. -/
def Sys2Proof.Claims.RetireRule : Prop :=
  ∀ s : State,
    (s.curStrand.pc ≠ 8191 → retire s = passed s) ∧
    (s.curStrand.pc = 8191 → retire s = takeTrap s .branchRange 8192 8191)

/-- Branches and jumps (R94, R130, R131): the target is PC plus the sign-extended offset, or the whole register of RET and JMPR; a
target outside 0 to 8,191 takes BRANCH_RANGE at the instruction, KTVAL the target, with no link written; a BRP that does not
transfer does nothing, whatever its target. -/
def Sys2Proof.Claims.Branches : Prop :=
  ∀ (s : State) (hint neg : Bool) (p : BitVec 3) (d a : BitVec 6) (off : BitVec 32),
    let x := s.curStrand
    let pc := x.pc.toNat
    let to_ : Int := (pc : Int) + off.toInt
    let out := takeTrap s .branchRange (BitVec.ofInt 64 to_) x.pc
    let go := s.setCur (wentTo x (BitVec.ofInt 13 to_))
    let reg := (x.rg a).toNat
    let link := x.wg d (BitVec.ofNat 64 (pc + 1))
    let inside : Prop := 0 ≤ to_ ∧ to_ ≤ 8191
    (inside → exec (.br hint off) s = .next go) ∧
    (¬ inside → exec (.br hint off) s = .next out) ∧
    (x.rp p ≠ neg → inside → exec (.brp p neg hint off) s = .next go) ∧
    (x.rp p ≠ neg → ¬ inside → exec (.brp p neg hint off) s = .next out) ∧
    (x.rp p = neg → x.pc ≠ 8191 → exec (.brp p neg hint off) s = .next (passed s)) ∧
    (Free s [d] → inside → exec (.call d hint off) s = .next (s.setCur (wentTo link (BitVec.ofInt 13 to_)))) ∧
    (Free s [d] → ¬ inside → exec (.call d hint off) s = .next out) ∧
    (Free s [a] → reg ≤ 8191 → exec (.ret a) s = .next (s.setCur (wentTo x (BitVec.ofNat 13 reg)))) ∧
    (Free s [a] → 8191 < reg → exec (.ret a) s = .next (takeTrap s .branchRange (x.rg a) x.pc)) ∧
    (Free s [d, a] → reg ≤ 8191 → exec (.jmpr d a) s = .next (s.setCur (wentTo link (BitVec.ofNat 13 reg)))) ∧
    (Free s [d, a] → 8191 < reg → exec (.jmpr d a) s = .next (takeTrap s .branchRange (x.rg a) x.pc)) ∧
    (x.pc ≠ 8191 → exec .yield s = .next (passed s))

/-- Going on at the next index and transferring to another (R94), with every branch and jump, and YIELD. -/
def Obligations.ControlFlow : Prop := Claims.RetireRule ∧ Claims.Branches

namespace Sys2Proof.Claims

/-- `k` g registers from one on. -/
def span (a : BitVec 6) (k : Nat) : List (BitVec 6) := (List.range k).map fun i => BitVec.ofNat 6 (a.toNat + i)

/-- The g register that a count of VRUN names. -/
def runNames : RunLen → List (BitVec 6)
  | .reg b => [b]
  | .imm _ => []

/-- The g registers that an instruction names, as a source, as a destination or inside a range (R161). SPB and FLA name a range besides,
which TokenStall treats apart. -/
def gNames : Instr → List (BitVec 6)
  | .mscale a .. | .mperm a | .cmpI _ a .. | .pchk _ a .. | .ret a | .fcmpF32I _ a .. | .ntok a | .vnrel a | .pvunpin a | .srseed a ..
  | .trap a | .kwr a .. | .tlbinv a | .dhalt a | .dresume a => [a]
  | .add d a b | .sub d a b | .mul d a b | .mulh d a b .. | .div d a b .. | .rem d a b .. | .and d a b | .or d a b | .xor d a b
  | .andn d a b | .shl d a b | .shr d a b | .sar d a b | .rot d a b | .min d a b .. | .max d a b .. | .sel d a b .. | .padd d a b
  | .psub d a b | .addW d a b | .subW d a b | .mulW d a b | .shlW d a b | .shrW d a b | .sarW d a b | .faddF32 d a b ..
  | .fsubF32 d a b .. | .fmulF32 d a b .. | .fdivF32 d a b .. | .fminF32 d a b | .fmaxF32 d a b | .faddF16 d a b .. | .fsubF16 d a b ..
  | .fmulF16 d a b .. | .fdivF16 d a b .. | .fminF16 d a b | .fmaxF16 d a b | .faddBf16 d a b .. | .fsubBf16 d a b ..
  | .fmulBf16 d a b .. | .fdivBf16 d a b .. | .fminBf16 d a b | .fmaxBf16 d a b | .ld d a b .. | .st d a b .. | .ldx d a b ..
  | .stx d a b .. | .lds d a b .. | .sts d a b .. | .amoadd d a b .. | .amomin d a b .. | .amomax d a b .. | .amoand d a b ..
  | .amoor d a b .. | .amoxor d a b .. | .amoswap d a b .. | .amofaddF32 d a b .. | .amoaddSpad d a b .. | .amominSpad d a b ..
  | .amomaxSpad d a b .. | .amoandSpad d a b .. | .amoorSpad d a b .. | .amoxorSpad d a b .. | .amoswapSpad d a b ..
  | .amofaddF32Spad d a b .. | .narm d a b | .unstash d a b | .shoot d a b => [d, a, b]
  | .addI d a .. | .subI d a .. | .mulI d a .. | .mulhI d a .. | .divI d a .. | .remI d a .. | .andI d a .. | .orI d a .. | .xorI d a ..
  | .andnI d a .. | .shlI d a .. | .shrI d a .. | .sarI d a .. | .rotI d a .. | .minI d a .. | .maxI d a .. | .selI d a ..
  | .paddI d a .. | .psubI d a .. | .clz d a | .popc d a | .mov d a | .movhi d a .. | .extb d a .. | .insb d a .. | .sext d a ..
  | .zext d a .. | .pfmt d a .. | .pmeta d a | .addWI d a .. | .mulWI d a .. | .jmpr d a | .faddF32I d a .. | .fsubF32I d a ..
  | .fmulF32I d a .. | .fsqrtF32 d a .. | .frsqrtF32 d a | .fexp2F32 d a | .flog2F32 d a | .fsinF32 d a | .fcosF32 d a | .fminF32I d a ..
  | .fmaxF32I d a .. | .fclassF32 d a | .fcvt d a .. | .fabsF32 d a | .fnegF32 d a | .fsqrtF16 d a .. | .frsqrtF16 d a ..
  | .fexp2F16 d a .. | .flog2F16 d a .. | .fsinF16 d a .. | .fcosF16 d a .. | .fclassF16 d a | .fsqrtBf16 d a .. | .frsqrtBf16 d a ..
  | .fexp2Bf16 d a .. | .flog2Bf16 d a .. | .fsinBf16 d a .. | .fcosBf16 d a .. | .fclassBf16 d a | .ctest d a | .cwait d a | .iload d a
  | .vnwait d (.expected a) _ | .bar d a .. | .pvget d a | .pvpin d a | .pvpubRes d a | .pvpubCom d a | .pvswitch d a | .pvtag d a
  | .freeze d a | .thaw d a | .featrd d a => [d, a]
  | .cmp _ a b .. | .fcmpF32 _ a b .. | .fcmpF16 _ a b .. | .fcmpBf16 _ a b .. | .pref a b .. | .clean a b .. | .inval a b ..
  | .spb _ a b .. | .fla _ a b .. | .cbset _ a b | .stash a b | .tlbinvr a b => [a, b]
  | .movi d .. | .call d .. | .waitany d .. | .qstat d .. | .istat d .. | .narmI d .. | .vnwait d .any _ | .barI d .. | .pvgetI d ..
  | .krd d .. | .featrdI d .. => [d]
  | .ffmaF32 d a b c .. | .ffmaF16 d a b c .. | .ffmaBf16 d a b c .. | .copy d a b c .. | .bwdderive d a b c => [d, a, b, c]
  | .cas d a b .. | .casSpad d a b .. => [d, a, b, d + 1]
  | .qpush _ a cnt | .qpushs _ a cnt | .chsend _ a cnt => span a (cnt.toNat + 1)
  | .qpop d _ cnt | .qpeek d _ cnt | .qtry d _ _ cnt | .chrecv d _ cnt => span d (cnt.toNat + 1)
  | .cbwaitF _ b | .cbwaitE _ b | .cbadvP _ b | .cbadvC _ b | .vcfg b | .vloop _ b => [b]
  | .cbget d _ c => [d, c]
  | .vrunHh _ _ len .. | .vrunHq _ _ len .. | .vrunQh _ _ len .. | .vrunQq _ _ len .. => runNames len
  | .nsend a _ nm1 | .nred a _ nm1 | .nbcast a _ nm1 => span a (nm1.toNat + 1)
  | .nrecv d _ nm1 => span d (nm1.toNat + 1)
  | _ => []

/-- The state after a try that waits: the wait is one try longer, and at the region's watchdog limit the watchdog's step is on the agenda
(R346). -/
def waitedOnce (s : State) : State :=
  let t := s.setCur { s.curStrand with waited := s.curStrand.waited + 1 }
  let l := s.curRegion.watchdog
  let e := Instr.watchdogExpire s.cur.tile s.cur.strand
  if l ≠ 0 ∧ l ≤ s.curStrand.waited + 1 ∧ e ∉ s.agenda then { t with agenda := t.agenda ++ [e] } else t

/-- A strand that has returned from a handler: PRIV is clear and PC holds KEPC's index; a wait that was interrupted there goes on with
what it had performed, and with KSTATUS.SSTEP the strand has halted (R166, R278, R342). -/
def cameBack (x : Strand) : Strand :=
  let k : BitVec 13 := x.kepc.truncate 13
  { x with
    pc := k
    kstatus := (x.kstatus &&& ~~~(1#64)) ||| (if x.kstatus.getLsbD 14 then 0x8000 else 0)
    hold := match x.parked with
      | some (n, h) => if n = k then h else .none
      | none => .none
    parked := none
    waited := 0 }

end Sys2Proof.Claims

/-- Every instruction that names a g register with a scoreboard token waits (R161): the step changes nothing but the count of the wait,
and with it the watchdog. SPB and FLA wait likewise for a token inside their range, unless their address is misaligned; the
token bits that they set never include that of g0, which reads as zero (R26, R159). What the watchdog's limit is compared with is the
number of tries that waited (LOG 19 DEDUCED). -/
def Sys2Proof.Claims.TokenStall : Prop :=
  ∀ (s : State),
    (∀ (i : Instr) (r : BitVec 6), r ∈ gNames i → s.curStrand.tokens.getLsbD r.toNat = true → exec i s = .next (waitedOnce s)) ∧
    (∀ (d a b r : BitVec 6) (scale : BitVec 3) (cnt : BitVec 4) (off : BitVec 21),
      Free s [a, b] → (s.ea a b scale off).toNat % 8 = 0 →
      (r ∈ span d (cnt.toNat + 1) → s.curStrand.tokens.getLsbD r.toNat = true →
        exec (.spb d a b scale cnt off) s = .next (waitedOnce s) ∧ exec (.fla d a b scale cnt off) s = .next (waitedOnce s)) ∧
      (Free s (span d (cnt.toNat + 1)) → s.curStrand.pc ≠ 8191 → s.curStrand.tokens.getLsbD 0 = false → ∃ t u,
        exec (.spb d a b scale cnt off) s = .next t ∧ exec (.fla d a b scale cnt off) s = .next u ∧
        t.curStrand.tokens.getLsbD 0 = false ∧ u.curStrand.tokens.getLsbD 0 = false))

/-- Taking an exception (R30): with PRIV = 0 KCAUSE, KTVAL and KEPC are written, PRIV is set and the strand goes on at the index in
KTVEC, halted first when it single-steps (R342); what a wait has left is cleared, and every g register, predicate and other field
stays. With PRIV = 1 the trap does
not nest: the strand's registers stay, its PC holds the instruction's index, and a region that runs freezes with NESTED_TRAP
and the cause. -/
def Sys2Proof.Claims.TrapEntry : Prop :=
  ∀ (s : State) (c : Cause) (v : Word) (epc : BitVec 13),
    let x := s.curStrand
    let t := takeTrap s c v epc
    let y := t.curStrand
    (x.kstatus.getLsbD 0 = false →
      y.kcause = BitVec.ofNat 64 c.code ∧ y.ktval = v ∧ y.kepc = epc.zeroExtend 64 ∧ y.pc = s.curTile.ktvec.truncate 13 ∧
      y.kstatus = (x.kstatus ||| 1) ||| (if x.kstatus.getLsbD 14 then 0x8000 else 0) ∧
      t = s.setCur { x with kcause := y.kcause, ktval := y.ktval, kepc := y.kepc, pc := y.pc, kstatus := y.kstatus, hold := .none, waited := 0 }) ∧
    (x.kstatus.getLsbD 0 = true → s.live s.curTile.handle = true → (s.region s.curTile.handle).phase = .running →
      y.kcause = x.kcause ∧ y.ktval = x.ktval ∧ y.kepc = x.kepc ∧ y.kstatus = x.kstatus ∧ y.g = x.g ∧ y.pc = epc ∧
      (t.region s.curTile.handle).phase = .freezing ∧ (t.region s.curTile.handle).cause = some .nestedTrap ∧
      (t.region s.curTile.handle).inner = some c ∧ .regionFreeze s.curTile.handle ∈ t.agenda)

/-- TRAP completes and traps after itself (R277): KEPC holds the next index and KTVAL the register, or the zero-extended immediate; at
index 8,191 the next index is 0 in the model (LOG 12 DEDUCED).
ERET in a handler clears PRIV and goes on at KEPC (R278); outside one it takes PRIVILEGE. What TRAP saves, ERET restores. An instruction
that was waiting at KEPC when a deferred fault was delivered there has had no further effect: a BAR that has arrived goes on waiting,
and does not arrive again (R166, R260). -/
def Sys2Proof.Claims.TrapAndReturn : Prop :=
  ∀ (s : State) (a : BitVec 6) (imm : BitVec 32),
    let x := s.curStrand
    let h := s.setCur { x with hold := .none }
    (Free s [a] → exec (.trap a) s = .next (takeTrap h .softwareTrap (x.rg a) (x.pc + 1))) ∧
    exec (.trapI imm) s = .next (takeTrap h .softwareTrap (imm.zeroExtend 64) (x.pc + 1)) ∧
    (x.kstatus.getLsbD 0 = false → exec .eret s = .next (takeTrap s .privilege s.word x.pc)) ∧
    (x.kstatus.getLsbD 0 = true → x.kspill.getLsbD 6 = false →
      exec .eret s = .next (s.setCur (cameBack x))) ∧
    (∀ gen, x.parked = some (x.kepc.truncate 13, .arrived gen) → (cameBack x).hold = .arrived gen) ∧
    (x.kstatus.getLsbD 0 = true → x.kspill.getLsbD 6 = true → ∃ t, exec .eret s = .next t ∧
      t.curStrand.kspill.getLsbD 6 = false ∧ t.curStrand.kstatus.getLsbD 0 = false ∧ t.curStrand.pc = x.kepc.truncate 13 ∧
      t.curStrand.hold = (cameBack x).hold ∧ t.curStrand.interrupted = none ∧ t.curStrand.spillq.length = x.spillq.length + (if x.interrupted.isSome then 1 else 0))

/-- A privileged instruction outside a trap handler takes PRIVILEGE at itself, KTVAL the instruction word (R97, check 4). -/
def Sys2Proof.Claims.PrivilegeChecks : Prop :=
  ∀ (s : State) (d a b c : BitVec 6) (creg : BitVec 10), Free s [d, a, b, c] → s.curStrand.kstatus.getLsbD 0 = false →
    let denied := takeTrap s .privilege s.word s.curStrand.pc
    exec .eret s = .next denied ∧ exec (.tlbinv a) s = .next denied ∧ exec (.tlbinvr a b) s = .next denied ∧
    exec (.shoot d a b) s = .next denied ∧ exec (.freeze d a) s = .next denied ∧ exec (.thaw d a) s = .next denied ∧
    exec (.dhalt a) s = .next denied ∧ exec (.dresume a) s = .next denied ∧ exec (.bwdderive d a b c) s = .next denied ∧
    (creg.toNat ∈ [0x001, 0x002, 0x003, 0x004, 0x008, 0x009, 0x00A, 0x00B, 0x012] →
      exec (.krd d creg) s = .next denied ∧ exec (.kwr a creg) s = .next denied)

/-- What is checked before an instruction acts: the scoreboard and the privilege. -/
def Obligations.ChecksBeforeIssue : Prop := Claims.TokenStall ∧ Claims.PrivilegeChecks

/-- Taking a trap, asking for one, and returning from one. -/
def Obligations.TrapsAndReturns : Prop := Claims.TrapEntry ∧ Claims.TrapAndReturn

namespace Sys2Proof.Claims

/-- The control registers of Table 1.11 with their values for the issuing strand (R29 to R47, R51). -/
def kregs (s : State) : List (Nat × Word) :=
  let x := s.curStrand
  let t := s.curTile
  let r := s.curRegion
  let feat (n : Nat) : Word := (s.offered.extractLsb' (32 * n) 32) ++ (s.accepted.extractLsb' (32 * n) 32)
  [ (0x000, x.kstatus), (0x001, x.kcause), (0x002, x.ktval), (0x003, x.kepc), (0x004, t.ktvec),
    (0x008, tabGet 0 x.kscratch 0), (0x009, tabGet 0 x.kscratch 1), (0x00A, tabGet 0 x.kscratch 2), (0x00B, tabGet 0 x.kscratch 3),
    (0x010, t.kflags), (0x011, r.info.seed), (0x012, x.kspill),
    (0x018, BitVec.ofNat 64 (r.sinkLost.toNat * 2 ^ 32 + r.sinkCount.toNat)),
    (0x020, feat 0), (0x021, feat 1), (0x022, feat 2), (0x023, feat 3), (0x024, feat 4), (0x025, feat 5), (0x026, feat 6),
    (0x027, feat 7),
    (0x030, BitVec.ofNat 64 (r.gen.toNat * 2 ^ 48 + r.info.prio * 2 ^ 38 + r.info.gangTag.toNat * 2 ^ 16 + r.info.ctx.toNat)),
    (0x031, s.ktopo),
    (0x032, BitVec.ofNat 64 (s.gridVersion.toNat * 2 ^ 48 + t.row * 2 ^ 40 + t.col * 2 ^ 32 + r.info.rows * 2 ^ 24
      + r.info.cols * 2 ^ 16 + s.gridRows * 256 + s.gridCols)),
    (0x040, s.lateAns) ]

/-- The registers that only a handler may read or write (R43, item 2). -/
def privRegs : List Nat := [0x001, 0x002, 0x003, 0x004, 0x008, 0x009, 0x00A, 0x00B, 0x012]

end Sys2Proof.Claims

/-- KRD writes g[d] with the register that CREG names (R279): every register of Table 1.11, the privileged ones with PRIV = 1. An
index that Table 1.11 does not list takes KREG_ACCESS with KTVAL the index, for KRD and for KWR (R43). -/
def Obligations.ControlRegisterReads : Prop :=
  ∀ (s : State) (d a : BitVec 6) (creg : BitVec 10),
    (∀ v : Word, Ready s [d] → (creg.toNat, v) ∈ kregs s → (creg.toNat ∈ privRegs → s.curStrand.kstatus.getLsbD 0 = true) →
      exec (.krd d creg) s = .next (wrote s d v)) ∧
    (Free s [d, a] → creg.toNat ∉ (kregs s).map (·.1) →
      let t := takeTrap s .kregAccess (creg.zeroExtend 64) s.curStrand.pc
      exec (.krd d creg) s = .next t ∧ exec (.kwr a creg) s = .next t)

/-- KWR writes the register that CREG names, reserved bits apart, and nothing else (R29, R30, R39, R40, R43, R279). -/
def Sys2Proof.Claims.ControlRegisterWrites : Prop :=
  ∀ (s : State) (a : BitVec 6), Ready s [a] →
    let v := s.curStrand.rg a
    let x := s.curStrand
    let t := s.curTile
    let h := t.handle
    (x.kstatus.getLsbD 0 = true →
      exec (.kwr a 0x001) s = .next (became s { x with kcause := v &&& 0x7F }) ∧
      exec (.kwr a 0x002) s = .next (became s { x with ktval := v }) ∧
      exec (.kwr a 0x003) s = .next (became s { x with kepc := v &&& 0x1FFF }) ∧
      exec (.kwr a 0x004) s = .next (passed (s.setCurTile { t with ktvec := v &&& 0x1FFF })) ∧
      exec (.kwr a 0x008) s = .next (became s { x with kscratch := tabSet 0 x.kscratch 0 v }) ∧
      exec (.kwr a 0x009) s = .next (became s { x with kscratch := tabSet 0 x.kscratch 1 v }) ∧
      exec (.kwr a 0x00A) s = .next (became s { x with kscratch := tabSet 0 x.kscratch 2 v }) ∧
      exec (.kwr a 0x00B) s = .next (became s { x with kscratch := tabSet 0 x.kscratch 3 v }) ∧
      exec (.kwr a 0x012) s = .next (became s { x with kspill := v &&& 0xFF })) ∧
    exec (.kwr a 0x010) s = .next (passed (s.setCurTile { t with kflags := v &&& 0x9F7F })) ∧
    exec (.kwr a 0x018) s = .next (passed (s.setRegion h { s.region h with sinkCount := 0, sinkLost := 0 })) ∧
    (∀ creg : BitVec 10, creg.toNat ∈ [0x011, 0x020, 0x021, 0x022, 0x023, 0x024, 0x025, 0x026, 0x027, 0x030, 0x031, 0x032, 0x040] →
      exec (.kwr a creg) s = .next (takeTrap s .kregAccess (creg.zeroExtend 64) x.pc))

/-- KWR of KSTATUS (R29, R43): a value that changes HALTED, FIRING, STRAND or PRIV takes KREG_ACCESS; outside a handler one that
changes SRT or SSTEP takes PRIVILEGE; otherwise RM, FXT, DZT, SRT and SSTEP take the written values, a reserved RM stays, and
RM = SR stays out while feature bit 6 is not accepted (R239). -/
def Sys2Proof.Claims.StatusWrites : Prop :=
  ∀ (s : State) (a : BitVec 6), Ready s [a] →
    let v := s.curStrand.rg a
    let x := s.curStrand
    let old := x.kstatus
    let fixed := [15, 13, 12, 11, 0]
    let rm := v.toNat / 16 % 8
    let takesRm : Bool := decide (rm < 4) || (decide (rm = 4) && s.accepted.getLsbD 6)
    ((∃ i ∈ fixed, v.getLsbD i ≠ old.getLsbD i) → exec (.kwr a 0x000) s = .next (takeTrap s .kregAccess 0 x.pc)) ∧
    ((∀ i ∈ fixed, v.getLsbD i = old.getLsbD i) → (v.getLsbD 7 ≠ old.getLsbD 7 ∨ v.getLsbD 14 ≠ old.getLsbD 14) →
      old.getLsbD 0 = false → exec (.kwr a 0x000) s = .next (takeTrap s .privilege s.word x.pc)) ∧
    ((∀ i ∈ fixed, v.getLsbD i = old.getLsbD i) →
      (old.getLsbD 0 = false → v.getLsbD 7 = old.getLsbD 7 ∧ v.getLsbD 14 = old.getLsbD 14) →
      ∃ w : Word, exec (.kwr a 0x000) s = .next (became s { x with kstatus := w }) ∧ ∀ i, i < 64 →
        w.getLsbD i = if i ∈ [14, 7, 3, 1] ∨ (i ∈ [4, 5, 6] ∧ takesRm = true) then v.getLsbD i else old.getLsbD i)

/-- FEATRD, BRK, DHALT and DRESUME (R283 to R285). With debug enabled BRK retires and halts its strand, its PC at the next index and
its code reported; otherwise it takes BREAKPOINT after itself (KEPC at index 8,191: LOG 12 DEDUCED). DHALT and DRESUME set and clear
HALTED of a strand of the tile; a strand that waits at STASH has performed nothing, and DHALT makes it issue anew (R338, R342). -/
def Sys2Proof.Claims.FeatureAndDebugInstructions : Prop :=
  ∀ (s : State) (d a : BitVec 6) (imm : BitVec 32) (code : BitVec 16),
    let x := s.curStrand
    let bit1 (n : Nat) : Word := if s.accepted.getLsbD n then 1 else 0
    let k : Fin 4 := ⟨(x.rg a).toNat % 4, Nat.mod_lt _ (by decide)⟩
    let other := s.curTile.strand k
    (Ready s [d, a] → exec (.featrd d a) s = .next (wrote s d (bit1 ((x.rg a).toNat % 256)))) ∧
    (Ready s [d] → exec (.featrdI d imm) s = .next (wrote s d (bit1 (imm.toNat % 256)))) ∧
    (∀ c, s.context s.curRegion.info.ctx = some c → c.debug = true → x.pc ≠ 8191 →
      exec (.brk code) s =
        .next { became s { x with kstatus := x.kstatus ||| 0x8000 } with debugBreak := some (s.cur, code) }) ∧
    ((∀ c, s.context s.curRegion.info.ctx = some c → c.debug = false) →
      exec (.brk code) s = .next (takeTrap (s.setCur { x with hold := .none }) .breakpoint (code.zeroExtend 64) (x.pc + 1))) ∧
    (Ready s [a] → x.kstatus.getLsbD 0 = true →
      exec (.dhalt a) s = .next (passed (s.setCurTile (s.curTile.setStrand k { other with
        kstatus := other.kstatus ||| 0x8000, hold := if other.hold = .stashing then .none else other.hold }))) ∧
      exec (.dresume a) s =
        .next (passed (s.setCurTile (s.curTile.setStrand k { other with kstatus := other.kstatus &&& ~~~(0x8000#64) }))))

/-- TLBINV and TLBINVR (R280): in a handler they retire, and no entry of the region's context whose page meets the range is left in
the tile's D-TLB and I-TLB and its cluster's L2-TLB; every other entry stays; memory, L1 and the strands' registers stay. A
length of 0 removes nothing. -/
def Sys2Proof.Claims.TranslationRemoval : Prop :=
  ∀ (s : State) (a b : BitVec 6), Ready s [a, b] → s.curStrand.kstatus.getLsbD 0 = true →
    let lo := (s.curStrand.rg a).toNat % 2 ^ 56
    let ctx := s.curRegion.info.ctx
    let c := clusterOf s.cur.tile
    let out (len : Nat) (e : TlbEntry) : Prop := e.ctx = ctx ∧ e.vpage * 2 ^ e.z < lo + len ∧ lo < (e.vpage + 1) * 2 ^ e.z
    let removed (len : Nat) (t : State) : Prop :=
      (∀ e, e ∈ t.curTile.dtlb ↔ e ∈ s.curTile.dtlb ∧ ¬ out len e) ∧
      (∀ e, e ∈ t.curTile.itlb ↔ e ∈ s.curTile.itlb ∧ ¬ out len e) ∧
      (∀ e, e ∈ (t.cluster c).l2tlb ↔ e ∈ (s.cluster c).l2tlb ∧ ¬ out len e) ∧
      t.curTile.l1 = s.curTile.l1 ∧ t.mem = s.mem ∧ t.curStrand = goneOn s.curStrand ∧
      (∀ n, n ≠ s.cur.tile → t.tile n = s.tile n) ∧ (∀ n, n ≠ c → t.cluster n = s.cluster n)
    (∃ t, exec (.tlbinv a) s = .next t ∧ removed 1 t) ∧
    (s.curStrand.rg b ≠ 0 → ∃ t, exec (.tlbinvr a b) s = .next t ∧ removed (s.curStrand.rg b).toNat t) ∧
    (s.curStrand.rg b = 0 → exec (.tlbinvr a b) s = .next (passed s))

/-- SHOOT (R281, R333): its first try releases at domain scope, performs the removal on this module and asks every reachable other one
of its domain that holds the context: no TLB of the module keeps a page of the context that meets the range
and every other entry stays; the L1 of every tile that a region of the context binds is empty, and what it and the issuing tile held
dirty is at home. The unreachable ones that hold it are recorded, each in the pending set of the context's home module, which is this one
where it holds the root of the context's table (R312, R334); a set of another module is not this module's to keep (LOG 59 DEDUCED). While a
module has not acknowledged, it waits; when all have, it retires with the number of modules recorded as unreachable. -/
def Sys2Proof.Claims.ShootCompletes : Prop :=
  ∀ (s : State) (d a b : BitVec 6) (id : Nat) (x : Shoot), Free s [d, a, b] → s.curStrand.kstatus.getLsbD 0 = true →
    (s.curStrand.hold = .shoot id → s.shootOf id = some x → x.asked = [] → x.removing = [] →
      exec (.shoot d a b) s =
        .next (retire ((s.setShoot id none).setCur (s.curStrand.wg d (BitVec.ofNat 64 x.recorded))))) ∧
    (s.curStrand.hold = .shoot id → s.shootOf id = some x → x.asked ≠ [] ∨ x.removing ≠ [] → exec (.shoot d a b) s = .next s) ∧
    (s.curStrand.hold = .none → ∃ t, exec (.shoot d a b) s = .next t ∧ t.curStrand.hold = .shoot s.nextShoot ∧
      t.curStrand.pc = s.curStrand.pc ∧
      (let ctx := s.curRegion.info.ctx
       let lo := (s.curStrand.rg a).toNat % 2 ^ 56
       let len := (s.curStrand.rg b).toNat
       let out (e : TlbEntry) : Prop := 0 < len ∧ e.ctx = ctx ∧ e.vpage * 2 ^ e.z < lo + len ∧ lo < (e.vpage + 1) * 2 ^ e.z
       let binds (n : Nat) : Prop := (s.tile n).bound.isSome = true ∧ (s.region (s.tile n).handle).info.ctx = ctx
       (∀ n e, (e ∈ (t.tile n).dtlb ↔ e ∈ (s.tile n).dtlb ∧ ¬ out e) ∧ (e ∈ (t.tile n).itlb ↔ e ∈ (s.tile n).itlb ∧ ¬ out e) ∧
         (e ∈ (t.cluster n).l2tlb ↔ e ∈ (s.cluster n).l2tlb ∧ ¬ out e)) ∧
       (∀ n, binds n → (t.tile n).l1 = []) ∧
       (∀ n c, DirtyAt s n c → n = s.cur.tile ∨ binds n → (∀ m, m ≠ n → ¬ DirtyAt s m c) → readByte t.mem c = seenAt s n c)) ∧
      ∃ y, t.shootOf s.nextShoot = some y ∧ y.asked = (s.holders s.curRegion.info.ctx).filter (fun m => !s.unreachable.contains m) ∧
        y.recorded = ((s.holders s.curRegion.info.ctx).filter fun m => s.unreachable.contains m).length ∧ y.removing = [] ∧
        (∀ m ∈ y.asked, .shootAcknowledge s.nextShoot m ∈ t.agenda) ∧
        (s.isHome s.curRegion.info.ctx = false → t.pendingShoot = s.pendingShoot) ∧
        (s.isHome s.curRegion.info.ctx = true → (s.holders s.curRegion.info.ctx).Nodup → ∀ m ∈ s.holders s.curRegion.info.ctx, s.unreachable.contains m = true →
          tabGet [] s.pendingShoot m = [] → y.range ∈ tabGet [] t.pendingShoot m)) ∧
    (∀ m, s.shootOf id = some x → ∃ y, exec (.shootAcknowledge id m) s = .next (s.setShoot id (some y)) ∧
      y.range = x.range ∧ y.recorded = x.recorded ∧ y.removing = x.removing ∧ ∀ n, n ∈ y.asked ↔ n ∈ x.asked ∧ n ≠ m)

/-- FREEZE and THAW (R282) in a handler: status 1 where the context has no region here; 2 or 3 where its regions are frozen already,
or none is; a FREEZE of the own region retires with status 0 and KEPC at the next index (8,191 stays: LOG 12 DEDUCED), and the
region freezes. Of another region, the instruction starts the freeze, whose step is then on the agenda, or queues the thaw with the
distributor (the save of a chained launch that awaits its tiles is checked at once, R340); it waits, and retires with status 0 when the save or the
restore is complete. -/
def Sys2Proof.Claims.FreezeAndThaw : Prop :=
  ∀ (s : State) (d a : BitVec 6) (h : BitVec 32) (n : Nat) (r : Region), Free s [d, a] → s.curStrand.kstatus.getLsbD 0 = true →
    let x := s.curStrand
    let rs := s.regionsOf ((x.rg a).truncate 16)
    let status (n : Nat) : State := retire (s.setCur (x.wg d (BitVec.ofNat 64 n)))
    (x.hold = .none → rs = [] → exec (.freeze d a) s = .next (status 1) ∧ exec (.thaw d a) s = .next (status 1)) ∧
    (x.hold = .none → rs ≠ [] → (∀ q ∈ rs, q.phase = .frozen) → exec (.freeze d a) s = .next (status 2)) ∧
    (x.hold = .none → rs ≠ [] → (∀ q ∈ rs, q.phase ≠ .frozen) → exec (.thaw d a) s = .next (status 3)) ∧
    (x.hold = .none → rs = [r] → r.phase ≠ .frozen → r.info.handle = s.curTile.handle →
      exec (.freeze d a) s = .next (retire ((s.setCur { x.wg d 0 with
        kepc := if x.pc = 8191 then 8191 else (x.pc + 1).zeroExtend 64 }).freezeRegion s.curTile.handle none none []))) ∧
    (x.hold = .none → rs = [r] → s.region r.info.handle = r → r.phase ≠ .frozen → r.info.handle ≠ s.curTile.handle → ∃ t,
      exec (.freeze d a) s = .next t ∧ t.curStrand.hold = .freezing r.info.handle r.saves ∧ t.curStrand.pc = x.pc ∧
      (r.phase ≠ .freezing → (t.region r.info.handle).phase = .freezing ∧ .regionFreeze r.info.handle ∈ t.agenda)) ∧
    (x.hold = .none → rs = [r] → s.region r.info.handle = r → r.phase = .frozen → ∃ t,
      exec (.thaw d a) s = .next t ∧ t.curStrand.hold = .thawing r.info.handle r.thaws ∧ t.curStrand.pc = x.pc ∧
      (t.region r.info.handle).phase = .thawing ∧
      (if r.awaiting then Instr.thawRestore r.info.handle [] else .placementReserve) ∈ t.agenda) ∧
    (x.hold = .freezing h n → s.live h = true → (s.region h).saves ≠ n → exec (.freeze d a) s = .next (status 0)) ∧
    (x.hold = .freezing h n → s.live h = true → (s.region h).saves = n → exec (.freeze d a) s = .next s) ∧
    (x.hold = .freezing h n → s.live h = false → exec (.freeze d a) s = .next (status 1)) ∧
    (x.hold = .thawing h n → s.live h = true → (s.region h).thaws ≠ n → exec (.thaw d a) s = .next (status 0)) ∧
    (x.hold = .thawing h n → s.live h = true → (s.region h).thaws = n → exec (.thaw d a) s = .next s) ∧
    (x.hold = .thawing h n → s.live h = false → exec (.thaw d a) s = .next (status 1))

/-- Writing a control register, and what a write to KSTATUS changes. -/
def Obligations.ControlAndStatusWrites : Prop := Claims.ControlRegisterWrites ∧ Claims.StatusWrites

/-- Removing translations on this module and waiting for the others. -/
def Obligations.TranslationShootdown : Prop := Claims.TranslationRemoval ∧ Claims.ShootCompletes

/-- What is read of features, what BRK, DHALT and DRESUME halt, and how a region freezes and thaws. -/
def Obligations.MachineControlInstructions : Prop := Claims.FeatureAndDebugInstructions ∧ Claims.FreezeAndThaw

namespace Sys2Proof.Claims

/-- The effective address of shape M (R92), in integer arithmetic. -/
def eaOf (s : State) (a b : BitVec 6) (scale : BitVec 3) (off : BitVec 21) : BitVec 56 :=
  BitVec.ofInt 56 ((s.curStrand.rg a).toNat + (s.curStrand.rg b).toNat * 2 ^ scale.toNat + off.toInt)

/-- The translation of an access of the issuing strand gives a physical address, and leaves a state (TLBs, A and D bits). -/
def Translates (s : State) (va : BitVec 56) (write : Bool) (s1 : State) (pa : Nat) : Prop :=
  s.strandTrans s.cur.tile s.cur.strand 1 va write = (s1, .ok pa)

/-- A value of `n` bytes, zero- or sign-extended to a register (R92). -/
def extended (sx : Bool) (n v : Nat) : Word :=
  if sx then BitVec.ofInt 64 ((v : Int).bmod (2 ^ (8 * n))) else BitVec.ofNat 64 v

/-- An offset lies in a bank that is scratchpad (Table 5.1). -/
def InSpad (t : Tile) (o : Nat) : Prop := o < 0xC0000 ∧ t.banks.getLsbD (o / 0x10000) = true

end Sys2Proof.Claims

/-- LD and ST (R92, R145, R147, R151) at an aligned address that translates: LD writes the bytes read, zero- or sign-extended, to g[d],
with the acquire of its order after them; ST performs the release of its order and then writes the low bytes of g[d]. An address
that is no multiple of the size takes MISALIGNED with KTVAL the address. -/
def Sys2Proof.Claims.LoadStoreEffects : Prop :=
  ∀ (s : State) (d a b : BitVec 6) (scale : BitVec 3) (sx : Bool) (size : BitVec 2) (o : Ord) (sc : Scope) (off : BitVec 21),
    Free s [d, a, b] →
    let n := 2 ^ size.toNat
    let va := eaOf s a b scale off
    (va.toNat % n ≠ 0 →
      let t := takeTrap s .misaligned (va.zeroExtend 64) s.curStrand.pc
      exec (.ld d a b scale sx size o sc off) s = .next t ∧ exec (.st d a b scale size o sc off) s = .next t) ∧
    (va.toNat % n = 0 →
      (∀ s1 pa s2 bs, Translates s va false s1 pa →
        readPas (atHome o sc) (va.zeroExtend 64) s1 (upFrom pa n) = .ok (s2, bs) →
        exec (.ld d a b scale sx size o sc off) s =
          .next (retire ((s2.setCur (s2.curStrand.wg d (extended sx n (leNat bs)))).acquireFor o sc))) ∧
      (∀ s1 pa, Translates s va true s1 pa →
        exec (.st d a b scale size o sc off) s =
          .next (retire (writePas (atHome o sc) (s1.releaseFor o sc) (upFrom pa n) (natLe n (s.curStrand.rg d).toNat)))))

namespace Sys2Proof.Claims

/-- An address of the issuing strand that neither its tile's D-TLB nor its cluster's L2-TLB translates, and whose walk meets an invalid
entry. -/
def Misses (s : State) (va : BitVec 56) : Prop :=
  let ctx := s.curRegion.info.ctx
  s.walk ctx va = .invalid ∧
  ∀ e ∈ s.curTile.dtlb ++ (s.cluster (clusterOf s.cur.tile)).l2tlb, ¬ (e.ctx = ctx ∧ e.gen = s.genOf ctx ∧ e.vpage = va.toNat / 2 ^ e.z)

/-- The marks of a strand but those of a page. -/
def otherMarks (x : Strand) (page : Nat) : List Mark := x.marks.filter fun m => m.page != page

end Sys2Proof.Claims

/-- The page fault of LD and ST at an aligned address (R323, R324, R329). A miss of a page that no mark of the strand names makes a request
of KIND 1 in the cluster's fault buffer and takes PAGE_FAULT with KTVAL the address, and the strand holds the request's mark; it joins an
outstanding request of the page, and waits with a request that finds the buffer full. With a mark, the access waits for the answer, takes
PAGE_DENIED, or walks again, the mark cleared; memory stays throughout. -/
def Sys2Proof.Claims.PageFaults : Prop :=
  ∀ (s : State) (d a b : BitVec 6) (scale : BitVec 3) (sx : Bool) (size : BitVec 2) (o : Ord) (sc : Scope) (off : BitVec 21),
    Free s [d, a, b] →
    let va := eaOf s a b scale off
    let page := va.toNat / 16384
    let x := s.curStrand
    let t := s.curTile
    let cn := clusterOf s.cur.tile
    let c := s.cluster cn
    let ctx := s.curRegion.info.ctx
    let fault (u : State) (c : Cause) : State := takeTrap u c (va.zeroExtend 64) x.pc
    let held (tag : Nat) (owing : Bool) : List Mark := x.marks ++ [⟨cn, tag, page, .waiting, owing⟩]
    va.toNat % 2 ^ size.toNat = 0 →
    ∀ e ∈ [(Instr.ld d a b scale sx size o sc off, false), (Instr.st d a b scale size o sc off, true)],
      let r : FaultRec :=
        ⟨ctx, s.genOf ctx, 1, e.2, c.nextTag, va, pcolOf s.cur.tile, prowOf s.cur.tile, t.row, t.col, s.cur.strand.val, 0, true⟩
      (Misses s va → (∀ m ∈ x.marks, m.page ≠ page) →
        (c.outstanding ctx page = none → c.records.length < 64 → ∃ u, exec e.1 s = .next (fault u .pageFault) ∧
          u.curStrand = { x with marks := held c.nextTag false } ∧ (u.cluster cn).records = c.records ++ [r] ∧
          (u.cluster cn).nextTag = (c.nextTag + 1) % 2 ^ 20 ∧ .faultBufferFlush cn ∈ u.agenda ∧ u.mem = s.mem) ∧
        (∀ q, c.outstanding ctx page = some q → ∃ u, exec e.1 s = .next (fault u .pageFault) ∧
          u.curStrand = { x with marks := held q.tag false } ∧ u.cluster cn = c ∧ u.mem = s.mem) ∧
        (c.outstanding ctx page = none → 64 ≤ c.records.length → ∃ u, exec e.1 s = .next u ∧
          u.curStrand = { x with marks := held c.nextTag true, hold := .page page, waited := x.waited + 1 } ∧
          (u.cluster cn).records = c.records ∧ (u.cluster cn).waiting = c.waiting ++ [r] ∧ u.mem = s.mem)) ∧
      (∀ m, x.marks.find? (fun m => m.page == page) = some m →
        (m.owing = true → (∃ q ∈ (s.cluster m.cluster).waiting, q.tag = m.tag) →
          exec e.1 s = .next (waitedOnce (s.setCur { x with hold := .page page }))) ∧
        (m.owing = true → (∀ q ∈ (s.cluster m.cluster).waiting, q.tag ≠ m.tag) →
          exec e.1 s = .next (fault (s.setCur { x with marks := otherMarks x page ++ [{ m with owing := false }] }) .pageFault)) ∧
        (m.owing = false → m.answer = .waiting → exec e.1 s = .next (waitedOnce (s.setCur { x with hold := .page page }))) ∧
        (m.owing = false → m.answer = .denied → exec e.1 s = .next (fault (s.setCur { x with marks := otherMarks x page }) .pageDenied)) ∧
        (m.owing = false → m.answer = .mapped → exec e.1 s = exec e.1 (s.setCur { x with marks := otherMarks x page })))

/-- What LD and ST read and write at an address that translates, and what they do where it does not. -/
def Obligations.LoadsAndStores : Prop := Claims.LoadStoreEffects ∧ Claims.PageFaults

namespace Sys2Proof.Claims

/-- A byte of the page-table entry that maps an address for the issuing strand: the translation may set its A and D bits in home memory
(R318). -/
def InPte (s : State) (va : BitVec 56) (c : Nat) : Prop :=
  ∃ ea e z, s.walk s.curRegion.info.ctx va = .leaf ea e z ∧ ea ≤ c ∧ c < ea + 8

/-- What a load or a store leaves of the machine but memory, its own register and PC: every other register, predicate, special register and
token of its strand, the tile's flags and scratchpad, every other tile, the regions and the host's memory. -/
def KeepsRest (s t : State) : Prop :=
  let x := s.curStrand
  let y := t.curStrand
  y.p = x.p ∧ y.kstatus = (goneOn x).kstatus ∧ y.kcause = x.kcause ∧ y.ktval = x.ktval ∧ y.kepc = x.kepc ∧ y.kscratch = x.kscratch ∧
  y.kspill = x.kspill ∧ y.tokens = x.tokens ∧ y.pc = x.pc + 1 ∧ t.curTile.kflags = s.curTile.kflags ∧ t.curTile.ktvec = s.curTile.ktvec ∧
  t.curTile.spad = s.curTile.spad ∧ t.curTile.slots = s.curTile.slots ∧ (∀ n, n ≠ s.cur.tile → t.tile n = s.tile n) ∧
  t.regions = s.regions ∧ t.hostMem = s.hostMem

end Sys2Proof.Claims

/-- What a load leaves (R151, R289, R290, R318) at an aligned address that translates, where no byte read holds an uncorrectable error: g[d]
alone of the registers changes; every byte of home memory stays but those that the tile's L1 held dirty, which may have been written
back, and those of the page-table entry. -/
def Sys2Proof.Claims.LoadFrame : Prop :=
  ∀ (s s1 s2 : State) (d a b : BitVec 6) (scale : BitVec 3) (sx : Bool) (size : BitVec 2) (o : Ord) (sc : Scope) (off : BitVec 21)
    (pa : Nat) (bs : List Byte), Ready s [d, a, b] →
    let va := eaOf s a b scale off
    va.toNat % 2 ^ size.toNat = 0 → Translates s va false s1 pa →
    readPas (atHome o sc) (va.zeroExtend 64) s1 (upFrom pa (2 ^ size.toNat)) = .ok (s2, bs) →
    ∃ t, exec (.ld d a b scale sx size o sc off) s = .next t ∧ KeepsRest s t ∧
      (∀ r, r ≠ d → t.curStrand.rg r = s.curStrand.rg r) ∧
      ∀ c, ¬ DirtyAt s s.cur.tile c → ¬ InPte s va c → readByte t.mem c = readByte s.mem c

/-- What a store leaves (R145, R151, R289, R290, R318) at an aligned address that translates: no g register changes; the bytes stored read
back through the tile, and at home for an order of cluster scope or wider; every other byte of home memory stays but those that the
tile's L1 held dirty, which may have been written back, and those of the page-table entry. -/
def Sys2Proof.Claims.StoreFrame : Prop :=
  ∀ (s s1 : State) (d a b : BitVec 6) (scale : BitVec 3) (size : BitVec 2) (o : Ord) (sc : Scope) (off : BitVec 21) (pa : Nat),
    Ready s [d, a, b] →
    let va := eaOf s a b scale off
    let n := 2 ^ size.toNat
    let v (k : Nat) : Byte := (s.curStrand.rg d).extractLsb' (8 * k) 8
    va.toNat % n = 0 → Translates s va true s1 pa →
    ∃ t, exec (.st d a b scale size o sc off) s = .next t ∧ KeepsRest s t ∧ t.curStrand.g = s.curStrand.g ∧
      (∀ k, k < n → seenAt t s.cur.tile (pa + k) = v k) ∧
      (atHome o sc = true → ∀ k, k < n → readByte t.mem (pa + k) = v k) ∧
      ∀ c, ¬ DirtyAt s s.cur.tile c → ¬ InPte s va c → (c < pa ∨ pa + n ≤ c) → readByte t.mem c = readByte s.mem c

/-- A strand's access obeys its TLB (R315, R316): an entry of the D-TLB that translates the address, permits the access and needs no
D bit set gives PA, and nothing changes but the order of the D-TLB; one that lacks the permission takes PAGE_PROTECT. An access to another
module that a negative acknowledgement has answered takes TOPO_STALE and is answered with it once (R145, R429; LOG 110 DESIGN CHOICE). -/
def Sys2Proof.Claims.TlbHit : Prop :=
  ∀ (s : State) (t : Nat) (k : Fin 4) (kind : Nat) (va : BitVec 56) (write : Bool) (e : TlbEntry),
    let x := s.tile t
    let ctx := (s.regionOf t).info.ctx
    let priv := (x.strand k).kstatus.getLsbD 0
    let pa := e.pa.toNat + va.toNat % 2 ^ e.z
    let moved := s.setTile t { x with dtlb := e :: x.dtlb.erase e }
    (x.strand k).marks = [] → x.dtlb.find? (fun e => e.ctx == ctx && e.gen == s.genOf ctx && e.vpage == va.toNat / 2 ^ e.z) = some e →
    ((e.po = true → priv = true) → (write = true → e.w = true) → (write = true → e.d = true) → s.reach pa = .ok →
      ((x.strand k).nacked = true → pa / 2 ^ 48 % 256 = s.moduleNumber.toNat) →
      s.strandTrans t k kind va write = (moved, .ok pa)) ∧
    ((e.po = true → priv = true) → (write = true → e.w = true) → (write = true → e.d = true) → s.reach pa = .ok →
      (x.strand k).nacked = true → pa / 2 ^ 48 % 256 ≠ s.moduleNumber.toNat →
      s.strandTrans t k kind va write = (s.setTile t (x.setStrand k { x.strand k with nacked := false }), .fault .topoStale)) ∧
    ((e.po = true ∧ priv = false) ∨ (write = true ∧ e.w = false) →
      s.strandTrans t k kind va write = (moved, .fault .pageProtect))

/-- LDS and STS (R146, R147, R156) in scratchpad banks: the bytes at the offset are read, or written, and no other byte changes. A FULL
landing slot reads as its payload; a slot that is not FULL takes SLOT_STATE, a store to a slot and any other offset SPAD_RANGE. -/
def Obligations.ScratchpadAccess : Prop :=
  ∀ (s : State) (d a b : BitVec 6) (scale : BitVec 3) (sx : Bool) (size : BitVec 2) (o : Ord) (sc : Scope) (off : BitVec 21),
    Ready s [d, a, b] →
    let n := 2 ^ size.toNat
    let va := eaOf s a b scale off
    let p := va.toNat
    let x := s.curTile
    let k := (p - 0xC0000) / 0x1000
    let out (c : Cause) : Host.Outcome State Fault Refusal := .next (takeTrap s c (va.zeroExtend 64) s.curStrand.pc)
    let lds := exec (.lds d a b scale sx size o sc off) s
    let sts := exec (.sts d a b scale size o sc off) s
    (p % n ≠ 0 → lds = out .misaligned ∧ sts = out .misaligned) ∧
    (p % n = 0 → InSpad x p →
      lds = .next (wrote s d (extended sx n (readNat x.spad p n))) ∧
      sts = .next (passed (s.setCurTile { x with spad := writeNat x.spad p n (s.curStrand.rg d).toNat }))) ∧
    (p % n = 0 → 0xC0000 ≤ p → p < 0xC4000 →
      sts = out .spadRange ∧
      ((x.slot k).state = .full → lds = .next (wrote s d (extended sx n (readNat (x.slot k).payload (p % 0x1000) n)))) ∧
      ((x.slot k).state ≠ .full → lds = out .slotState)) ∧
    (p % n = 0 → ¬ InSpad x p → (p < 0xC0000 ∨ 0xC4000 ≤ p) → lds = out .spadRange ∧ sts = out .spadRange)

/-- A number written to a memory reads back modulo its width, every byte outside stays, and the canonical form stays (R54). -/
def Sys2Proof.Claims.MemoryWrites : Prop :=
  ∀ (m : Memory) (a n v c : Nat),
    readNat (writeNat m a n v) a n = v % 256 ^ n ∧
    ((c < a ∨ a + n ≤ c) → readByte (writeNat m a n v) c = readByte m c) ∧
    (m.wf = true → (writeNat m a n v).wf = true) ∧
    (m.wf = true → writeNat m a n (readNat m a n) = m)

/-- LDX and STX (R152 to R155) where their checks pass and their addresses translate: the element at the index is read, converted to the
register format and written to g[d]; or g[d] is converted and put in its place, the rest of a packed group kept. The flags of the
conversion are raised; under FXT they may then trap (R119), with KTVAL the register value written or the element's bits stored. After
index 8,191 KEPC is 0 (LOG 12 DEDUCED), and a conversion to or from FMT 9 that rounds SR draws under E = 255 too (LOG 50 DEDUCED). -/
def Sys2Proof.Claims.ElementAccess : Prop :=
  ∀ (s : State) (d a b : BitVec 6) (scale : BitVec 3) (rf : CvtFmt) (o : Ord) (sc : Scope) (off : BitVec 21), Free s [d, a, b] →
    let ptr := s.curStrand.rg a
    let f := ptr.toNat / 2 ^ 59
    let e : Int := (s.curStrand.rg b <<< scale.toNat).toInt + off.toInt
    let p := elemAt ptr e
    let n := fmtBytes f
    let home := atHome o sc
    (∀ m s1 spa s2 pas s3 e8 s4 bs,
      ldxStart s ptr rf false p = .ok m → strandPas false s p.scaleAt.toList = .ok (s1, spa) →
      strandPas false s1 (vaRange p.addr n) = .ok (s2, pas) → readScale home s2 p spa = .ok (s3, e8) →
      readPas home (p.addr.zeroExtend 64) s3 pas = .ok (s4, bs) →
      let w := s4.drawFor m
      let r := fromMem f rf m w.1 e8 (elemCode f p.fieldNo (leNat bs))
      let v := if f = 0 then BitVec.ofNat 64 r.bits else cvtPlace rf r.bits
      let t := (w.2.setCur (w.2.curStrand.wg d v)).acquireFor o sc
      (NoTrap t r.fl → exec (.ldx d a b scale rf o sc off) s = .next (retire (raised t r.fl))) ∧
      (¬ NoTrap t r.fl → exec (.ldx d a b scale rf o sc off) s = .next (trapsAfter t r.fl v))) ∧
    (∀ m s1 spa s2 pas s3 e8 s4 old,
      ldxStart s ptr rf true p = .ok m → strandPas false s p.scaleAt.toList = .ok (s1, spa) →
      strandPas true s1 (vaRange p.addr n) = .ok (s2, pas) → readScale false s2 p spa = .ok (s3, e8) →
      (if f = 7 ∨ f = 8 ∨ f = 9 then readPas home (p.addr.zeroExtend 64) s3 pas else .ok (s3, [])) = .ok (s4, old) →
      let w := (s4.releaseFor o sc).drawFor m
      let r := toMem f rf m w.1 e8 (s.curStrand.rg d).toNat
      let t := writePas home w.2 pas (natLe n (elemPut f p.fieldNo (leNat old) r.bits))
      (NoTrap t r.fl → exec (.stx d a b scale rf o sc off) s = .next (retire (raised t r.fl))) ∧
      (¬ NoTrap t r.fl → exec (.stx d a b scale rf o sc off) s = .next (trapsAfter t r.fl (BitVec.ofNat 64 r.bits))))

/-- Where element e of a fat pointer lies (R153): e units from the address for a format that stands alone, two INT4 elements to a byte,
four LOG6 elements to three bytes, and in a SCALED block behind its scale byte, which stands at the block's start; a reserved
format takes FORMAT_RESERVED in LDX and STX with KTVAL the pointer. -/
def Sys2Proof.Claims.ElementPlaces : Prop :=
  ∀ (ptr : Word) (e : Int),
    let va : Int := (ptr.toNat % 2 ^ 56 : Nat)
    let f := ptr.toNat / 2 ^ 59
    let l : Int := 32 * 2 ^ (ptr.toNat / 2 ^ 56 % 8)
    let p := elemAt ptr e
    let at_ (x : Int) : BitVec 56 := BitVec.ofInt 56 x
    (f ∈ [0, 1] → p.addr = at_ (va + e) ∧ p.scaleAt = none) ∧
    (f ∈ [2, 4, 5] → p.addr = at_ (va + 2 * e) ∧ p.scaleAt = none) ∧
    (f ∈ [3, 6] → p.addr = at_ (va + 4 * e) ∧ p.scaleAt = none) ∧
    (f = 8 → p.addr = at_ (va + e / 2) ∧ (p.fieldNo : Int) = e % 2 ∧ p.scaleAt = none) ∧
    (f = 7 → p.addr = at_ (va + e / 4 * 3) ∧ (p.fieldNo : Int) = e % 4 ∧ p.scaleAt = none) ∧
    (f = 9 → p.addr = at_ (va + e / l * (4 + 24 * (l / 32)) + 4 + e % l / 4 * 3) ∧ (p.fieldNo : Int) = e % 4 ∧
      p.scaleAt = some (at_ (va + e / l * (4 + 24 * (l / 32))))) ∧
    (9 < f → ∀ (s : State) (d a b : BitVec 6) (scale : BitVec 3) (rf : CvtFmt) (o : Ord) (sc : Scope) (off : BitVec 21),
      Free s [d, a, b] → s.curStrand.rg a = ptr →
      let t := takeTrap s .formatReserved ptr s.curStrand.pc
      exec (.ldx d a b scale rf o sc off) s = .next t ∧ exec (.stx d a b scale rf o sc off) s = .next t)

/-- PREF, CLEAN, INVAL and FENCE (R157, R158, R290). The line operations act on the line of an address with a translation and do nothing
without one; that they find it without installing it or setting its A bit is the model's reading (LOG 24 DEDUCED). After CLEAN the line has no dirty byte, after INVAL it is not held, and no byte that the line held dirty is lost;
FENCE releases and acquires at its scope, and at cluster scope or wider leaves nothing dirty, and with an acquire no line. -/
def Obligations.LineOperations : Prop :=
  ∀ (s : State) (a b : BitVec 6) (scale : BitVec 3) (off : BitVec 21) (o : Ord) (sc : Scope) (pa c : Nat),
    let va := eaOf s a b scale off
    let t := s.cur.tile
    let line := pa / 32
    (Free s [a, b] → s.peekPa t va = some pa →
      exec (.pref a b scale off) s = .next (retire (s.fillLine t line)) ∧
      exec (.clean a b scale off) s = .next (retire (s.cleanLine t line)) ∧
      exec (.inval a b scale off) s = .next (retire (s.invalLine t line))) ∧
    (Free s [a, b] → s.peekPa t va = none →
      exec (.pref a b scale off) s = .next (retire s) ∧ exec (.clean a b scale off) s = .next (retire s) ∧
      exec (.inval a b scale off) s = .next (retire s)) ∧
    (c / 32 = line → ¬ DirtyAt (s.cleanLine t line) t c ∧ seenAt (s.cleanLine t line) t c = seenAt s t c ∧
      l1Find ((s.invalLine t line).tile t).l1 line = none) ∧
    (DirtyAt s t c → c / 32 = line → readByte (s.cleanLine t line).mem c = seenAt s t c ∧ readByte (s.invalLine t line).mem c = seenAt s t c) ∧
    exec (.fence o sc) s = .next (retire ((s.releaseFor o sc).acquireFor o sc)) ∧
    (sc = .str ∨ sc = .til → exec (.fence o sc) s = .next (retire s)) ∧
    (sc ≠ .str → sc ≠ .til → o ≠ .plain →
      let u := (s.releaseFor o sc).acquireFor o sc
      (DirtyAt s t c → readByte u.mem c = seenAt s t c) ∧ ¬ DirtyAt u t c ∧ (o = .acq ∨ o = .ar → (u.tile t).l1 = []))

/-- What a load and a store leave as they were. -/
def Obligations.MemoryFrames : Prop := Claims.LoadFrame ∧ Claims.StoreFrame

/-- Element accesses and the places of an element's bits. -/
def Obligations.ElementLoadsAndStores : Prop := Claims.ElementAccess ∧ Claims.ElementPlaces

/-- A translation that stands in a table, and a read after a write. -/
def Obligations.TranslationAndMemory : Prop := Claims.TlbHit ∧ Claims.MemoryWrites

namespace Sys2Proof.Claims

/-- The new value of a word of `w` bits under an integer atomic (Table 5.5): the old value, the operand g[d] and the value of g[d + 1],
as numbers; minimum and maximum are signed. -/
def amoResult (i : Instr) (w m v n : Nat) : Option Nat :=
  let top := 2 ^ (w - 1)
  let x := v % 2 ^ w
  let less := decide ((m + top) % 2 ^ w ≤ (x + top) % 2 ^ w)
  match i with
  | .amoadd .. | .amoaddSpad .. => some ((m + x) % 2 ^ w)
  | .amomin .. | .amominSpad .. => some (if less then m else x)
  | .amomax .. | .amomaxSpad .. => some (if less then x else m)
  | .amoand .. | .amoandSpad .. => some (m &&& x)
  | .amoor .. | .amoorSpad .. => some (m ||| x)
  | .amoxor .. | .amoxorSpad .. => some (m ^^^ x)
  | .amoswap .. | .amoswapSpad .. => some x
  | .cas .. | .casSpad .. => some (if m = x then n % 2 ^ w else m)
  | _ => none

end Sys2Proof.Claims

/-- The integer atomics on global memory (R167, R168) at an aligned address that translates for writing: the release comes first, the
tile's own line is written back and invalidated, the word is read and written at its home in one step, g[d] takes the old
value, and the acquire comes last. A misaligned address traps. -/
def Sys2Proof.Claims.GlobalAtomics : Prop :=
  ∀ (s : State) (d a b : BitVec 6) (scale : BitVec 3) (size : BitVec 2) (o : Ord) (sc : Scope) (off : BitVec 21) (i : Instr),
    i ∈ ([ .amoadd d a b scale size o sc off, .amomin d a b scale size o sc off, .amomax d a b scale size o sc off,
      .amoand d a b scale size o sc off, .amoor d a b scale size o sc off, .amoxor d a b scale size o sc off,
      .amoswap d a b scale size o sc off, .cas d a b scale size o sc off ] : List Instr) → Free s (gNames i) →
    let n := 2 ^ size.toNat
    let va := eaOf s a b scale off
    (va.toNat % n ≠ 0 → exec i s = .next (takeTrap s .misaligned (va.zeroExtend 64) s.curStrand.pc)) ∧
    (∀ s1 pa s3 old r, va.toNat % n = 0 → Translates s va true s1 pa →
      readPas true (va.zeroExtend 64) ((s1.releaseFor o sc).invalLine s.cur.tile (pa / 32)) (upFrom pa n) = .ok (s3, old) →
      amoResult i (8 * n) (leNat old) (s3.curStrand.rg d).toNat (s3.curStrand.rg (d + 1)).toNat = some r →
      let s4 := writePas true s3 (upFrom pa n) (natLe n r)
      exec i s = .next (retire ((s4.setCur (s4.curStrand.wg d (BitVec.ofNat 64 (leNat old)))).acquireFor o sc)))

/-- The .SPAD atomics (R169) at an aligned offset in scratchpad banks: the word is replaced, g[d] takes the old value, and no other
byte, register or memory changes. -/
def Sys2Proof.Claims.ScratchpadAtomics : Prop :=
  ∀ (s : State) (d a b : BitVec 6) (scale : BitVec 3) (size : BitVec 2) (o : Ord) (sc : Scope) (off : BitVec 21) (i : Instr) (r : Nat),
    i ∈ ([ .amoaddSpad d a b scale size o sc off, .amominSpad d a b scale size o sc off, .amomaxSpad d a b scale size o sc off,
      .amoandSpad d a b scale size o sc off, .amoorSpad d a b scale size o sc off, .amoxorSpad d a b scale size o sc off,
      .amoswapSpad d a b scale size o sc off, .casSpad d a b scale size o sc off ] : List Instr) →
    Ready s (gNames i) →
    let n := 2 ^ size.toNat
    let va := eaOf s a b scale off
    let p := va.toNat
    let old := readNat s.curTile.spad p n
    amoResult i (8 * n) old (s.curStrand.rg d).toNat (s.curStrand.rg (d + 1)).toNat = some r →
    (p % n = 0 → InSpad s.curTile p →
      exec i s = .next (wrote (s.setCurTile { s.curTile with spad := writeNat s.curTile.spad p n r }) d (BitVec.ofNat 64 old))) ∧
    (p % n ≠ 0 → exec i s = .next (takeTrap s .misaligned (va.zeroExtend 64) s.curStrand.pc)) ∧
    (p % n = 0 → ¬ InSpad s.curTile p → exec i s = .next (takeTrap s .spadRange (va.zeroExtend 64) s.curStrand.pc))

/-- AMOFADD.F32 and AMOFADD.F32.SPAD (R170): the FP32 sum of the word and g[d], rounded RNE, replaces the word, g[d] takes the old
word, and the flags of the sum are raised as a scalar instruction's; under FXT they may then trap (R119), with KTVAL the bits of the
sum (after index 8,191 KEPC is 0: LOG 12 DEDUCED). A misaligned address takes MISALIGNED, and an offset outside the scratchpad banks
SPAD_RANGE (R146, R147). -/
def Sys2Proof.Claims.FloatAtomics : Prop :=
  ∀ (s : State) (d a b : BitVec 6) (scale : BitVec 3) (o : Ord) (sc : Scope) (off : BitVec 21),
    let va := eaOf s a b scale off
    let p := va.toNat
    let sum (m : Nat) (v : Word) : FRes := fAdd f32 .rne (unpack f32 m) (unpack f32 (in32 v))
    (Free s [d, a, b] → p % 4 ≠ 0 →
      let t := takeTrap s .misaligned (va.zeroExtend 64) s.curStrand.pc
      exec (.amofaddF32 d a b scale o sc off) s = .next t ∧ exec (.amofaddF32Spad d a b scale o sc off) s = .next t) ∧
    (Free s [d, a, b] → p % 4 = 0 → ¬ InSpad s.curTile p →
      exec (.amofaddF32Spad d a b scale o sc off) s = .next (takeTrap s .spadRange (va.zeroExtend 64) s.curStrand.pc)) ∧
    (∀ s1 pa s3 old, Free s [d, a, b] → p % 4 = 0 → Translates s va true s1 pa →
      readPas true (va.zeroExtend 64) ((s1.releaseFor o sc).invalLine s.cur.tile (pa / 32)) (upFrom pa 4) = .ok (s3, old) →
      let r := sum (leNat old) (s3.curStrand.rg d)
      let s4 := writePas true s3 (upFrom pa 4) (natLe 4 r.bits)
      let t := (s4.setCur (s4.curStrand.wg d (BitVec.ofNat 64 (leNat old)))).acquireFor o sc
      (NoTrap t r.fl → exec (.amofaddF32 d a b scale o sc off) s = .next (retire (raised t r.fl))) ∧
      (¬ NoTrap t r.fl → exec (.amofaddF32 d a b scale o sc off) s = .next (trapsAfter t r.fl (BitVec.ofNat 64 r.bits)))) ∧
    (Ready s [d, a, b] → p % 4 = 0 → InSpad s.curTile p →
      let old := readNat s.curTile.spad p 4
      let r := sum old (s.curStrand.rg d)
      let t := s.setCurTile { s.curTile with spad := writeNat s.curTile.spad p 4 r.bits }
      (NoTrap s r.fl → exec (.amofaddF32Spad d a b scale o sc off) s = .next (wrote (raised t r.fl) d (BitVec.ofNat 64 old))) ∧
      (¬ NoTrap s r.fl → exec (.amofaddF32Spad d a b scale o sc off) s =
        .next (trapsAfter (t.setCur (t.curStrand.wg d (BitVec.ofNat 64 old))) r.fl (BitVec.ofNat 64 r.bits))))

/-- Atomics on memory, on the scratchpad and on floats. -/
def Obligations.Atomics : Prop := Claims.GlobalAtomics ∧ Claims.ScratchpadAtomics ∧ Claims.FloatAtomics

/-- SPB, FLA and SPW (R159, R161, R163). At a multiple of 8, with no token in the range, a transfer joins the strand's spill engine and
the tokens of the range are taken, g0 excepted; a token in the range makes it wait; another address takes MISALIGNED. SPW retires
when the engine has no transfer queued or in progress, and waits otherwise. -/
def Sys2Proof.Claims.SpillIssue : Prop :=
  ∀ (s : State) (d a b : BitVec 6) (scale : BitVec 3) (cnt : BitVec 4) (off : BitVec 21) (fill : Bool),
    let i : Instr := if fill then .fla d a b scale cnt off else .spb d a b scale cnt off
    let va := eaOf s a b scale off
    let x := s.curStrand
    let inRange (r : Nat) : Prop := d.toNat ≤ r ∧ r ≤ d.toNat + cnt.toNat
    (Ready s [a, b] → d.toNat + cnt.toNat < 64 → va.toNat % 8 = 0 → (∀ r, inRange r → x.tokens.getLsbD r = false) →
      ∃ t, exec i s = .next t ∧ t.curStrand.spillq = x.spillq ++ [⟨fill, d, cnt.toNat + 1, va, 0⟩] ∧
        (∀ r, r < 64 → (t.curStrand.tokens.getLsbD r = true ↔ x.tokens.getLsbD r = true ∨ (inRange r ∧ r ≠ 0))) ∧
        t.curStrand.pc = x.pc + 1 ∧ t.curStrand.g = x.g ∧ t.mem = s.mem ∧
        (x.spillq = [] → x.interrupted = none → .spillTransfer s.cur.tile s.cur.strand ∈ t.agenda)) ∧
    (Free s [a, b] → va.toNat % 8 ≠ 0 → exec i s = .next (takeTrap s .misaligned (va.zeroExtend 64) x.pc)) ∧
    (Free s [a, b] → va.toNat % 8 = 0 → d.toNat + cnt.toNat < 64 → (∃ r, inRange r ∧ x.tokens.getLsbD r = true) →
      exec i s = .next (waitHere s)) ∧
    (x.pc ≠ 8191 → x.spillq = [] → x.interrupted = none → exec .spw s = .next (passed s)) ∧
    (x.spillq ≠ [] ∨ x.interrupted ≠ none → exec .spw s = .next (waitHere s))

/-- The spill engine moves one word at a time (R160, R165): for a spill the register goes to its address, for a fill the word comes
into the register, its token is released and the transfer goes on; a fault stops the engine with KSPILL naming the register, the
words before it moved and the registers from it on holding their tokens. -/
def Sys2Proof.Claims.SpillWords : Prop :=
  ∀ (s : State) (t : Nat) (k : Fin 4) (x : Transfer) (rest : List Transfer) (fuel : Nat),
    (s.strandOf t k).spillq = x :: rest → x.next < x.count →
    let r : BitVec 6 := BitVec.ofNat 6 (x.first.toNat + x.next)
    let va := x.ea + BitVec.ofNat 56 (8 * x.next)
    let tr := s.strandTrans t k 2 va (!x.fill)
    (∀ s1 pa, tr = (s1, .ok pa) → x.fill = false →
      spillWords t k (fuel + 1) s =
        spillWords t k fuel ((writeViaAll t s1 (upFrom pa 8) (natLe 8 ((s1.strandOf t k).rg r).toNat)).spillNext t k x)) ∧
    (∀ s1 pa s2 bs, tr = (s1, .ok pa) → x.fill = true → readViaAll t s1 (upFrom pa 8) = (s2, some bs) →
      spillWords t k (fuel + 1) s =
        spillWords t k fuel ((s2.setStrandOf t k ((s2.strandOf t k).wg r (BitVec.ofNat 64 (leNat bs)))).spillNext t k x)) ∧
    (let y := (s.spillNext t k x).strandOf t k
     y.tokens.getLsbD r.toNat = false ∧ y.spillq = { x with next := x.next + 1 } :: rest) ∧
    (∀ s1 c, tr = (s1, .fault c) → ∃ s2, spillWords t k (fuel + 1) s = s2 ∧
      let y := s2.strandOf t k
      y.kspill = BitVec.ofNat 64 ((if x.fill then 128 else 0) + 64 + r.toNat) ∧ y.interrupted = some x ∧
      y.tokens = (s1.strandOf t k).tokens ∧ y.deferred = (s1.strandOf t k).deferred ++ [⟨c, va.zeroExtend 64⟩]) ∧
    (s.active t = true → (s.strandOf t k).interrupted = none → exec (.spillTransfer t k) s = .next (spillWords t k 17 s))

/-- A recorded fault is delivered at the strand's next instruction, which has had no effect (R166): the first fault is taken as a trap
with KEPC that instruction's index; an instruction that is waiting counts (R205), and is kept so that it goes on waiting after the handler
(LOG 45 DEDUCED). A second recorded fault waits for the instruction after that, which is the handler's first one (LOG 45 DEDUCED). A
walker's step fills the TLBs for a page that is mapped, setting A, and D for a store; a page of a module out of reach leaves entry, TLBs
and memory as they were (R318, R319). -/
def Obligations.DeferredFaultsAndWalks : Prop :=
  ∀ (s : State) (t : Nat) (k : Fin 4) (va : BitVec 56) (write : Bool) (f : DeferredFault) (rest : List DeferredFault),
    (let y := s.curStrand
     let kept : Option (BitVec 13 × Hold) := match y.hold with
       | .none => none
       | .stashing => none
       | .page _ => none
       | h => some (y.pc, h)
     s.curStrand.deferred = f :: rest →
      exec .deferredFaultDelivery s = .next (takeTrap
        (s.setCur { y with deferred := rest, parked := if y.kstatus.getLsbD 0 then y.parked else kept }) f.cause f.ktval y.pc)) ∧
    (let ctx := (s.regionOf t).info.ctx
     let priv := (s.strandOf t k).kstatus.getLsbD 0
     ∀ ea e z, s.active t = true → s.walk ctx va = .leaf ea e z → (ptePO e = true → priv = true) → (write = true → pteW e = true) →
      let at_ := e.toNat / 2 ^ 14 % 2 ^ 42 * 16384 + va.toNat % 2 ^ z
      (s.reach at_ ≠ .ok → ∃ s1, exec (.pageWalk t k va write) s = .next s1 ∧ s1.mem = s.mem ∧ s1.tiles = s.tiles ∧
        s1.clusters = s.clusters) ∧
      (s.reach at_ = .ok → ∃ s1, exec (.pageWalk t k va write) s = .next s1 ∧
        (∀ c, c < ea ∨ ea + 8 ≤ c → readByte s1.mem c = readByte s.mem c) ∧
        (e.getLsbD 3 = true → (write = true → e.getLsbD 4 = true) → s1.mem = s.mem) ∧
        ((e.getLsbD 3 = false ∨ (write = true ∧ e.getLsbD 4 = false)) →
          (readWord s1.mem ea).getLsbD 3 = true ∧ (write = true → (readWord s1.mem ea).getLsbD 4 = true)) ∧
        ∃ x, (s1.tile t).dtlb.head? = some x ∧ x.ctx = ctx ∧ x.z = z ∧ x.vpage = va.toNat / 2 ^ z ∧ x.w = pteW e ∧ x.po = ptePO e ∧
          x.pa = BitVec.ofNat 56 (e.toNat / 2 ^ 14 % 2 ^ 42 * 16384)))

/-- QPUSH, QPUSHS and CHSEND with their immediate forms (R171 to R173, R175): QUEUE_UNBOUND, then QUEUE_DIRECTION, then CHANNEL_RATE on a
channel end without that much reserved space, or a wait on an engine port; otherwise every element is pushed in order, a send
releasing first at the channel's scope. -/
def Sys2Proof.Claims.QueuePushes : Prop :=
  ∀ (s : State) (q : BitVec 5) (a : BitVec 6) (cnt : BitVec 4) (imm : BitVec 32) (scale send : Bool), (scale && send) = false →
    Free s (gRange a (cnt.toNat + 1)) →
    let b := s.curTile.queue q.toNat
    let vs := s.curStrand.rgs a.toNat (cnt.toNat + 1)
    let fits (v : Word) : Word := if scale then v &&& 0xFF else v
    let sc := match b with
      | .producer ch => s.channelScope s.curTile.handle ch
      | _ => .til
    let s0 := if send then s.releaseAt s.cur.tile sc else s
    let reg : Instr := if scale then .qpushs q a cnt else if send then .chsend q a cnt else .qpush q a cnt
    let one : Instr := if scale then .qpushsI q imm else if send then .chsendI q imm else .qpushI q imm
    let tr (c : Cause) (v : Word) : Host.Outcome State Fault Refusal := .next (takeTrap s c v s.curStrand.pc)
    (b = .unbound → exec reg s = tr .queueUnbound (q.zeroExtend 64) ∧ exec one s = tr .queueUnbound (q.zeroExtend 64)) ∧
    (b.kind ∈ [2, 4, 5] → exec reg s = tr .queueDirection (q.zeroExtend 64) ∧ exec one s = tr .queueDirection (q.zeroExtend 64)) ∧
    (∀ ch, b = .producer ch →
      (s.avail b < cnt.toNat + 1 → exec reg s = tr .channelRate (BitVec.ofNat 64 ch)) ∧
      (s.avail b = 0 → exec one s = tr .channelRate (BitVec.ofNat 64 ch))) ∧
    (∀ p, b = .input p → (s.avail b < cnt.toNat + 1 → exec reg s = .next (waitHere s)) ∧ (s.avail b = 0 → exec one s = .next (waitHere s))) ∧
    (b.kind ∈ [1, 3] →
      (cnt.toNat + 1 ≤ s.avail b → exec reg s = .next (retire (queuePush b scale s0 (vs.map fits)))) ∧
      (1 ≤ s.avail b → exec one s =
        .next (retire (queuePush b scale s0 [if scale then (imm.zeroExtend 64) &&& 0xFF else imm.signExtend 64]))))

/-- What a push and a pop move (R18, R28, R172, R173, R390, R464). A push to a channel whose ends lie in one tile adds its tokens at the end
of the channel, exception bit 0; to any other it sends them as one packet from the producer's router on its way to the consumer's; both
count them in the firing. A pop takes the tokens at the head, oldest first, their payloads unchanged, and counts them; other channels
keep their tokens. -/
def Sys2Proof.Claims.QueueTokens : Prop :=
  ∀ (s : State) (ch c : Nat) (f : Firing) (scale : Bool) (vs : List Word) (n : Nat),
    s.curStrand.firing = some f →
    let h := s.curTile.handle
    let fifo (t : State) (c : Nat) : List Token := ((t.region h).channel c).fifo
    let t := queuePush (.producer ch) scale s vs
    let x := (s.region h).channel ch
    let parts (l : List Token) : List (Word × Bool × Bool) := l.map fun v => (v.payload, v.scale, v.exc)
    let new : List (Word × Bool × Bool) := vs.map fun v => (v, scale, false)
    (x.local = true → parts (fifo t ch) = parts (fifo s ch) ++ new ∧ t.flying = s.flying) ∧
    (x.local = false → fifo t ch = fifo s ch ∧ ∃ ws, parts ws = new ∧
      t.flying = s.flying ++ [⟨h, .tokens ch ws, (s.region h).endRouter x.prod, 0, s.channelPath (s.region h) x⟩]) ∧
    (c ≠ ch → fifo t c = fifo s c) ∧ t.mem = s.mem ∧ t.curStrand.g = s.curStrand.g ∧
    (∃ f', t.curStrand.firing = some f' ∧ tabGet 0 f'.pushed ch = tabGet 0 f.pushed ch + vs.length ∧ f'.popped = f.popped) ∧
    (n ≤ (fifo s ch).length →
      let u := queuePop (.consumer ch) n s
      u.1 = ((fifo s ch).take n).map (·.payload) ∧ fifo u.2 ch = (fifo s ch).drop n ∧ (c ≠ ch → fifo u.2 c = fifo s c) ∧
      ∃ f', u.2.curStrand.firing = some f' ∧ tabGet 0 f'.popped ch = tabGet 0 f.popped ch + n ∧ f'.pushed = f.pushed)

/-- QPOP, CHRECV, QPEEK and QTRY (R172, R173, R175): QUEUE_UNBOUND, then QUEUE_DIRECTION, then CHANNEL_RATE or a wait where the elements
are not there; otherwise the registers take the payloads in order, a pop removes the elements, a peek leaves them, a receive
acquires after the pop. QTRY never waits and writes its predicate. -/
def Sys2Proof.Claims.QueuePops : Prop :=
  ∀ (s : State) (q : BitVec 5) (d : BitVec 6) (p : BitVec 3) (cnt : BitVec 4), Free s (gRange d (cnt.toNat + 1)) →
    let b := s.curTile.queue q.toNat
    let n := cnt.toNat + 1
    let sc := match b with
      | .consumer ch => s.channelScope s.curTile.handle ch
      | _ => .til
    let tr (c : Cause) (v : Word) : Host.Outcome State Fault Refusal := .next (takeTrap s c v s.curStrand.pc)
    let u := queuePop b n s
    let filled := u.2.setCur (u.2.curStrand.wgs d.toNat u.1)
    (b.kind = 0 → ∀ i ∈ ([.qpop d q cnt, .chrecv d q cnt, .qpeek d q cnt, .qtry d q p cnt] : List Instr),
      exec i s = tr .queueUnbound (q.zeroExtend 64)) ∧
    (b.kind ∈ [1, 3] → ∀ i ∈ ([.qpop d q cnt, .chrecv d q cnt, .qpeek d q cnt, .qtry d q p cnt] : List Instr),
      exec i s = tr .queueDirection (q.zeroExtend 64)) ∧
    (∀ ch, b = .consumer ch → s.avail b < n → ∀ i ∈ ([.qpop d q cnt, .chrecv d q cnt, .qpeek d q cnt] : List Instr),
      exec i s = tr .channelRate (BitVec.ofNat 64 ch)) ∧
    (b.kind ∈ [4, 5] → s.avail b < n → ∀ i ∈ ([.qpop d q cnt, .chrecv d q cnt, .qpeek d q cnt] : List Instr),
      exec i s = .next (waitHere s)) ∧
    (b.kind ∈ [2, 4, 5] → n ≤ s.avail b →
      exec (.qpop d q cnt) s = .next (retire filled) ∧
      exec (.chrecv d q cnt) s = .next (retire (filled.acquireAt s.cur.tile sc)) ∧
      exec (.qpeek d q cnt) s = .next (retire (s.setCur (s.curStrand.wgs d.toNat ((queueHead b s n).map (·.payload))))) ∧
      exec (.qtry d q p cnt) s = .next (retire (filled.setCur (filled.curStrand.wp p true)))) ∧
    (b.kind ∈ [2, 4, 5] → s.avail b < n → exec (.qtry d q p cnt) s = .next (retire (s.setCur (s.curStrand.wp p false))))

/-- QSTAT never waits and never traps (R174): AVAIL saturates at 0xFFFF, the head element's bits stand in [7:5], the kind in [2:0].
WAITANY answers the lowest ready register of its mask; an unbound one traps, as does a mask of channel ends with nothing left; it
waits otherwise (R133). -/
def Sys2Proof.Claims.QueueStatus : Prop :=
  ∀ (s : State) (d : BitVec 6) (q : BitVec 5) (mask : BitVec 32) (n : Nat),
    let b := s.curTile.queue q.toNat
    let named (i : Nat) : Prop := i < 32 ∧ mask.getLsbD i = true
    let bind (i : Nat) : QBind := s.curTile.queue i
    (Ready s [d] → ∃ v : Word, exec (.qstat d q) s = .next (wrote s d v) ∧
      v.toNat / 2 ^ 16 = min (s.avail b) 0xFFFF ∧ v.toNat % 8 = b.kind ∧ v.toNat / 8 % 4 = 0 ∧ v.toNat / 2 ^ 8 % 2 ^ 8 = 0 ∧
      (∀ e, 0 < s.avail b → (queueHead b s 1).head? = some e →
        v.getLsbD 7 = e.exc ∧ v.getLsbD 6 = e.scale ∧ v.getLsbD 5 = true)) ∧
    (Free s [d] → named n → bind n = .unbound → (∀ i, i < n → named i → bind i ≠ .unbound) →
      exec (.waitany d mask) s = .next (takeTrap s .queueUnbound (BitVec.ofNat 64 n) s.curStrand.pc)) ∧
    (Free s [d] → (∀ i, named i → ((bind i).kind = 1 ∨ (bind i).kind = 2) ∧ s.avail (bind i) = 0) →
      exec (.waitany d mask) s = .next (takeTrap s .channelRate (mask.zeroExtend 64) s.curStrand.pc)) ∧
    (Ready s [d] → (∀ i, named i → bind i ≠ .unbound) → named n → 0 < s.avail (bind n) →
      (∀ i, i < n → named i → s.avail (bind i) = 0) → exec (.waitany d mask) s = .next (wrote s d (BitVec.ofNat 64 n))) ∧
    (Free s [d] → (∀ i, named i → bind i ≠ .unbound ∧ s.avail (bind i) = 0) → (∃ i, named i ∧ 3 ≤ (bind i).kind) →
      exec (.waitany d mask) s = .next (waitHere s))

/-- The ring instructions (R177, R178): n above COUNT takes RING_GEOMETRY; CBWAIT waits until enough slots are filled or free; CBADV moves
FILL or DRAIN, or traps and leaves the handle unchanged; filled and free slots then change by n. CBSET writes a whole handle
with a right geometry, and CBGET reads its 74 bits. -/
def Sys2Proof.Claims.RingInstructions : Prop :=
  ∀ (s : State) (a d : BitVec 4) (b c g1 g2 : BitVec 6) (imm : BitVec 13) (useReg : Bool),
    Ready s [b, g1, g2, c] →
    let n : Nat := if useReg then (s.curStrand.rg b).toNat else imm.toNat
    let x := s.curTile.ring a.toNat
    let sel (r i : Instr) : Host.Outcome State Fault Refusal := if useReg then exec r s else exec i s
    let waitF := sel (.cbwaitF a b) (.cbwaitFI a imm)
    let waitE := sel (.cbwaitE a b) (.cbwaitEI a imm)
    let advP := sel (.cbadvP a b) (.cbadvPI a imm)
    let advC := sel (.cbadvC a b) (.cbadvCI a imm)
    let kt : Word := BitVec.ofNat 64 (n * 16 + a.toNat)
    let tr (c : Cause) : Host.Outcome State Fault Refusal := .next (takeTrap s c kt s.curStrand.pc)
    let h := Handle.ofBits ((s.curStrand.rg g2).extractLsb' 0 10 ++ s.curStrand.rg g1)
    let bits := x.bits
    (x.count < n → waitF = tr .ringGeometry ∧ waitE = tr .ringGeometry ∧ advP = tr .ringGeometry ∧ advC = tr .ringGeometry) ∧
    (n ≤ x.filled → n ≤ x.count → waitF = .next (passed s)) ∧
    (x.filled < n → n ≤ x.count → waitF = .next (waitHere s)) ∧
    (n ≤ x.free → n ≤ x.count → waitE = .next (passed s)) ∧
    (x.free < n → n ≤ x.count → waitE = .next (waitHere s)) ∧
    (n ≤ x.free → n ≤ x.count → advP = .next (passed (s.setCurTile (s.curTile.setRing a.toNat (x.advFill n))))) ∧
    (x.free < n → n ≤ x.count → advP = tr .ringOverflow) ∧
    (n ≤ x.filled → n ≤ x.count → advC = .next (passed (s.setCurTile (s.curTile.setRing a.toNat (x.advDrain n))))) ∧
    (x.filled < n → n ≤ x.count → advC = tr .ringUnderflow) ∧
    (s.curTile.ringOk h = true → exec (.cbset d g1 g2) s = .next (passed (s.setCurTile (s.curTile.setRing d.toNat h)))) ∧
    (s.curTile.ringOk h = false → exec (.cbset d g1 g2) s = .next (takeTrap s .ringGeometry (d.zeroExtend 64) s.curStrand.pc)) ∧
    exec (.cbget g1 a c) s =
      .next (became s ((s.curStrand.wg g1 (bits.extractLsb' 0 64)).wg c (BitVec.ofNat 64 (bits.toNat / 2 ^ 64))))

/-- Ring arithmetic (R32, R177): with FILL and DRAIN on the circle of 2 × COUNT places, advancing FILL by n free slots fills n, advancing
DRAIN by n filled slots frees n, and filled and free slots always make COUNT. -/
def Sys2Proof.Claims.RingArithmetic : Prop :=
  ∀ (x : Handle) (n : Nat), x.fill.toNat % 4096 < x.count → x.drain.toNat % 4096 < x.count → x.filled ≤ x.count →
    x.filled + x.free = x.count ∧
    (n ≤ x.free → (x.advFill n).filled = x.filled + n ∧ (x.advFill n).drain = x.drain ∧ (x.advFill n).fill.toNat % 4096 < x.count) ∧
    (n ≤ x.filled → (x.advDrain n).filled = x.filled - n ∧ (x.advDrain n).fill = x.fill ∧ (x.advDrain n).drain.toNat % 4096 < x.count)

/-- Spilling and filling g registers, and the words that move. -/
def Obligations.SpillRules : Prop := Claims.SpillIssue ∧ Claims.SpillWords

/-- Pushing into a queue and the token that it makes. -/
def Obligations.QueueSendRules : Prop := Claims.QueuePushes ∧ Claims.QueueTokens

/-- Popping and peeking, and the status of a queue. -/
def Obligations.QueueReceiveRules : Prop := Claims.QueuePops ∧ Claims.QueueStatus

/-- The circular buffer instructions and the arithmetic of their indices. -/
def Obligations.RingRules : Prop := Claims.RingInstructions ∧ Claims.RingArithmetic

namespace Sys2Proof.Claims

/-- The Spindle with the issuing strand as its owner: as it is when the strand owns it already, and with current slot 0 when the
ownership begins (R34, R195). -/
def owned (s : State) : Spindle :=
  let x := s.curTile.spindle
  let k := s.cur.strand
  if x.owner = .strand k then x else { x with owner := .strand k, cslot := 0, places := x.places.erase k }

/-- The issuing strand has the Spindle or nobody has, no loop's body is being discarded, and an entry is free (R34, R195). -/
def SpindleReady (s : State) : Prop :=
  let x := s.curTile.spindle
  (x.owner = .strand s.cur.strand ∨ x.owner = .none) ∧ x.discard = 0 ∧ x.entries.length + x.unretired < 16

/-- The state after a Spindle instruction of the issuing strand: the Spindle is replaced, its step follows, and nothing else changes. -/
def SpindleBecomes (s : State) (x : Spindle) (o : Host.Outcome State Fault Refusal) : Prop :=
  ∃ t, o = .next t ∧ t.curTile = { s.curTile.setStrand s.cur.strand (goneOn s.curStrand) with spindle := x } ∧
    .spindleEntryExecute s.cur.tile ∈ t.agenda ∧ t.mem = s.mem ∧ t.regions = s.regions ∧ ∀ n, n ≠ s.cur.tile → t.tile n = s.tile n

/-- The element size of EW in bytes (Table 6.8). -/
def ewBytes (ew : BitVec 2) : Nat := match ew.toNat with
  | 0 => 8
  | 1 => 4
  | 2 => 2
  | _ => 1

end Sys2Proof.Claims

/-- VCFG, VRUN, VLOOP and VEND enter their entries (R34, R195, R199 to R201): with the Spindle owned or free and room in it, the entry
joins at the end and the instruction retires; VLOOP opens its loop and VEND closes the innermost. That the body of a VLOOP with n = 0 is
discarded as it arrives at issue is the model's reading (LOG 48 DEDUCED). -/
def Sys2Proof.Claims.SpindleIssue : Prop :=
  ∀ (s : State) (b : BitVec 6) (imm : BitVec 32) (l : BitVec 2) (d a : BitVec 4) (dq aq : BitVec 5) (len : RunLen) (keep : Bool)
    (ew : BitVec 2), Ready s [b] → SpindleReady s → (∀ r, len = .reg r → Free s [r]) →
    let x := owned s
    let n := match len with
      | .reg r => (s.curStrand.rg r).toNat % 2 ^ 32
      | .imm v => v.toNat
    let t := s.curTile
    let entered (e : SpEntry) : Spindle := { x with entries := x.entries ++ [e] }
    let run (src dst : Side) (w : Nat) : Spindle :=
      { entered (.run x.nextRun src dst n keep w s.curStrand.pc.toNat) with nextRun := x.nextRun + 1 }
    let takes (q : BitVec 5) : Prop := (t.queue q.toNat).kind = 2 ∨ (t.queue q.toNat).kind = 4 ∨ (t.queue q.toNat).kind = 5
    let gives (q : BitVec 5) : Prop := (t.queue q.toNat).kind = 1 ∨ (t.queue q.toNat).kind = 3
    let loop (k n : Nat) : Spindle :=
      { entered (.loop k n) with openLoops := k :: x.openLoops, discard := if n = 0 then 1 else 0 }
    ((s.curStrand.rg b).toNat ≤ 3 → t.badLane (s.curStrand.rg b).toNat (s.accepted.getLsbD 6) = none →
      SpindleBecomes s (entered (.cfg (s.curStrand.rg b).toNat)) (exec (.vcfg b) s)) ∧
    (imm.toNat ≤ 3 → t.badLane imm.toNat (s.accepted.getLsbD 6) = none →
      SpindleBecomes s (entered (.cfg imm.toNat)) (exec (.vcfgI imm) s)) ∧
    (n ≠ 0 → d ≠ a → SpindleBecomes s (run (.ring a.toNat) (.ring d.toNat) (ewBytes ew)) (exec (.vrunHh d a len keep ew) s)) ∧
    (n ≠ 0 → gives dq → SpindleBecomes s (run (.ring a.toNat) (.queue dq.toNat) (ewBytes ew)) (exec (.vrunHq dq a len keep ew) s)) ∧
    (n ≠ 0 → takes aq → SpindleBecomes s (run (.queue aq.toNat) (.ring d.toNat) (ewBytes ew)) (exec (.vrunQh d aq len keep ew) s)) ∧
    (n ≠ 0 → takes aq → gives dq → SpindleBecomes s (run (.queue aq.toNat) (.queue dq.toNat) 8) (exec (.vrunQq dq aq len keep) s)) ∧
    (l.toNat ∉ x.openLoops →
      SpindleBecomes s (loop l.toNat ((s.curStrand.rg b).toNat % 2 ^ 32)) (exec (.vloop l b) s) ∧
      SpindleBecomes s (loop l.toNat imm.toNat) (exec (.vloopI l imm) s)) ∧
    (∀ rest, x.openLoops = l.toNat :: rest →
      SpindleBecomes s { entered (.back l.toNat) with openLoops := rest } (exec (.vend l) s))

/-- What the Spindle instructions wait for and trap on (R34, R196, R199, R200): a Spindle of another owner makes the strand wait in its
place; VCFG of a slot above 3 and of an invalid slot takes LANE_CONFIG, VRUN on one ring twice LANE_RUN, and the loop rules of R196
SPINDLE_STATE, all at the instruction. VRUN with n = 0 does nothing, and that it retires whoever owns the Spindle is the model's reading
(LOG 48 DEDUCED). VSYNC waits until the Spindle is empty and then frees it. -/
def Sys2Proof.Claims.SpindleChecks : Prop :=
  ∀ (s : State) (imm : BitVec 32) (l : BitVec 2) (d a : BitVec 4) (keep : Bool) (ew : BitVec 2) (n : BitVec 16) (k : Fin 4) (bad : Nat),
    let x := s.curTile.spindle
    let me := s.cur.strand
    let tr (c : Cause) (v : Nat) : Host.Outcome State Fault Refusal := .next (takeTrap s c (BitVec.ofNat 64 v) s.curStrand.pc)
    let open_ := x.openLoops.headD 0
    (3 < imm.toNat → exec (.vcfgI imm) s = tr .laneConfig imm.toNat) ∧
    (imm.toNat ≤ 3 → s.curTile.badLane imm.toNat (s.accepted.getLsbD 6) = some bad →
      exec (.vcfgI imm) s = tr .laneConfig (65536 + bad * 256 + imm.toNat)) ∧
    exec (.vrunHh d d (.imm n) keep ew) s = tr .laneRun (2 * 2 ^ 48 + s.curStrand.pc.toNat) ∧
    (Ready s [] → d ≠ a → exec (.vrunHh d a (.imm 0) keep ew) s = .next (passed s)) ∧
    (x.owner = .strand k → k ≠ me → me ∈ x.places →
      exec (.vend l) s = .next (waitHere (s.setCurTile { s.curTile with spindle := x })) ∧
      exec .vsync s = .next (waitHere (s.setCurTile { s.curTile with spindle := x }))) ∧
    (x.owner = .strand me →
      (x.openLoops.head? ≠ some l.toNat → exec (.vend l) s = tr .spindleState (l.toNat * 256 + 1)) ∧
      (l.toNat ∈ x.openLoops → exec (.vloopI l imm) s = tr .spindleState (l.toNat * 256 + 2)) ∧
      (x.openLoops ≠ [] → exec .vsync s = tr .spindleState (open_ * 256 + 4)) ∧
      (x.openLoops = [] → x.entries ≠ [] ∨ x.runs ≠ [] → exec .vsync s = .next (waitHere s))) ∧
    ((x.owner = .strand me ∨ x.owner = .none) → x.openLoops = [] → x.entries = [] → x.runs = [] → x.places = [] →
      s.curStrand.pc ≠ 8191 → ∃ t, exec .vsync s = .next t ∧ t.curTile.spindle.owner = .none ∧ t.curStrand = goneOn s.curStrand ∧
        .firingDispatch s.cur.tile ∈ t.agenda ∧ t.mem = s.mem)

/-- The Spindle executes its entries in order (R195, Table 6.6), here with nothing in the row: VCFG makes its slot current; VLOOP loads its
counter and opens a pass, and with n = 0, which only a body discarded at issue leaves (LOG 48 DEDUCED), it passes;
VEND counts down, and goes back behind its VLOOP while the counter is not 0. -/
def Sys2Proof.Claims.SpindleControl : Prop :=
  ∀ (s : State) (t k n p : Nat) (rest : List SpEntry),
    let x := (s.tile t).spindle
    let to_ (y : Spindle) : Prop := ∃ u, exec (.spindleEntryExecute t) s = .next u ∧ (u.tile t) = { s.tile t with spindle := y } ∧
      u.mem = s.mem ∧ ∀ m, m ≠ t → u.tile m = s.tile m
    let v := tabGet (0#32) x.counters k - 1
    s.active t = true → x.pipe = [] →
    (x.entries = .cfg k :: rest → x.pos = 0 → x.loops = [] → x.runs = [] ∨ k = x.cslot →
      to_ { x with cslot := k, entries := rest }) ∧
    (x.entries = .loop k n :: rest → x.pos = 0 → x.loops = [] → n ≠ 0 →
      to_ { x with counters := tabSet 0 x.counters k (BitVec.ofNat 32 n), loops := [(k, 0)], pos := 1 }) ∧
    (x.entries = .loop k 0 :: rest → x.pos = 0 → x.loops = [] →
      to_ { x with counters := tabSet 0 x.counters k 0, entries := rest }) ∧
    (x.entries[x.pos]? = some (.back k) → x.loops = [(k, p)] → p = 0 → v ≠ 0 →
      to_ { x with counters := tabSet 0 x.counters k v, pos := 1 }) ∧
    (x.entries[x.pos]? = some (.back k) → x.loops = [(k, p)] → v = 0 →
      to_ { x with counters := tabSet 0 x.counters k v, loops := [], pos := 0, entries := x.entries.drop (x.pos + 1) })

/-- The run `r` of the entry at the Spindle's position, and the Spindle with it: the run that has begun and still takes tokens, or a new
one, whose draws start at the counter of substream 6 (R188). -/
def Sys2Proof.Claims.RowRuns (s : State) (t : Nat) (r : Run) (y : Spindle) : Prop :=
  let x := (s.tile t).spindle
  ∃ id src dst n keep ew pc, x.entries[x.pos]? = some (.run id src dst n keep ew pc) ∧ 0 < n ∧
    ((x.runs = [r] ∧ r.entry = id ∧ r.taken < r.n ∧ y = x) ∨
     (x.runs = [] ∧ r = ⟨x.nextRun, id, src, dst, n, keep, ew, pc, 0, 0, 0, 0, 0, (tabGet (0#48) (s.tile t).draws 6).toNat⟩ ∧
      y = { x with runs := [r], nextRun := x.nextRun + 1 }))

/-- In the state `u` the row of a tile, empty before, holds the token `v` as the next element of run `r`, in lane 0: the element is what
lane 0 makes of it, and the run has taken one token more. -/
def Sys2Proof.Claims.RowTook (s : State) (t : Nat) (r : Run) (v : Token) (u : State) : Prop :=
  let x := s.tile t
  let w : LaneVal := ⟨v.payload, v.exc && !v.scale, 0⟩
  let e : RowElem :=
    ⟨r.id, r.taken, 0, w, w, w, BitVec.ofNat 48 (r.c0 + r.data * x.srLanes x.spindle.cslot), r.data == 0 && !r.keep, v.scale⟩
  let into := s.laneReach t e
  (u.tile t).spindle.pipe = [into.2] ∧ (u.tile t).lanes = (into.1.tile t).lanes ∧ (u.tile t).kflags = (into.1.tile t).kflags ∧
    (∃ q, (u.tile t).spindle.runs = [q] ∧ q.id = r.id ∧ q.taken = r.taken + 1 ∧ q.data = r.data + (if v.scale then 0 else 1)) ∧
    (x.spindle.pos = 0 → x.spindle.loops = [] →
      (u.tile t).spindle.entries = if r.taken + 1 = r.n then x.spindle.entries.tail else x.spindle.entries) ∧
    (let n := x.srLanes x.spindle.cslot
     tabGet 0 (u.tile t).draws 6 =
      if v.scale = true ∨ n = 0 then tabGet 0 x.draws 6 else BitVec.ofNat 48 (r.c0 + (r.data + 1) * n)) ∧
    u.mem = s.mem ∧ ∀ m, m ≠ t → u.tile m = s.tile m

/-- A run takes one source token a cycle (R179, R189, Table 6.4), here into an empty row; that a step of the model is one cycle of the row is
the model's choice (LOG 16 DESIGN CHOICE). From a ring it waits for a filled slot, reads EW
bytes little-endian, and advances DRAIN behind the last element of a slot and at the end of the run; from an engine's output port or a
copy arrival stream it takes the head; from a channel end it takes what the owner's firing has reserved, and beyond that it faults
(R197): the run and the later entries are discarded, the loops close, and LANE_RUN is recorded for the owner. -/
def Sys2Proof.Claims.RowTakes : Prop :=
  ∀ (s : State) (t : Nat) (r : Run) (y : Spindle), Claims.RowRuns s t r y → s.active t = true → (s.tile t).spindle.pipe = [] →
    let x := s.tile t
    let go := exec (.spindleEntryExecute t) s
    let waits : Prop := go = .next ((s.setSpindle t y).ask (.spindleEntryExecute t))
    (∀ h, r.src = .ring h →
      (r.srcPos = 0 → (x.ring h).filled = 0 → waits) ∧
      (r.srcPos ≠ 0 ∨ (x.ring h).filled ≠ 0 → ∃ u, go = .next u ∧
        Claims.RowTook s t r
          ⟨BitVec.ofNat 64 (leNat (x.spadRead ((x.ring h).drainAt + r.srcPos * r.ew) r.ew)), false, false, Token.idle.origin⟩ u ∧
        (u.tile t).ring h =
          if (x.ring h).slotBytes ≤ (r.srcPos + 1) * r.ew ∨ r.taken + 1 = r.n then (x.ring h).advDrain 1 else x.ring h)) ∧
    (∀ q p, r.src = .queue q → x.queue q = .output p ∨ (∃ n, x.queue q = .arrive n ∧ p = arrivePort n) →
      (x.port p = [] → waits) ∧
      (∀ v rest, x.port p = v :: rest → ∃ u, go = .next u ∧ Claims.RowTook s t r v u ∧ (u.tile t).port p = rest)) ∧
    (∀ q ch k f, r.src = .queue q → x.queue q = .consumer ch → x.spindle.owner = .strand k → (s.strandOf t k).firing = some f →
      (∀ v rest, x.leftIn f ch ≠ 0 → ((s.region x.handle).channel ch).fifo = v :: rest →
        ∃ u f', go = .next u ∧ Claims.RowTook s t r v u ∧ ((u.region x.handle).channel ch).fifo = rest ∧
          (u.strandOf t k).firing = some f' ∧ tabGet 0 f'.popped ch = tabGet 0 f.popped ch + 1) ∧
      (x.leftIn f ch = 0 → ∃ u, go = .next u ∧ (u.tile t).spindle.entries = [] ∧ (u.tile t).spindle.openLoops = [] ∧
        (u.tile t).spindle.runs = [] ∧ (u.tile t).spindle.pipe = [] ∧
        (u.strandOf t k).deferred = (s.strandOf t k).deferred ++
          [⟨.laneRun, BitVec.ofNat 64 (2 ^ 48 + ch % 65536 * 2 ^ 32 + min r.taken 0x7FFFF * 8192 + r.pc % 8192)⟩]))

/-- A result leaves the row (R179, R182, R189, R193), here the row's only element with no entry left to execute: into a ring it is written
as the low EW bytes of the slot at FILL, which advances behind the slot's last element and at the end of the run, a flagged one with
a sink record of SOURCE 1, and a scale token is discarded; into an engine's input port it is put with its exception and type bits. A
ring without a free slot and a full port block the exit. -/
def Sys2Proof.Claims.RowPuts : Prop :=
  ∀ (s : State) (t h : Nat) (r : Run) (e : RowElem),
    let x := s.tile t
    let go := exec (.spindleEntryExecute t) s
    let last : Prop := r.left + 1 = r.n
    let at_ := r.dstPos + 1
    let full : Prop := (x.ring h).slotBytes ≤ at_ * r.ew
    let runs (pos : Nat) : List Run := if last then [] else [{ r with left := r.left + 1, dstPos := pos }]
    s.active t = true → x.spindle.entries = [] → x.spindle.runs = [r] → x.spindle.pipe = [e] → e.run = r.id → e.place = 95 →
    (∀ k, x.spindle.owner = .strand k →
      (r.dst = .ring h →
        (e.scale = false → r.dstPos = 0 → (x.ring h).free = 0 → go = .next (s.ask (.spindleEntryExecute t))) ∧
        (e.scale = true → ∃ u, go = .next u ∧ (u.tile t).spindle = { x.spindle with pipe := [], runs := runs r.dstPos } ∧
          (u.tile t).spad = x.spad ∧ u.mem = s.mem) ∧
        (e.scale = false → r.dstPos ≠ 0 ∨ (x.ring h).free ≠ 0 →
          let y := x.spadWrite ((x.ring h).fillAt + r.dstPos * r.ew) (natLe r.ew e.v.val.toNat)
          let z := if full ∨ last then y.setRing h ((y.ring h).advFill 1) else y
          let w := BitVec.ofNat 64 (e.v.val.toNat % 2 ^ (8 * r.ew))
          let f := (s.strandOf t k).firing
          ∃ u, go = .next u ∧ (u.tile t).spad = z.spad ∧ (u.tile t).handles = z.handles ∧
            (u.tile t).spindle = { x.spindle with pipe := [], runs := runs (if full then 0 else at_) } ∧
            (e.v.exc = false → u.mem = s.mem ∧ u.regions = s.regions ∧ (u.tile t).kflags = x.kflags) ∧
            (e.v.exc = true →
              let v := s.setTile t (if full then z else y)
              let who : Nat × Nat := match f with
                | some g => (g.actor, g.seq)
                | none => (255, 0)
              u.regions = (v.sink t ⟨1, e.v.cause, e.rowin.exc, w, e.index, who.1, who.2⟩).regions ∧
              (u.tile t).kflags = ((v.sink t ⟨1, e.v.cause, e.rowin.exc, w, e.index, who.1, who.2⟩).tile t).kflags))) ∧
      (∀ q p, r.dst = .queue q → x.queue q = .input p →
        (x.portRoom p = 0 → go = .next (s.ask (.spindleEntryExecute t))) ∧
        (x.portRoom p ≠ 0 → ∃ u, go = .next u ∧
          (u.tile t).port p = x.port p ++ [⟨e.v.val, e.scale, e.v.exc, Token.idle.origin⟩] ∧
          (u.tile t).spindle = { x.spindle with pipe := [], runs := runs 0 } ∧ u.mem = s.mem)))

/-- The row moves as one (R179): a blocked exit stalls every element and takes no token; otherwise every element moves on by one stage in a
step (LOG 16 DESIGN CHOICE), in order, and reaches a lane, where the lane computes (R180, R181, R188) or, for a scale token, loads its
latch (R182). That this is at the first of the lane's six stages is the model's reading (LOG 15 DEDUCED), and so is that a hold register
reloads as the run's first element reaches its lane (LOG 46 DEDUCED). -/
def Sys2Proof.Claims.RowMoves : Prop :=
  ∀ (s : State) (t k : Nat) (r : Run) (e : RowElem) (rest : List RowElem),
    let x := s.tile t
    let go := exec (.spindleEntryExecute t) s
    (s.active t = true → x.spindle.pipe = e :: rest → e.place = 95 → x.spindle.runs.find? (fun q => q.id == e.run) = some r →
      runPut s t r e = .wait → go = .next (s.ask (.spindleEntryExecute t))) ∧
    (s.active t = true → x.spindle.pipe = e :: rest → x.spindle.entries = [] → (∀ y ∈ e :: rest, y.place < 95) →
      ∃ u, go = .next u ∧ (u.tile t).spindle = { x.spindle with pipe := (rowShift t s (e :: rest)).2 } ∧
        (u.tile t).lanes = ((rowShift t s (e :: rest)).1.tile t).lanes ∧
        (u.tile t).spindle.pipe.map (fun y => (y.run, y.index, y.place)) = (e :: rest).map fun y => (y.run, y.index, y.place + 1)) ∧
    rowShift t s [] = (s, []) ∧
    (let one := s.laneReach t { e with place := e.place + 1 }
     let more := rowShift t one.1 rest
     rowShift t s (e :: rest) = (more.1, one.2 :: more.2)) ∧
    (e.place % 6 ≠ 0 → s.laneReach t e = (s, e)) ∧
    (let c := LaneEntry.ofBits (tabGet 0 x.laneCfg (x.spindle.cslot * 16 + k))
     let l := x.lane k
     let b : LaneVal := match c.bsel with
       | 0 => ⟨c.k0, false, 0⟩
       | 1 => e.tap
       | 2 => if e.reload then ⟨c.h0, false, 0⟩ else l.hold
       | _ => e.rowin
     let g := s.region x.handle
     let out := c.apply l.latch (drawOf g.info.seed (logicalOf g x) 6 e.draw) e.v.val b.val
     let v : LaneVal := ⟨out.1, e.v.exc || b.exc || (out.2 &&& 0x67) != 0, e.v.cause ||| b.cause ||| out.2.cause⟩
     e.place = 6 * k →
      (e.scale = false → s.laneReach t e =
        (s.setTile t ((x.raise out.2 fSRCLANE).setLane k { l with hold := v }),
          { e with v := v, tap := e.v, draw := if c.rnd = 4 then e.draw + 1 else e.draw })) ∧
      (e.scale = true → s.laneReach t e =
        (s.setTile t (if c.scaled then x.setLane k { l with latch := e.v.val.extractLsb' 0 8 } else x), e)))

/-- Integer lane operations (Table 6.3): wrapping and saturating arithmetic, bitwise operations, shifts by B[5:0], minimum, maximum, counts
and steering on signed 64-bit words. Only the clamped forms raise a flag, SAT. -/
def Sys2Proof.Claims.LaneInteger : Prop :=
  ∀ (e : LaneEntry) (latch : BitVec 8) (draw : Nat) (a b : Word), e.fmt = 3 → e.op < 0x30 →
    let r := e.apply latch draw a b
    let n := b.toNat % 64
    let clamp (v : Int) : Word × FlagSet :=
      if v < -9223372036854775808 then (0x8000000000000000, 0x20)
      else if 9223372036854775807 < v then (0x7FFFFFFFFFFFFFFF, 0x20) else (BitVec.ofInt 64 v, 0)
    (e.op = 0 → r = (a, 0)) ∧
    (e.op = 0x18 → r = (if a.toInt < b.toInt then e.k1 else a, 0)) ∧
    (e.op = 0x19 → r = (if a.toInt ≤ b.toInt then e.k1 else a, 0)) ∧
    (e.op = 0x1A → r = (if b.toInt < a.toInt then e.k1 else a, 0)) ∧
    (e.op = 0x1B → r = (if b.toInt ≤ a.toInt then e.k1 else a, 0)) ∧
    (e.op = 0x1C → r = (if a = b then e.k1 else a, 0)) ∧
    (e.op = 0x1D → r = (if a ≠ b then e.k1 else a, 0)) ∧
    (e.op = 0x20 → r = (BitVec.ofInt 64 (a.toInt + b.toInt), 0)) ∧
    (e.op = 0x21 → r = (BitVec.ofInt 64 (a.toInt - b.toInt), 0)) ∧
    (e.op = 0x22 → r = (BitVec.ofInt 64 (a.toInt * b.toInt), 0)) ∧
    (e.op = 0x23 → r.2 = 0 ∧ ∀ i, r.1.getLsbD i = (a.getLsbD i && b.getLsbD i)) ∧
    (e.op = 0x24 → r.2 = 0 ∧ ∀ i, r.1.getLsbD i = (a.getLsbD i || b.getLsbD i)) ∧
    (e.op = 0x25 → r.2 = 0 ∧ ∀ i, r.1.getLsbD i = (a.getLsbD i != b.getLsbD i)) ∧
    (e.op = 0x26 → r = (BitVec.ofNat 64 (a.toNat * 2 ^ n), 0)) ∧
    (e.op = 0x27 → r = (BitVec.ofNat 64 (a.toNat / 2 ^ n), 0)) ∧
    (e.op = 0x28 → r = (BitVec.ofInt 64 (a.toInt / 2 ^ n), 0)) ∧
    (e.op = 0x29 → r = (if a.toInt ≤ b.toInt then a else b, 0)) ∧
    (e.op = 0x2A → r = (if a.toInt ≤ b.toInt then b else a, 0)) ∧
    (e.op = 0x2B → r = clamp (a.toInt + b.toInt)) ∧
    (e.op = 0x2C → r = clamp (a.toInt - b.toInt)) ∧
    (e.op = 0x2D → r = clamp a.toInt.natAbs) ∧
    (e.op = 0x2E → r = (BitVec.ofNat 64 ((List.range 64).filter fun i => a.getLsbD i).length, 0)) ∧
    (e.op = 0x2F → r.2 = 0 ∧ r.1.toNat ≤ 64 ∧ a.toNat < 2 ^ (64 - r.1.toNat) ∧
      (r.1.toNat < 64 → 2 ^ (63 - r.1.toNat) ≤ a.toNat))

/-- Floating-point lane operations (R68, R183 to R187, Table 6.3) on operands in their format's bits, of which A is first multiplied exactly
by the latched scale when SCALED is 1 (NV and the canonical NaN under E = 255): each gives the result and the flags of the scalar
operation of its name under the entry's rounding mode. PASS, FABS, FNEG, FMIN, FMAX and a compare-steer that gives the scaled A round it
once (LOG 27 DEDUCED); unscaled, a result that is A itself keeps A's code (LOG 47 DEDUCED). EXPA follows the steps of R187. -/
def Sys2Proof.Claims.LaneFloat : Prop :=
  ∀ (e : LaneEntry) (latch : BitVec 8) (draw : Nat) (a b : Word), e.fmt < 3 → e.op < 0x30 →
    let f : FFmt := if e.fmt = 0 then f32 else if e.fmt = 1 then f16 else b16
    let w (v : Word) : Nat := if e.fmt = 0 then v.toNat % 2 ^ 32 else v.toNat % 2 ^ 16
    let m := RMode.ofCode e.rnd
    let off : Bool := e.scaled && latch == 255
    let x0 := unpack f (w a)
    let x : FpNum := if off then .nan false else if e.scaled then x0.scale ((latch.toNat : Int) - 127) else x0
    let y := unpack f (w b)
    let k := w e.k1
    let is (r : FRes) : Prop := e.apply latch draw a b = (BitVec.ofNat 64 r.bits, r.fl ||| if off then 1 else 0)
    let own : FRes := if e.scaled then roundNum f m 0 x else ⟨w a, 0⟩
    let nan : FRes := ⟨(2 ^ f.eb - 1) * 2 ^ f.mb + 2 ^ (f.mb - 1), if x.isSig || y.isSig then 1 else 0⟩
    let steer (c : Bool) (fl : FlagSet) : Prop := is (if c then ⟨k, fl⟩ else ⟨own.bits, own.fl ||| fl⟩)
    let quiet : FlagSet := if x.isSig || y.isSig then 1 else 0
    let loud : FlagSet := if x.isNan || y.isNan then 1 else 0
    let num : Bool := !(x.isNan || y.isNan)
    let fn (g : Fn) : FRes :=
      let wide := fnF32 g x
      let out := roundNum f m 0 (unpack f32 wide.bits)
      if e.fmt = 0 then wide else ⟨out.bits, wide.fl ||| out.fl⟩
    (e.op = 0x00 → is own) ∧
    (e.op = 0x01 → is (fAdd f m x y)) ∧
    (e.op = 0x02 → is (fSub f m x y)) ∧
    (e.op = 0x03 → is (fMul f m x y)) ∧
    (e.op = 0x04 → is (fFma f m x y (unpack f k))) ∧
    (e.op = 0x05 → is (if num then (if minFirst x y then own else ⟨w b, 0⟩) else nan)) ∧
    (e.op = 0x06 → is (if num then (if minFirst x y then ⟨w b, 0⟩ else own) else nan)) ∧
    (e.scaled = false → (e.op = 0x05 → is (fMin f (w a) (w b))) ∧ (e.op = 0x06 → is (fMax f (w a) (w b))) ∧
      (e.op = 0x07 → is (fAbs f (w a))) ∧ (e.op = 0x08 → is (fNeg f (w a))) ∧
      (e.op = 0x11 → is ⟨fClass f (w a), if x.isNan || (x == .inf true) || (x == .inf false) then 1 else 0⟩)) ∧
    (e.op = 0x07 → is (roundNum f m 0 (match x with
      | .nan g => .nan g
      | .inf _ => .inf false
      | .fin _ n q => .fin false n q))) ∧
    (e.op = 0x08 → is (roundNum f m 0 x.neg)) ∧
    (e.op = 0x09 → is (fDiv f m x y)) ∧
    (e.op = 0x0A → is (fSqrt f m x)) ∧
    (e.op = 0x0B → is (fn .rsqrt)) ∧ (e.op = 0x0C → is (fn .exp2)) ∧ (e.op = 0x0D → is (fn .log2)) ∧
    (e.op = 0x0E → is (fn .sin)) ∧ (e.op = 0x0F → is (fn .cos)) ∧
    (e.op = 0x10 → is (match x with
      | .nan g => ⟨0x7FC00000, if g then 1 else 0⟩
      | .inf g => ⟨if g then 0 else 0x7F800000, 0⟩
      | .fin _ _ _ =>
        let i : Int := match unpack f32 (fMul f32 .rne x (unpack f32 0x4B38AA3B)).bits with
          | .fin g n q => (if g then -1 else 1) * (roundAt .rne 0 g n q 0 : Int) + 0x3F800000
          | .inf g => if g then -1 else 0x80000000
          | .nan _ => 0
        if i < 0 then ⟨0, 0x20⟩ else if 0x7F7FFFFF < i then ⟨0x7F7FFFFF, 0x20⟩ else ⟨i.toNat, 0⟩)) ∧
    (e.op = 0x11 → is (match x with
      | .nan g => ⟨if g then 0x100 else 0x200, 1⟩
      | .inf g => ⟨if g then 0x001 else 0x080, 1⟩
      | .fin g n q =>
        if n = 0 then ⟨if g then 0x008 else 0x010, 0⟩
        else if cmpNum (.fin false n q) (.fin false 1 (1 - (f.bias : Int))) = .lt then ⟨if g then 0x004 else 0x020, 0⟩
        else ⟨if g then 0x002 else 0x040, 0⟩)) ∧
    (e.op = 0x18 → steer (num && cmpNum x y == .lt) loud) ∧
    (e.op = 0x19 → steer (num && cmpNum x y != .gt) loud) ∧
    (e.op = 0x1A → steer (num && cmpNum x y == .gt) loud) ∧
    (e.op = 0x1B → steer (num && cmpNum x y != .lt) loud) ∧
    (e.op = 0x1C → steer (num && cmpNum x y == .eq) quiet) ∧
    (e.op = 0x1D → steer (!num || cmpNum x y != .eq) quiet) ∧
    (e.op = 0x1E → steer x.isNan (if x.isSig then 1 else 0)) ∧
    (e.op = 0x1F → steer (x.isNan || (x == .inf true) || (x == .inf false)) 0)

/-- The conversions of a lane (R68, R73, R74, R78, R183, R184, R188, Table 6.3): each row fixes source and destination; a float source is
first multiplied exactly by the latched scale when SCALED is 1; the result is placed as a scalar conversion's. -/
def Sys2Proof.Claims.LaneConvert : Prop :=
  ∀ (e : LaneEntry) (latch : BitVec 8) (draw : Nat) (a b : Word),
    let m := RMode.ofCode e.rnd
    let off : Bool := latch == 255
    let conv (src dst : CvtFmt) : Prop :=
      let plain := convert src dst true m draw a.toNat
      let x : FpNum := if off then .nan false else (cvtNum src a.toNat).scale ((latch.toNat : Int) - 127)
      let scaled := convertNum dst m draw x
      (e.scaled = false → e.apply latch draw a b = (cvtPlace dst plain.bits, plain.fl)) ∧
      (e.scaled = true → e.apply latch draw a b = (cvtPlace dst scaled.bits, scaled.fl ||| if off then 1 else 0))
    (e.op = 0x30 → conv .fp16 .fp32) ∧ (e.op = 0x31 → conv .bf16 .fp32) ∧ (e.op = 0x32 → conv .fp32 .fp16) ∧
    (e.op = 0x33 → conv .fp32 .bf16) ∧ (e.op = 0x34 → conv .fp32 .log6) ∧ (e.op = 0x35 → conv .log6 .fp32) ∧
    (e.op = 0x36 → conv .fp32 .int8) ∧ (e.op = 0x37 → conv .fp32 .int32) ∧ (e.op = 0x38 → conv .int32 .fp32) ∧
    (e.op = 0x39 → conv .int32 .int8) ∧ (e.op = 0x3A → conv .int32 .int4) ∧ (e.op = 0x3B → conv .int32 .int16)

/-- The Spindle's entries executed, and what a run's cycle in the lane row takes, passes through the lanes and writes. -/
def Obligations.SpindleExecutes : Prop := Claims.SpindleControl ∧ Claims.RowTakes ∧ Claims.RowPuts ∧ Claims.RowMoves

/-- What every operation of a lane gives. -/
def Obligations.LaneOperations : Prop := Claims.LaneInteger ∧ Claims.LaneFloat ∧ Claims.LaneConvert

/-- ENDFIRE (R134): outside a firing, and in a trap handler, FIRING_STATE; with a used slot short of its rate, CHANNEL_RATE with the lowest
such channel and no counter changed; with an open loop of its own SPINDLE_STATE, reason 4 (R196); waiting while the strand holds a token, or
owns a Spindle that is not empty; otherwise the
firing commits, FIRING is cleared and the strand is free for dispatch. -/
def Sys2Proof.Claims.EndfireRule : Prop :=
  ∀ (s : State) (f : Firing) (c : Nat),
    let x := s.curStrand
    let sp := s.curTile.spindle
    let mine : Prop := sp.owner = .strand s.cur.strand
    let bad := exec .endfire s = .next (takeTrap s .firingState 0 x.pc)
    (x.firing = none → bad) ∧
    (x.firing = some f → x.kstatus.getLsbD 13 = false ∨ x.kstatus.getLsbD 0 = true → bad) ∧
    (x.firing = some f → x.kstatus.getLsbD 13 = true → x.kstatus.getLsbD 0 = false → mine → sp.openLoops ≠ [] →
      exec .endfire s = .next (takeTrap s .spindleState (BitVec.ofNat 64 (sp.openLoops.headD 0 * 256 + 4)) x.pc)) ∧
    (x.firing = some f → x.kstatus.getLsbD 13 = true → x.kstatus.getLsbD 0 = false → (mine → sp.openLoops = []) →
      ((mine ∧ (sp.entries ≠ [] ∨ sp.runs ≠ [])) ∨ x.tokens ≠ 0 → exec .endfire s = .next (waitHere s)) ∧
      ((mine → sp.entries = [] ∧ sp.runs = []) → x.tokens = 0 → x.spillq = [] → x.interrupted = none →
        ((s.curTile.underRate f).min? = some c → exec .endfire s = .next (takeTrap s .channelRate (BitVec.ofNat 64 c) x.pc)) ∧
        ((s.curTile.underRate f).min? = none → ∃ t, exec .endfire s = .next t ∧ t.curStrand.kstatus.getLsbD 13 = false ∧
          t.curStrand.firing = none ∧ t.curStrand.g = x.g ∧ ((s.commitFiring s.cur.tile f).regions = t.regions) ∧
          (t.curTile.actor f.actor).running = false ∧ (mine → sp.places = [] → t.curTile.spindle.owner = .none))))

/-- The commit of a firing (R18, R368, R464): a channel inside one tile takes the tokens pushed and the space popped at once. Between tiles
the commit waits until its tokens are all in the consumer's buffer, commits in order, and a return of space goes back by the tokens' path
in reverse and raises the producer's counter when it arrives. -/
def Sys2Proof.Claims.FiringCommit : Prop :=
  ∀ (s : State) (h : BitVec 32) (ch n : Nat) (rest : List Nat) (x : Channel),
    let g := s.region h
    let c := g.channel ch
    let after (t : State) : Channel := (t.region h).channel ch
    (c.local = true → after (s.commitPush h ch n) = { c with tokens := c.tokens + n } ∧
      after (s.commitPop h ch n) = { c with space := c.space + n }) ∧
    (c.local = false → after (s.commitPush h ch n) = { c with arriving := c.arriving ++ [n] } ∧
      .channelTokenArrival h ch ∈ (s.commitPush h ch n).agenda ∧ (s.commitPush h ch n).flying = s.flying ∧
      after (s.commitPop h ch n) = c ∧ (s.commitPop h ch n).flying =
        s.flying ++ [⟨h, .space ch n, g.endRouter c.cons, 0, reversePath (g.endRouter c.prod) (s.channelPath g c)⟩]) ∧
    (∀ f vs, s.landedOn h ch false = some f → f.cargo = .tokens ch vs → ∃ t, exec (.channelTokenArrival h ch) s = .next t ∧
      after t = countCommits c.arriving { c with fifo := c.fifo ++ vs, placed := c.placed + vs.length } ∧
      t.flying = s.flying.erase f ∧ t.tiles = s.tiles ∧ t.mem = s.mem) ∧
    (s.landedOn h ch false = none → ∃ t, exec (.channelTokenArrival h ch) s = .next t ∧ after t = countCommits c.arriving c ∧
      t.flying = s.flying ∧ t.tiles = s.tiles ∧ t.mem = s.mem) ∧
    countCommits [] x = x ∧ (x.placed < n → countCommits (n :: rest) x = x) ∧
    (n ≤ x.placed → countCommits (n :: rest) x =
      countCommits rest { x with tokens := x.tokens + n, placed := x.placed - n, arriving := rest }) ∧
    (∀ f, s.landedOn h ch true = some f → f.cargo = .space ch n → ∃ t, exec (.freeSpaceReturn h ch) s = .next t ∧
      after t = { c with space := c.space + n } ∧ t.flying = s.flying.erase f ∧ t.tiles = s.tiles ∧ t.mem = s.mem)

/-- Issuing to the lanes, and what is checked there. -/
def Obligations.SpindleFront : Prop := Claims.SpindleIssue ∧ Claims.SpindleChecks

/-- Ending a firing and what its commit does. -/
def Obligations.EndOfFiring : Prop := Claims.EndfireRule ∧ Claims.FiringCommit

namespace Sys2Proof.Claims

/-- A matrix entry of the issuing strand joins the queue, the instruction retires and the engine's step follows; the tile is
otherwise as given, and nothing else changes (R203). -/
def MatrixTakes (s : State) (x : Tile) (op : MxOp) (o : Host.Outcome State Fault Refusal) : Prop :=
  ∃ u, o = .next u ∧
    u.curTile = { x.setStrand s.cur.strand (goneOn s.curStrand) with
      matrix := { x.matrix with queue := x.matrix.queue ++ [⟨op, s.issuer⟩] } } ∧
    .matrixEntryExecute s.cur.tile ∈ u.agenda ∧ u.mem = s.mem ∧ u.regions = s.regions ∧ ∀ n, n ≠ s.cur.tile → u.tile n = s.tile n

/-- A row-form format code is one that the machine accepts: LOG6 needs feature bit 1 (R239). -/
def FmtOk (s : State) (f : MFmt) : Prop := f = .log6 → s.accepted.getLsbD 1 = true

/-- The rounding code with which an MDRAIN of a fixed mode, or of KSTATUS.RM below 4, enters the queue (R216). -/
def drainCode (s : State) (r : Rnd) : Option Nat :=
  match r with
  | .rne => some 0
  | .rtz => some 1
  | .rup => some 2
  | .rdn => some 3
  | .dyn => if s.curStrand.rm < 4 then some s.curStrand.rm else none
  | .sr => none

/-- The head entry of a tile's matrix queue completes: the queue holds the rest, the slice is as given, and no other tile changes. -/
def MatrixEnds (s : State) (t : Nat) (rest : List MxEntry) (x : Tile) (m : Matrix) : Prop :=
  ∃ u, exec (.matrixEntryExecute t) s = .next u ∧
    u.tile t = { x with matrix := { m with queue := rest, prog := MxProgress.idle } } ∧
    u.mem = s.mem ∧ u.regions = s.regions ∧ ∀ n, n ≠ t → u.tile n = s.tile n

/-- A fault of an engine entry of a strand whose firing still runs is recorded for the strand (R205). -/
def EngineFaulted (s u : State) (t : Nat) (k : Fin 4) (pc : Nat) (c : Cause) (reason detail : Nat) : Prop :=
  u.strandOf t k = { s.strandOf t k with deferred := (s.strandOf t k).deferred ++
    [⟨c, BitVec.ofNat 64 (reason * 2 ^ 48 + detail % 65536 * 2 ^ 32 + pc % 8192)⟩] }

end Sys2Proof.Claims

/-- The matrix instructions retire once their entries are in the queue (R203, R210 to R216, R220 to R222). -/
def Sys2Proof.Claims.MatrixIssue : Prop :=
  ∀ (s : State) (n d a : BitVec 2) (h : BitVec 4) (q : BitVec 5) (g : BitVec 6) (mf : MFmt) (df : DFmt) (rnd : Rnd) (p : BitVec 3)
    (rowb nm1 : BitVec 5) (w : Bool) (e : BitVec 8) (mask : BitVec 4) (mode : Nat),
    let t := s.curTile
    let v : BitVec 8 := (s.curStrand.rg g).truncate 8
    let row (f : Nat) : Prop := 4 * mxBits f ≤ (t.ring h.toNat).slotBytes
    let feeds : Prop := (t.queue q.toNat).kind = 2 ∨ (t.queue q.toNat).kind = 4 ∨ (t.queue q.toNat).kind = 5
    let gives : Prop := (t.queue q.toNat).kind = 1 ∨ (t.queue q.toNat).kind = 3
    let macc (tr : Bool) (src : Side) : MxOp := .macc d.toNat tr src mf.code.toNat rowb.toNat (nm1.toNat + 1)
    let drain (dst : Side) : MxOp := .drain a.toNat dst df.code.toNat mode w
    s.curStrand.pc ≠ 8191 → t.matrix.queue.length < 8 →
    (FmtOk s mf →
      MatrixTakes s (t.setSlot n.toNat { t.slot n.toNat with loads := (t.slot n.toNat).loads + 1 })
        (.loadSlot n.toNat mf.code.toNat p.toNat) (exec (.mldsS n mf p) s) ∧
      ((128 * mxBits mf.code.toNat + (t.ring h.toNat).slotBytes - 1) / (t.ring h.toNat).slotBytes ≤ (t.ring h.toNat).count →
        MatrixTakes s t (.loadRing h.toNat mf.code.toNat) (exec (.mldsH h mf) s)) ∧
      (row mf.code.toNat → MatrixTakes s t (macc false (.ring h.toNat)) (exec (.maccNH d h mf rowb nm1) s) ∧
        MatrixTakes s t (macc true (.ring h.toNat)) (exec (.maccTH d h mf rowb nm1) s)) ∧
      (feeds → MatrixTakes s t (macc false (.queue q.toNat)) (exec (.maccNQ d q mf rowb nm1) s) ∧
        MatrixTakes s t (macc true (.queue q.toNat)) (exec (.maccTQ d q mf rowb nm1) s))) ∧
    MatrixTakes s t .swap (exec .mswap s) ∧
    MatrixTakes s t (.zero d.toNat) (exec (.mzero d) s) ∧
    MatrixTakes s t (.scale w e) (exec (.mscaleI w e) s) ∧
    (Free s [g] → MatrixTakes s t (.scale w v) (exec (.mscale g w) s) ∧
      (permOk v → MatrixTakes s t (.perm v) (exec (.mperm g) s))) ∧
    (drainCode s rnd = some mode →
      (row df.code.toNat → MatrixTakes s t (drain (.ring h.toNat)) (exec (.mdrain (.ring h) a df rnd w) s)) ∧
      (gives → MatrixTakes s t (drain (.queue q.toNat)) (exec (.mdrain (.queue q) a df rnd w) s))) ∧
    (gangOk s.curRegion t mask → MatrixTakes s t (.gang mask) (exec (.mgang mask) s)) ∧
    (gangOk s.curRegion t 15 → MatrixTakes s t (.exchange d.toNat a.toNat) (exec (.mxchg d a) s))

/-- What the matrix instructions check at issue (R203, R204, R209, R220, R221): a full queue makes the strand wait; a slot that holds
no row takes RING_GEOMETRY, an unbound queue QUEUE_UNBOUND, a value that is no permutation MATRIX_OPERAND reason 2, and a gang
beyond the region MATRIX_GANG reason 3, all at the instruction. -/
def Sys2Proof.Claims.MatrixChecks : Prop :=
  ∀ (s : State) (d a : BitVec 2) (h : BitVec 4) (q : BitVec 5) (g : BitVec 6) (mf : MFmt) (rowb nm1 : BitVec 5) (mask : BitVec 4),
    let t := s.curTile
    let pc := s.curStrand.pc
    let v := (s.curStrand.rg g).toNat % 256
    let bytes := 4 * mxBits mf.code.toNat
    let tr (c : Cause) (v : Nat) : Host.Outcome State Fault Refusal := .next (takeTrap s c (BitVec.ofNat 64 v) pc)
    (8 ≤ t.matrix.queue.length → exec .mswap s = .next (waitHere s) ∧ exec (.mzero d) s = .next (waitHere s)) ∧
    (mf = .log6 → s.accepted.getLsbD 1 = false → exec (.maccNH d h mf rowb nm1) s = .next (takeTrap s .illegalModifier s.word pc)) ∧
    (FmtOk s mf → (t.ring h.toNat).slotBytes < bytes →
      exec (.maccNH d h mf rowb nm1) s = tr .ringGeometry (bytes * 16 + h.toNat) ∧
      exec (.maccTH d h mf rowb nm1) s = tr .ringGeometry (bytes * 16 + h.toNat)) ∧
    (FmtOk s mf → t.queue q.toNat = .unbound → exec (.maccNQ d q mf rowb nm1) s = tr .queueUnbound q.toNat ∧
      exec (.maccTQ d q mf rowb nm1) s = tr .queueUnbound q.toNat) ∧
    (Free s [g] → permOk (BitVec.ofNat 8 v) = false → exec (.mperm g) s = tr .matrixOperand (2 * 2 ^ 48 + v * 2 ^ 32 + pc.toNat)) ∧
    (gangOk s.curRegion t mask = false → exec (.mgang mask) s = tr .matrixGang (3 * 2 ^ 48 + mask.toNat * 2 ^ 32 + pc.toNat)) ∧
    (gangOk s.curRegion t 15 = false → exec (.mxchg d a) s = tr .matrixGang (3 * 2 ^ 48 + 15 * 2 ^ 32 + pc.toNat))

/-- The engine executes the head of its queue (R210 to R215, R220): planes, latches and the permutation table take their values, a cell of
MACC adds its products in ascending k (but for the rows before a thaw that restored no accumulators, R238), and the accumulators that an
entry does not name keep theirs. -/
def Sys2Proof.Claims.MatrixEntries : Prop :=
  ∀ (s : State) (t : Nat) (who : Issuer) (rest : List MxEntry),
    let x := s.tile t
    let m := x.matrix
    let head (op : MxOp) : Prop := m.queue = ⟨op, who⟩ :: rest
    s.active t = true →
    (head .swap → MatrixEnds s t rest x { m with active := m.shadow, shadow := m.active }) ∧
    (∀ e, head (.scale false e) → MatrixEnds s t rest x { m with ea := e }) ∧
    (∀ e, head (.scale true e) → MatrixEnds s t rest x { m with shadow := { m.shadow with ew := e } }) ∧
    (∀ v, head (.perm v) → MatrixEnds s t rest x { m with perm := v }) ∧
    (∀ d, head (.zero d) → ∃ m', MatrixEnds s t rest x m' ∧ (∀ i j, i < 32 → j < 32 → m'.cell d i j = AccCell.idle) ∧
      ∀ c i j, c ≠ d → i < 32 → j < 32 → m'.cell c i j = m.cell c i j) ∧
    (∀ h f, head (.loadRing h f) → planeSlots (x.ring h) f ≤ (x.ring h).filled →
      ∃ w, MatrixEnds s t rest (x.setRing h ((x.ring h).advDrain (planeSlots (x.ring h) f))) { m with shadow := ⟨w, f, m.shadow.ew⟩ } ∧
        ∀ i, i < 1024 → tabGet 0 w i = natBits (leNat (ringBytes x (x.ring h) (128 * mxBits f))) (mxBits f * i) (mxBits f)) ∧
    (∀ n f p, head (.loadSlot n f p) → (x.slot n).state = .landing →
      ∃ u, exec (.matrixEntryExecute t) s = .next u ∧ u.tile t = x ∧ u.mem = s.mem) ∧
    (∀ n f p, head (.loadSlot n f p) → (x.slot n).state = .full → who.strand = none →
      let off := (if (x.slot n).scale then 32 else 0) + p * (128 * mxBits f)
      off + 128 * mxBits f ≤ 4096 → ∃ w,
        MatrixEnds s t rest x { m with shadow :=
          ⟨w, f, if (x.slot n).scale then readByte (x.slot n).payload 0 else m.shadow.ew⟩ } ∧
        ∀ i, i < 1024 → tabGet 0 w i =
          natBits (leNat (readBytes (x.slot n).payload off (128 * mxBits f))) (mxBits f * i) (mxBits f)) ∧
    (∀ n f p k, head (.loadSlot n f p) → who.strand = some k →
      let off := (if (x.slot n).scale then 32 else 0) + p * (128 * mxBits f)
      let left := rest.filter (fun e => e.who.strand != some k)
      ((x.slot n).state = .full → off + 128 * mxBits f ≤ 4096 → ∃ w,
        MatrixEnds s t rest (x.setSlot n { x.slot n with loads := (x.slot n).loads - 1 }) { m with shadow :=
          ⟨w, f, if (x.slot n).scale then readByte (x.slot n).payload 0 else m.shadow.ew⟩ } ∧
        ∀ i, i < 1024 → tabGet 0 w i =
          natBits (leNat (readBytes (x.slot n).payload off (128 * mxBits f))) (mxBits f * i) (mxBits f)) ∧
      ((x.slot n).state = .free → s.issuerRuns t who → ∃ u, exec (.matrixEntryExecute t) s = .next u ∧
        EngineFaulted s u t k who.pc .slotState 1 n ∧ (u.tile t).matrix = { m with queue := left, prog := MxProgress.idle }) ∧
      ((x.slot n).state = .full → 4096 < off + 128 * mxBits f → s.issuerRuns t who → ∃ u, exec (.matrixEntryExecute t) s = .next u ∧
        EngineFaulted s u t k who.pc .matrixOperand 1 p ∧ (u.tile t).matrix = { m with queue := left, prog := MxProgress.idle })) ∧
    (∀ d tr src af rowb n, head (.macc d tr src af rowb n) → m.prog.rows.length = n → m.prog.retry = false →
      mxPairOk m.active.pf af → rowb + n ≤ 32 → checkCells (maccCells m d tr af rowb m.prog.rows) = none →
      ∃ u, exec (.matrixEntryExecute t) s = .next u ∧
        let m' := (u.tile t).matrix
        m'.queue = rest ∧ m'.active = m.active ∧ m'.shadow = m.shadow ∧ m'.ea = m.prog.ea.getD m.ea ∧ u.mem = s.mem ∧
        (∀ i j, m.prog.lost ≤ i → i < n → j < 32 →
          let row := nth ⟨[], 127, false⟩ m.prog.rows i
          let r := accumulate (cellProducts m.active tr af row j) (m.cell d (rowb + i) j).v.toNat 0
          m'.cell d (rowb + i) j = ⟨BitVec.ofNat 32 r.1, (m.cell d (rowb + i) j).exc || row.exc || FlagSet.exc r.2⟩) ∧
        (∀ c i j, c ≠ d ∨ i < rowb + m.prog.lost ∨ rowb + n ≤ i → i < 32 → j < 32 → m'.cell c i j = m.cell c i j)) ∧
    (∀ d tr src af rowb n k, head (.macc d tr src af rowb n) → m.prog.retry = false → mxPairOk m.active.pf af = false →
      who.strand = some k → s.issuerRuns t who →
      ∃ u, exec (.matrixEntryExecute t) s = .next u ∧ EngineFaulted s u t k who.pc .matrixFormat 1 (m.active.pf * 16 + af) ∧
        (u.tile t).matrix = { m with queue := rest.filter (fun e => e.who.strand != some k), prog := MxProgress.idle }) ∧
    (∀ mask, head (.gang mask) → m.prog.joined = none →
      ∃ u, exec (.matrixEntryExecute t) s = .next u ∧ .quartetJoin t ∈ u.agenda ∧
        u.tile t = { x with matrix := { m with prog := { m.prog with arrived := true } } })

/-- An MDRAIN at the head of the queue executes (R216): rows 0 to 31 in ascending order, the elements of a row in ascending column. Each
element is narrowed to the drain's format and raises its flags with SRCMAT; under SR it takes the next draw of substream 7. To a ring a
row is written packed, behind the rows of its slot, and each flagged element leaves a sink record of SOURCE 2; to an engine's port a
token carries its elements' codes and whether one of them is flagged; both wait for room. At the end the slot is advanced, ZERO clears
the accumulator and the entry leaves; a push beyond the firing's space is CHANNEL_RATE. -/
def Sys2Proof.Claims.MatrixDrain : Prop :=
  ∀ (s : State) (t acc df mode fuel : Nat) (dst : Side) (zero : Bool) (who : Issuer) (rest : List MxEntry),
    let x := s.tile t
    let m := x.matrix
    let p := m.prog
    let md := RMode.ofCode mode
    let b := mxBits df
    let e : MxEntry := ⟨.drain acc dst df mode zero, who⟩
    let g := s.region x.handle
    let drawn := tabGet (0#48) x.draws 7
    let elem (i j k : Nat) : Nat × Bool × FlagSet :=
      let c := m.cell acc i j
      let draw := if md = .sr then drawOf g.info.seed (logicalOf g x) 7 (drawn + BitVec.ofNat 48 k) else 0
      let r := convert .fp32 (mxCvt df) true md draw c.v.toNat
      (r.bits % 2 ^ b, c.exc || (r.fl &&& 0x67) != 0, r.fl)
    let elems (first n : Nat) : List (Nat × Bool × FlagSet) :=
      (upFrom 0 n).map fun k => elem (first / 32) (first % 32 + k) k
    let flags (l : List (Nat × Bool × FlagSet)) : Tile :=
      let y := l.foldl (fun y r => y.raise r.2.2 fSRCMAT) x
      if md = .sr then { y with draws := tabSet 0 x.draws 7 (drawn + BitVec.ofNat 48 l.length) } else y
    let sinks (k : Nat) (l : List (Nat × Bool × FlagSet)) (u : State) : State :=
      sinkElems t 2 (if who.strand.isSome then who.actor else 255) (if who.strand.isSome then who.seq else 0)
        (fun n => (m.cell acc p.done (n % 32)).exc) k l u
    let goes (fuel : Nat) (u : State) : State := mxDrain t e acc dst df md zero fuel u
    (s.active t = true → m.queue = e :: rest →
      exec (.matrixEntryExecute t) s = .next (let u := goes 1025 s
        if (u.tile t).matrix.queue = [] then u else u.ask (.matrixEntryExecute t))) ∧
    (∀ h, dst = .ring h → p.done < 32 →
      (p.slotPos = 0 → (x.ring h).free = 0 → goes (fuel + 1) s = s) ∧
      (p.slotPos ≠ 0 ∨ (x.ring h).free ≠ 0 →
        let row := elems (32 * p.done) 32
        let y := (flags row).spadWrite ((x.ring h).fillAt + p.slotPos * (4 * b)) (natLe (4 * b) (packCodes b (row.map (·.1))))
        let last : Bool := decide ((x.ring h).slotBytes < (p.slotPos + 2) * (4 * b))
        let z := if last then y.setRing h ((x.ring h).advFill 1) else y
        goes (fuel + 1) s = goes fuel ((sinks (32 * p.done) row (s.setTile t z)).setMxProg t
          { p with done := p.done + 1, slotPos := if last then 0 else p.slotPos + 1 }))) ∧
    (∀ q k, dst = .queue q → x.queue q = .input k → p.done * mxPerToken df < 1024 →
      (x.portRoom k = 0 → goes (fuel + 1) s = s) ∧
      (x.portRoom k ≠ 0 →
        let l := elems (p.done * mxPerToken df) (mxPerToken df)
        let v : Token := ⟨BitVec.ofNat 64 (packCodes b (l.map (·.1))), false, l.any (·.2.1), Token.idle.origin⟩
        let y := flags l
        goes (fuel + 1) s = goes fuel ((s.setTile t (y.setPort k (y.port k ++ [v]))).setMxProg t { p with done := p.done + 1 }))) ∧
    (s.active t = true → m.queue = e :: rest →
      (∃ h, dst = .ring h ∧ p.done = 32) ∨ ((∃ q, dst = .queue q) ∧ 1024 ≤ p.done * mxPerToken df) →
      let y := match dst with
        | .ring h => if p.slotPos = 0 then x else x.setRing h ((x.ring h).advFill 1)
        | _ => x
      ∃ m', MatrixEnds s t rest y m' ∧ (zero = false → m' = m) ∧ (zero = true →
        (∀ i j, i < 32 → j < 32 → m'.cell acc i j = AccCell.idle) ∧
        ∀ c i j, c ≠ acc → i < 32 → j < 32 → m'.cell c i j = m.cell c i j)) ∧
    (∀ q ch k f, s.active t = true → m.queue = e :: rest → dst = .queue q → x.queue q = .producer ch → who.strand = some k →
      s.issuerRuns t who → (s.strandOf t k).firing = some f → x.leftOut f ch = 0 → p.done * mxPerToken df < 1024 →
      ∃ u, exec (.matrixEntryExecute t) s = .next u ∧ EngineFaulted s u t k who.pc .channelRate 1 ch) ∧
    (∀ (source actor seq n : Nat) (was : Nat → Bool) (r : Nat × Bool × FlagSet) (l : List (Nat × Bool × FlagSet)),
      sinkElems t source actor seq was n [] s = s ∧
      sinkElems t source actor seq was n (r :: l) s = sinkElems t source actor seq was (n + 1) l
        (if r.2.1 then s.sink t ⟨source, r.2.2.cause, was n, BitVec.ofNat 64 r.1, n, actor, seq⟩ else s))

/-- MACC's second execution and the quartet join (R218, R220, R222): a clean second execution stands and counts as transient, a second
mismatch leaves the accumulators, marks the tile as failing and asks for its retirement; a gang whose members' masks differ fails for all that arrived, one
that is complete resumes them, and MXCHG moves column panels by the permutation table. -/
def Obligations.MatrixChecksAndJoins : Prop :=
  ∀ (s : State) (t : Nat) (who : Issuer) (rest : List MxEntry),
    let x := s.tile t
    let m := x.matrix
    s.active t = true →
    (∀ d tr src af rowb n, m.queue = ⟨.macc d tr src af rowb n, who⟩ :: rest → m.prog.rows.length = n → rowb + n ≤ 32 →
      (∃ u, exec (.maccReexecute t true) s = .next u ∧ (u.tile t).transients = min (x.transients + 1) 255 ∧
        (u.tile t).matrix.queue = rest ∧ ∀ i j, m.prog.lost ≤ i → i < n → j < 32 → ((u.tile t).matrix.cell d (rowb + i) j).v =
          BitVec.ofNat 32 (accumulate (cellProducts m.active tr af (nth ⟨[], 127, false⟩ m.prog.rows i) j)
            (m.cell d (rowb + i) j).v.toNat 0).1) ∧
      (∃ u, exec (.maccReexecute t false) s = .next u ∧ (u.tile t).failing = some .matrixCheckHard ∧
        (u.tile t).matrix.acc = m.acc ∧ (t, Cause.matrixCheckHard) ∈ u.toRetire ∧ .gridRetire ∈ u.agenda)) ∧
    (∀ mask, x.arrivedMask = some mask → (∃ n, (n, t) ∈ s.quartet t) →
      ((∃ e ∈ s.quartet t, ∃ other, (s.tile e.2).arrivedMask = some other ∧ other ≠ mask) →
        ∃ u, exec (.quartetJoin t) s = .next u ∧ ∀ e ∈ s.quartet t, (s.tile e.2).arrivedMask ≠ none →
          u.tile e.2 = { s.tile e.2 with matrix := { (s.tile e.2).matrix with prog := { (s.tile e.2).matrix.prog with joined := some 1 } } }) ∧
      ((∀ e ∈ s.quartet t, ∀ other, (s.tile e.2).arrivedMask = some other → other = mask ∧ (s.tile e.2).exchangeAcc true = none) →
        (∀ n, n < 4 → mask.getLsbD n → ∃ e ∈ s.quartet t, e.1 = n ∧ (s.tile e.2).arrivedMask = some mask) →
        ∃ u, exec (.quartetJoin t) s = .next u ∧ ∀ e ∈ s.quartet t, (s.tile e.2).arrivedMask ≠ none →
          u.tile e.2 = { s.tile e.2 with matrix := { (s.tile e.2).matrix with prog := { (s.tile e.2).matrix.prog with joined := some 0 } } })) ∧
    (∀ (ts dst src : Nat → Nat) (p : BitVec 8), s.quartet t = [(0, ts 0), (1, ts 1), (2, ts 2), (3, ts 3)] →
      [ts 0, ts 1, ts 2, ts 3].Nodup → permOk p →
      (∀ n, n < 4 → (s.tile (ts n)).arrivedMask = some 15 ∧ (s.tile (ts n)).exchangeAcc true = some (dst n) ∧
        (s.tile (ts n)).exchangeAcc false = some (src n) ∧ (s.tile (ts n)).matrix.perm = p) →
      ∃ u, exec (.quartetJoin t) s = .next u ∧ ∀ n q i c, n < 4 → q < 4 → i < 32 → c < 8 →
        (u.tile (ts n)).matrix.cell (dst n) i (8 * q + c) =
          (s.tile (ts q)).matrix.cell (src q) i (8 * (p.toNat / 4 ^ n % 4) + c))

/-- What the entries of the matrix queue do, a drain's rows among them. -/
def Obligations.MatrixExecution : Prop := Claims.MatrixEntries ∧ Claims.MatrixDrain

/-- Issuing to the matrix engine, and what is checked there. -/
def Obligations.MatrixFront : Prop := Claims.MatrixIssue ∧ Claims.MatrixChecks

/-- IRUN and IDRAIN retire once their entries are in the queue; ILOAD, IUNLOAD and ISTAT wait until it is empty and execute at once (R203,
R231 to R235). -/
def Sys2Proof.Claims.InlayInstructions : Prop :=
  ∀ (s : State) (h : BitVec 4) (q : BitVec 5) (g d : BitVec 6) (slot : BitVec 2) (sel : BitVec 3) (nf : NFmt) (nm1 : BitVec 6),
    let t := s.curTile
    let x := t.inlay
    let off := (s.curStrand.rg g).toNat
    let feeds : Prop := (t.queue q.toNat).kind = 2 ∨ (t.queue q.toNat).kind = 4 ∨ (t.queue q.toNat).kind = 5
    let gives : Prop := (t.queue q.toNat).kind = 1 ∨ (t.queue q.toNat).kind = 3
    let to_ (y : Inlay) (z : Strand) (u : State) : Prop :=
      u.curTile = { t.setStrand s.cur.strand (goneOn z) with inlay := y } ∧ u.mem = s.mem ∧ u.regions = s.regions ∧
        ∀ n, n ≠ s.cur.tile → u.tile n = s.tile n
    let takes (op : InOp) (o : Host.Outcome State Fault Refusal) : Prop :=
      ∃ u, o = .next u ∧ to_ { x with queue := x.queue ++ [⟨op, s.issuer⟩] } s.curStrand u ∧ .inlayEntryExecute s.cur.tile ∈ u.agenda
    let tr (c : Cause) (v : Nat) : Prop := exec (.iload d g) s = .next (takeTrap s c (BitVec.ofNat 64 v) s.curStrand.pc)
    let words := (upFrom 0 (8 * ((readNat t.spad off 4 / 2 ^ 19 % 1024 + 9) / 8))).map fun i =>
      BitVec.ofNat 32 (readNat t.spad (off + 4 * i) 4)
    let n := (headerOf (words.headD 0)).nodes
    s.curStrand.pc ≠ 8191 →
    (x.queue.length < 8 →
      takes (.run (.ring h.toNat) slot.toNat (nm1.toNat + 1)) (exec (.irunH h slot nm1) s) ∧
      (feeds → takes (.run (.queue q.toNat) slot.toNat (nm1.toNat + 1)) (exec (.irunQ q slot nm1) s)) ∧
      takes (.drain (.ring h.toNat) nf.code.toNat (nm1.toNat + 1)) (exec (.idrain (.ring h) nf nm1) s) ∧
      (gives → takes (.drain (.queue q.toNat) nf.code.toNat (nm1.toNat + 1)) (exec (.idrain (.queue q) nf nm1) s))) ∧
    (8 ≤ x.queue.length → exec (.irunH h slot nm1) s = .next (waitHere s) ∧ exec (.idrain (.ring h) nf nm1) s = .next (waitHere s)) ∧
    (x.queue ≠ [] → exec (.iunload slot) s = .next (waitHere s) ∧ (Free s [d] → exec (.istat d sel) s = .next (waitHere s))) ∧
    (x.queue = [] → (∃ u, exec (.iunload slot) s = .next u ∧ to_ (x.setGraph slot.toNat none) s.curStrand u) ∧
      (Free s [d] → exec (.istat d sel) s = .next (wrote s d (BitVec.ofNat 64
        (if sel.toNat < 4 then graphStat (x.graph sel.toNat) else fabricStat x))))) ∧
    (Free s [d, g] →
      (off % 32 ≠ 0 → tr .misaligned off) ∧
      (off % 32 = 0 → x.queue = [] →
        (t.inBanks off 32 = false → tr .spadRange off) ∧
        (t.inBanks off 32 → headerOk (words.headD 0) = false → tr .inlayGraph (0x400 * 256 + 1)) ∧
        (t.inBanks off (4 * words.length) → t.inBanks off 32 → headerOk (words.headD 0) →
          (∀ i r, checkGraph words = .malformed i r → tr .inlayGraph (i * 256 + r)) ∧
          (∀ k, checkGraph words = .deep k → tr .inlayCapacity (k * 256 + 3)) ∧
          (∀ i, checkGraph words = .wide i → tr .inlayWidth i) ∧
          (∀ k, checkGraph words = .ok k →
            ((∀ i, i < 4 → (x.graph i).isSome) → tr .inlayCapacity 1) ∧
            (∀ i, i < 4 → x.graph i = none → (∀ j, j < i → (x.graph j).isSome) →
              (x.place (n + 1) = none → tr .inlayCapacity ((n + 1) * 256 + 2)) ∧
              (∀ base, x.place (n + 1) = some base → ∃ u, exec (.iload d g) s = .next u ∧
                to_ (x.install i base k words) (s.curStrand.wg d (BitVec.ofNat 64 i)) u))))))

/-- Where a graph is placed and how the fabric executes (R225, R231, R234): the lowest position that starts a long enough free run; an
IRUN of one vector from a ring appends the graph's output and advances the ring; IRUN of an empty slot is INLAY_STATE reason 1,
recorded for the issuing strand. -/
def Sys2Proof.Claims.InlayExecution : Prop :=
  (∀ (x : Inlay) (n p : Nat), 0 < n → x.place n = some p →
    p + n ≤ 2048 ∧ (∀ i, i < n → x.taken (p + i) = false) ∧
    ∀ b, b < p → ∃ i, i < n ∧ (x.taken (b + i) = true ∨ 2048 ≤ b + i)) ∧
  (∀ (s : State) (t h slot : Nat) (g : Graph) (who : Issuer) (rest : List InEntry),
    let y := s.tile t
    let x := y.inlay
    let bytes := vectorBytes g
    let v := (unpackCodes (iwBits g.iw) g.nin (leNat (y.spadRead (y.ring h).drainAt bytes))).map
      fun c => (signedCode (iwBits g.iw) c, false)
    s.active t = true → x.queue = ⟨.run (.ring h) slot 1, who⟩ :: rest → x.done = 0 → x.slotPos = 0 → x.graph slot = some g →
    x.out.length < 64 → bytes ≤ (y.ring h).slotBytes → (y.ring h).slotBytes < 2 * bytes → 0 < (y.ring h).filled →
    ∃ u, exec (.inlayEntryExecute t) s = .next u ∧
      u.tile t = { y.setRing h ((y.ring h).advDrain 1) with
        inlay := { x with queue := rest, done := 0, part := [], slotPos := 0, out := x.out ++ [x.eval g v] } } ∧
      u.mem = s.mem ∧ ∀ m, m ≠ t → u.tile m = s.tile m) ∧
  (∀ (s : State) (t slot n : Nat) (src : Side) (k : Fin 4) (who : Issuer) (rest : List InEntry),
    let x := (s.tile t).inlay
    s.active t = true → x.queue = ⟨.run src slot n, who⟩ :: rest → x.done < n → x.graph slot = none → who.strand = some k →
    s.issuerRuns t who → ∃ u, exec (.inlayEntryExecute t) s = .next u ∧ EngineFaulted s u t k who.pc .inlayState 1 slot ∧
      (u.tile t).inlay.out = x.out ∧ (u.tile t).inlay.queue = rest.filter (fun e => e.who.strand != some k))

/-- An IDRAIN at the head of the queue executes (R235): its vectors are taken from the head of the output buffer, each element narrowed to NF
with saturation, which sets the exception bit and raises SAT with SRCINL. To a ring a vector is written packed, and each flagged element
leaves a sink record of SOURCE 3; to an engine's port it is pushed as tokens, each flagged when one of its elements is. With fewer
vectors there than it names it takes INLAY_STATE reason 3, and with a vector larger than the slot reason 4. -/
def Sys2Proof.Claims.InlayDrain : Prop :=
  ∀ (s : State) (t nf n fuel : Nat) (dst : Side) (who : Issuer) (rest : List InEntry) (v : OutVec) (vs : List OutVec),
    let y := s.tile t
    let x := y.inlay
    let b := if nf = 0 then 32 else if nf = 1 then 16 else 8
    let e : InEntry := ⟨.drain dst nf n, who⟩
    let elem (r : BitVec 32 × Bool) : Nat × Bool × FlagSet :=
      let i := r.1.toInt
      if i < -((2 : Int) ^ (b - 1)) then (2 ^ (b - 1), true, 0x20)
      else if (2 : Int) ^ (b - 1) ≤ i then (2 ^ (b - 1) - 1, true, 0x20)
      else ((i % (2 : Int) ^ b).toNat, r.2, 0)
    let l := v.vals.map elem
    let flags := y.raise (l.foldl (fun f r => f ||| r.2.2) 0) fSRCINL
    let bytes := v.vals.length * b / 8
    let goes (fuel : Nat) (u : State) : State := inDrain t e dst nf n fuel u
    (s.active t = true → x.queue = e :: rest →
      exec (.inlayEntryExecute t) s = .next (let u := goes 4224 s
        if (u.tile t).inlay.queue = [] then u else u.ask (.inlayEntryExecute t))) ∧
    (∀ h, s.active t = true → x.queue = e :: rest → dst = .ring h → n = 1 → x.done = 0 → x.slotPos = 0 → x.out = v :: vs →
      (bytes ≤ (y.ring h).slotBytes → (y.ring h).slotBytes < 2 * bytes → (y.ring h).free ≠ 0 →
        let z := flags.spadWrite (y.ring h).fillAt (natLe bytes (packCodes b (l.map (·.1))))
        ∃ u, exec (.inlayEntryExecute t) s = .next u ∧ (u.tile t).spad = z.spad ∧
          (u.tile t).handles = (z.setRing h ((y.ring h).advFill 1)).handles ∧
          (u.tile t).inlay = { x with queue := rest, done := 0, part := [], slotPos := 0, out := vs } ∧
          ((∀ r ∈ l, r.2.1 = false) → u.mem = s.mem ∧ u.regions = s.regions ∧ (u.tile t).kflags = flags.kflags)) ∧
      (bytes ≤ (y.ring h).slotBytes → (y.ring h).free = 0 → goes (fuel + 1) s = s)) ∧
    (x.done < n → x.part = [] → x.out = v :: vs → n - x.done ≤ x.out.length → (∀ h, dst ≠ .ring h) →
      goes (fuel + 1) s = goes fuel ((s.setTile t flags).setInlay t { x with part := vectorOut nf l })) ∧
    (∀ q k w ws, x.done < n → x.part = w :: ws → x.out = v :: vs → dst = .queue q → y.queue q = .input k →
      (y.portRoom k = 0 → goes (fuel + 1) s = s) ∧
      (y.portRoom k ≠ 0 → goes (fuel + 1) s = goes fuel ((s.setTile t (y.setPort k (y.port k ++ [w]))).setInlay t
        (if ws = [] then { x with part := [], done := x.done + 1, out := vs } else { x with part := ws })))) ∧
    (∀ k, s.active t = true → x.queue = e :: rest → x.done < n → x.part = [] → who.strand = some k → s.issuerRuns t who →
      (x.out.length < n - x.done → ∃ u, exec (.inlayEntryExecute t) s = .next u ∧
        EngineFaulted s u t k who.pc .inlayState 3 x.out.length) ∧
      (∀ h, dst = .ring h → x.out = v :: vs → n - x.done ≤ x.out.length → (y.ring h).slotBytes < bytes →
        ∃ u, exec (.inlayEntryExecute t) s = .next u ∧ EngineFaulted s u t k who.pc .inlayState 4 bytes)) ∧
    (∀ w : Nat, w = 32 ∨ w = 16 ∨ w = 8 → (∀ r ∈ l, r.1 < 2 ^ b) → b = w → l.length * w ≤ 64 → l ≠ [] →
      vectorOut nf l = [⟨BitVec.ofNat 64 (packCodes w (l.map (·.1))), false, l.any (·.2.1), Token.idle.origin⟩])

/-- Issuing to the inlay engine, what it executes, and what a drain writes. -/
def Obligations.InlayRules : Prop := Claims.InlayInstructions ∧ Claims.InlayExecution ∧ Claims.InlayDrain

namespace Sys2Proof.Claims

/-- A virtual channel of the issuing strand's tile takes a packet: its injection buffer has room, and no send of the channel waits in the
network queue (R244, R247). -/
def InjectReady (s : State) (vc : Nat) : Prop :=
  (s.curTile.injected vc).length < 8 ∧ ∀ e ∈ s.curTile.netq, e.recv = true ∨ rVc (s.curTile.route e.route) ≠ vc

end Sys2Proof.Claims

/-- The register forms of the route instructions (R243, R244): a route without the role takes NET_ROUTE; NSEND and NBCAST release at the
route's scope; the packet of the consecutive registers joins the injection buffer of its channel, or the strand waits; NRECV takes
the head packet of the route into consecutive registers, waits without one, and takes NET_OPERAND for another length. That NRED sends
narrow elements on a RULE 1 (bfadd) route is the model's reading (log entry 55, from R394); the integer and bitwise rules are not wide
(R390). -/
def Sys2Proof.Claims.RouteInstructions : Prop :=
  ∀ (s : State) (a : BitVec 6) (route : BitVec 8) (nm1 : BitVec 3) (p : Packet) (rest : List Packet),
    let t := s.curTile
    let e := t.route route.toNat
    let n := nm1.toNat + 1
    let r := s.releaseAt s.cur.tile (s.routeScope t.handle route.toNat)
    let packet (wide : Bool) : Packet :=
      ⟨route.toNat, s.curStrand.rgs a.toNat n, true, false, wide, logicalOf s.curRegion t, some s.cur.strand, 0, 0, []⟩
    let wide : Bool := rRule e != 1 && rRule e != 2 && rRule e != 5
    let bad : Host.Outcome State Fault Refusal := .next (takeTrap s .netRoute (route.zeroExtend 64) s.curStrand.pc)
    Free s (gRange a n) → s.curStrand.pc ≠ 8191 →
    (rValid e && rKind e == 0 && rSrc e →
      (InjectReady s 0 → exec (.nsend a route nm1) s = .next (retire (r.inject s.cur.tile 0 (packet false)))) ∧
      (8 ≤ (t.injected 0).length → exec (.nsend a route nm1) s = .next (waitHere r))) ∧
    ((rValid e && rKind e == 0 && rSrc e) = false → exec (.nsend a route nm1) s = bad) ∧
    (rValid e && rKind e == 1 && rSrc e →
      (InjectReady s 0 → exec (.nbcast a route nm1) s = .next (retire (r.inject s.cur.tile 0 (packet false)))) ∧
      (8 ≤ (t.injected 0).length → exec (.nbcast a route nm1) s = .next (waitHere r))) ∧
    ((rValid e && rKind e == 1 && rSrc e) = false → exec (.nbcast a route nm1) s = bad) ∧
    (rValid e && rKind e == 2 && rIn e 0 →
      (InjectReady s 2 → exec (.nred a route nm1) s = .next (retire (s.inject s.cur.tile 2 (packet wide)))) ∧
      (8 ≤ (t.injected 2).length → exec (.nred a route nm1) s = .next (waitHere s))) ∧
    ((rValid e && rKind e == 2 && rIn e 0) = false → exec (.nred a route nm1) s = bad) ∧
    ((rValid e && rOut e 0) = false → exec (.nrecv a route nm1) s = bad) ∧
    (rValid e && rOut e 0 →
      (t.received route.toNat = [] → exec (.nrecv a route nm1) s = .next (waitHere s)) ∧
      (t.received route.toNat = p :: rest →
        (p.words.length ≠ n → exec (.nrecv a route nm1) s =
          .next (takeTrap s .netOperand (BitVec.ofNat 64 (2 * 2 ^ 48 + route.toNat)) s.curStrand.pc)) ∧
        (p.words.length = n → p.exc = false → ∃ u, exec (.nrecv a route nm1) s = .next u ∧
          u.curStrand.g = (s.curStrand.wgs a.toNat p.words).g ∧ u.curStrand.pc = s.curStrand.pc + 1 ∧ u.curStrand.p = s.curStrand.p ∧
          u.curTile.received route.toNat = rest ∧
          let k := popKey route.toNat p.src (logicalOf s.curRegion t)
          tabGet 0 u.curRegion.popped k = tabGet 0 s.curRegion.popped k + 1))) ∧
    (∀ vc, vc < 3 → ((s.inject s.cur.tile vc p).tile s.cur.tile).injected vc = t.injected vc ++
      [{ p with vc := vc, tag := Config.regionTag t.handle, outs := if vc = 2 then [] else (upFrom 0 5).filter (rOut (t.route p.route)) }])

/-- The ring forms, dataflow tokens, chunks and NFENCE (R243, R245, R251 to R253). -/
def Sys2Proof.Claims.NetworkInstructions : Prop :=
  ∀ (s : State) (h : BitVec 4) (route : BitVec 8) (ns : BitVec 13) (d a b : BitVec 6) (imm : BitVec 32),
    let t := s.curTile
    let e := t.route route.toNat
    let r := s.releaseAt s.cur.tile (s.routeScope t.handle route.toNat)
    let w := s.releaseAt s.cur.tile .waf
    let v := s.curStrand.rg a
    let x := s.curStrand.rg b
    let c := t.chunk (x.toNat % 4)
    let ci := t.chunk (imm.toNat % 4)
    let queued (r : State) (recv : Bool) (o : Host.Outcome State Fault Refusal) : Prop :=
      (ns.toNat ≤ (t.ring h.toNat).count → ns ≠ 0 → t.netq.length < 8 → o = .next (retire ((r.setCurTile { r.curTile with
        netq := r.curTile.netq ++ [⟨recv, route.toNat, h.toNat, ns.toNat, 0, 0, 0, false, 0, s.issuer⟩] }).ask
          (.networkQueueEntry s.cur.tile)))) ∧
      (ns.toNat ≤ (t.ring h.toNat).count → ns ≠ 0 → 8 ≤ t.netq.length → o = .next (waitHere r)) ∧
      ((t.ring h.toNat).count < ns.toNat → o = .next (takeTrap s .ringGeometry (BitVec.ofNat 64 (ns.toNat * 16 + h.toNat)) s.curStrand.pc))
    let token (row col source chunk : Nat) : State := retire ((w.setCurTile { w.curTile with
      flow := w.curTile.flow ++ [⟨row, col, chunk, source, some s.cur.strand⟩] }).askFlow s.cur.tile)
    let armed (k : Nat) (z : Chunk) (u : State) : Prop :=
      u.curTile = (t.setChunk k { z with armed := true, arms := z.arms + 1 }).setStrand s.cur.strand
        (goneOn (s.curStrand.wg d (BitVec.ofNat 64 (2 ^ 62 + k * 2 ^ 32 + (z.arms + 1).toNat)))) ∧
      .chunkFire s.cur.tile k ∈ u.agenda ∧ u.mem = s.mem ∧ u.regions = s.regions
    let tr (c : Cause) (v : Nat) : Host.Outcome State Fault Refusal := .next (takeTrap s c (BitVec.ofNat 64 v) s.curStrand.pc)
    s.curStrand.pc ≠ 8191 →
    (rValid e && rKind e == 0 && rSrc e → queued r false (exec (.nsendH h route ns) s)) ∧
    (rValid e && rKind e == 1 && rSrc e → queued r false (exec (.nbcastH h route ns) s)) ∧
    (rValid e && rKind e == 2 && rIn e 0 → queued s false (exec (.nredH h route ns) s)) ∧
    (rValid e && rOut e 0 → queued s true (exec (.nrecvH h route ns) s) ∧
      (ns = 0 → exec (.nrecvH h route ns) s = .next (retire s))) ∧
    (Free s [a] →
      let row := v.toNat / 2 ^ 40 % 256
      let col := v.toNat / 2 ^ 32 % 256
      ((s.curRegion.info.rows ≤ row ∨ s.curRegion.info.cols ≤ col) →
        exec (.ntok a) s = tr .netOperand (4 * 2 ^ 48 + row * 2 ^ 40 + col * 2 ^ 32)) ∧
      (row < s.curRegion.info.rows → col < s.curRegion.info.cols → t.flow.length < 8 →
        exec (.ntok a) s = .next (token row col (v.toNat / 256 % 16) (v.toNat % 4)))) ∧
    (t.row < s.curRegion.info.rows → t.col < s.curRegion.info.cols → t.flow.length < 8 →
      exec (.ntokI imm) s = .next (token t.row t.col (imm.toNat / 256 % 16) (imm.toNat % 4))) ∧
    (Free s [d, a, b] →
      let rt := x.toNat / 2 ^ 56
      let count := x.toNat / 2 ^ 27 % 2 ^ 13
      let re := t.route rt
      (v.toNat % 64 ≠ 0 → exec (.narm d a b) s = tr .misaligned (v.toNat % 2 ^ 56)) ∧
      (v.toNat % 64 = 0 → (rValid re && rKind re == 2 && rIn re 0) = false → exec (.narm d a b) s = tr .netRoute rt) ∧
      (v.toNat % 64 = 0 → rValid re && rKind re == 2 && rIn re 0 →
        (count = 0 ∨ 4096 < count → exec (.narm d a b) s = tr .netOperand (3 * 2 ^ 48)) ∧
        (1 ≤ count → count ≤ 4096 → c.armed = true → exec (.narm d a b) s = .next s) ∧
        (1 ≤ count → count ≤ 4096 → c.armed = false → ∃ u, exec (.narm d a b) s = .next u ∧
          armed (x.toNat % 4) { c with stored := true, va := v.truncate 56, route := rt, mask := x.extractLsb' 40 16, count := count } u))) ∧
    (Free s [d] →
      (ci.stored = false → exec (.narmI d imm) s = tr .netOperand (5 * 2 ^ 48)) ∧
      (ci.stored = true → ci.armed = true → exec (.narmI d imm) s = .next s) ∧
      (ci.stored = true → ci.armed = false → ∃ u, exec (.narmI d imm) s = .next u ∧ armed (imm.toNat % 4) ci u)) ∧
    (t.injecting s.cur.strand = true → exec .nfence s = .next (waitHere s)) ∧
    (t.injecting s.cur.strand = false → exec .nfence s = .next (passed s))

namespace Sys2Proof.Claims

/-- Nothing at the router of a tile waits but the packets of one input on one virtual channel: no other input of its three channels holds a
packet, no combine input and no dataflow token, and no packet between routers lies there. -/
def OnlyInput (s : State) (t vc key : Nat) : Prop :=
  let x := s.tile t
  (∀ c k, c < 3 → k ∈ inputKeys c → (c ≠ vc ∨ k ≠ key) → x.input c k = []) ∧ x.comb = [] ∧ x.flow = [] ∧ ∀ f ∈ s.flying, f.router ≠ t

/-- Packets in a lane of a router: those of its tile's region and those between routers. -/
def inLane (s : State) (router port vc : Nat) (home : Bool) : Nat :=
  ((s.tile router).linkLane port vc home).length + (s.flightsIn router port vc home).length

end Sys2Proof.Claims

/-- An output port of a router serves VC 3 first, whenever it has a flit that this port can take, and channels 0 to 2 in turn (R392), port by
port; a router keeps the packets of the lanes apart by input port, channel, and whether they leave the mesh there, and a packet moves on
only where its next lane has room (R389). How many packets a lane holds is free (LOG 102 DESIGN CHOICE). -/
def Sys2Proof.Claims.RouterTurns : Prop :=
  ∀ (s : State) (t port vc first : Nat) (c : Cargo) (n m : Nat) (rest : List Nat),
    (s.offers t port 3 = true → s.serves t port = some 3) ∧
    (vc < 3 → tabGet 2 s.served (t * 8 + port) = vc → s.offers t port 3 = false →
      let offered (k : Nat) : Bool := s.offers t port ((vc + k) % 3)
      (offered 1 = true → s.serves t port = some ((vc + 1) % 3)) ∧
      (offered 1 = false → offered 2 = true → s.serves t port = some ((vc + 2) % 3)) ∧
      (offered 1 = false → offered 2 = false → offered 3 = true → s.serves t port = some vc) ∧
      (offered 1 = false → offered 2 = false → offered 3 = false →
        ∃ v, exec (.meshPacketHop t port first) s = .next v ∧ v.tiles = s.tiles ∧ v.regions = s.regions ∧ v.flying = s.flying)) ∧
    (s.roomAhead t c (n :: m :: rest) = true ↔ inLane s n (facing (dirOf t n)) c.vc false ≤ Config.laneDepth) ∧
    (∀ p, s.roomAhead t (.packet p) [n] = true ↔
      inLane s n (facing (dirOf t n)) p.vc (rOut ((s.tile n).route p.route) 0) ≤ Config.laneDepth) ∧
    ((∀ p, c ≠ .packet p) → (s.roomAhead t c [n] = true ↔ inLane s n (facing (dirOf t n)) c.vc true ≤ Config.laneDepth))

/-- A packet of a route at the head of an input of its tile's router, on any of the channels 0 to 2 and with any output ports that have still to
take it, at one of these ports (R384, R389, R391): the first copy that leaves the source needs a credit, and uses one; a copy is received
where the route leaves the mesh and the receive queue has room, or goes on by the logical hop's path into the next router's lane that has
room. The packet stays until every one of its ports has taken it. -/
def Sys2Proof.Claims.PacketHops : Prop :=
  ∀ (s : State) (t first port vc key d : Nat) (p : Packet) (rest : List Packet),
    let x := s.tile t
    let go := exec (.meshPacketHop t port first) s
    let left := p.outs.filter (· != d)
    let newAtSource : Prop := key = 0 ∧ p.outs = (upFrom 0 5).filter (rOut (x.route p.route))
    let credit : Prop := newAtSource → s.hasCredit x.handle p.route p.src = true
    let room : Prop := if d = 0 then (x.received p.route).length < rDepth (x.route p.route)
      else s.roomAhead t (.packet p) (s.outPath t d) = true
    let k := p.route * 65536 + p.src
    s.active t = true → vc < 3 → key ∈ inputKeys vc → x.input vc key = p :: rest → p.vc = vc → OnlyInput s t vc key →
    d ∈ p.outs → s.physPort t d = port → (∀ k ∈ p.outs, s.physPort t k = port → k = d) →
    (¬ (credit ∧ room) → ∃ v, go = .next v ∧ v.tiles = s.tiles ∧ v.regions = s.regions ∧ v.flying = s.flying) ∧
    (credit → room → (∀ u, s.outPath t d = [u] → u ≠ t) → ∃ v, go = .next v ∧ v.mem = s.mem ∧
      (v.tile t).input vc key = (if left = [] then rest else { p with outs := left } :: rest) ∧
      tabGet 2 v.served (t * 8 + port) = vc ∧
      (newAtSource → tabGet 0 (v.region x.handle).sent k = tabGet 0 (s.region x.handle).sent k + 1) ∧
      (¬ newAtSource → v.regions = s.regions) ∧
      (d = 0 → (v.tile t).received p.route = x.received p.route ++ [{ p with outs := [] }] ∧ v.flying = s.flying) ∧
      (∀ u, d ≠ 0 → s.outPath t d = [u] →
        let outs := (upFrom 0 5).filter (rOut ((s.tile u).route p.route))
        let lane (z : Tile) : List Packet := z.linkLane (facing (dirOf t u)) vc (rOut ((s.tile u).route p.route) 0)
        v.flying = s.flying ∧
        (outs ≠ [] → lane (v.tile u) = lane (s.tile u) ++ [{ p with outs := outs }] ∧
          ∀ k ∈ outs, .meshPacketHop u (v.physPort u k) 0 ∈ v.agenda)) ∧
      (∀ n m path, d ≠ 0 → s.outPath t d = n :: m :: path →
        v.flying = s.flying ++ [⟨x.handle, .packet p, n, facing (dirOf t n), m :: path⟩]))

/-- A packet between routers, of any channel and of any region, at a router where nothing else lies (R384, R389, R464): it moves to the next
router of its path when its lane there has room, whether or not the router's own tile runs; a route packet whose logical hop ends there
enters that tile's lane. The step of its next hop, or of its arrival, follows. -/
def Sys2Proof.Claims.FlightHops : Prop :=
  ∀ (s : State) (t first n : Nat) (f : Flight) (path : List Nat),
    let port := dirOf t n
    let go := exec (.meshPacketHop t port first) s
    let g : Flight := ⟨f.handle, f.cargo, n, facing port, path⟩
    s.flying.filter (fun g => g.router == t) = [f] → f.path = n :: path → f.cargo.vc < 4 →
    (∀ vc, s.offersOwn t port vc = false) →
    (s.roomAhead t f.cargo f.path = false → ∃ v, go = .next v ∧ v.tiles = s.tiles ∧ v.regions = s.regions ∧ v.flying = s.flying) ∧
    (s.roomAhead t f.cargo f.path = true → path ≠ [] ∨ (∀ p, f.cargo ≠ .packet p) → ∃ v, go = .next v ∧ v.tiles = s.tiles ∧
      v.regions = s.regions ∧ v.mem = s.mem ∧ v.flying = s.flying.erase f ++ [g] ∧ g.step ∈ v.agenda ∧
      (f.cargo.vc < 3 → tabGet 2 v.served (t * 8 + port) = f.cargo.vc)) ∧
    (∀ p, s.roomAhead t f.cargo f.path = true → path = [] → f.cargo = .packet p → ∃ v, go = .next v ∧
      v.regions = s.regions ∧ v.mem = s.mem ∧ v.flying = s.flying.erase f ∧
      let outs := (upFrom 0 5).filter (rOut ((s.tile n).route p.route))
      let lane (z : Tile) : List Packet := z.linkLane (facing port) p.vc (rOut ((s.tile n).route p.route) 0)
      outs ≠ [] → lane (v.tile n) = lane (s.tile n) ++ [{ p with outs := outs }])

/-- Dataflow tokens (R250, R252, R392): the oldest one of a tile leaves through the output port that leads to its owner before any other
packet, on VC 3, while other ports of the router serve theirs; a token that has come to its owner, or that a tile has made for itself,
raises the counter of its chunk, up to 255. That it goes by rows and then columns as a channel's token does is the model's reading
(LOG 113 DEDUCED). -/
def Sys2Proof.Claims.FlowTokens : Prop :=
  ∀ (s : State) (t first : Nat) (f : FlowToken) (rest : List FlowToken),
    let x := s.tile t
    let r := s.region x.handle
    let c := tabGet 0 (x.chunk f.chunk).counters f.source
    let raised (v : State) : Prop := tabGet 0 ((v.tile t).chunk f.chunk).counters f.source = if c < 255 then c + 1 else 255
    s.active t = true →
    (∀ n path, x.flow = f :: rest → s.tilePath r (logicalOf r x) (f.row * r.info.cols + f.col) = n :: path →
      (∀ g ∈ s.flying, g.router = t → g.cargo.vc ≠ 3) →
      let port := dirOf t n
      (∀ k, k ≠ port → s.offers t k 3 = false) ∧
      (inLane s n (facing port) 3 (path == []) ≤ Config.laneDepth → ∃ v, exec (.meshPacketHop t port first) s = .next v ∧
        (v.tile t).flow = rest ∧ v.flying = s.flying ++ [⟨x.handle, .flow f, n, facing port, path⟩] ∧ v.served = s.served ∧
        v.regions = s.regions ∧ v.mem = s.mem)) ∧
    (c ≤ 255 →
      (∀ g, s.landedFlow t = some (g, f) → ∃ v, exec (.ntokArrival t) s = .next v ∧ v.flying = s.flying.erase g ∧
        (v.tile t).flow = x.flow ∧ raised v) ∧
      (s.landedFlow t = none → x.flow = f :: rest → f.row = x.row → f.col = x.col → ∃ v, exec (.ntokArrival t) s = .next v ∧
        v.flying = s.flying ∧ (v.tile t).flow = rest ∧ raised v))

/-- Reductions in a router (R80, R247, R391, R394), at one where no packet between routers lies but where a clause says so: a contribution
enters its combine input; a router combines when every declared input has a packet, and packets of different lengths freeze the region;
the result is received, or leaves on VC 2 for the input of the next router, where it takes its place when it has come. -/
def Sys2Proof.Claims.RouterCombines : Prop :=
  ∀ (s : State) (t : Nat),
    let x := s.tile t
    let quiet : Prop := ∀ f ∈ s.flying, f.router ≠ t
    s.active t = true →
    (∀ (p : Packet) (rest : List Packet), let e := x.route p.route
      quiet → rKind e = 2 → rIn e 0 = true → rIn e 1 = true → x.injected 2 = p :: rest → (x.combine p.route 0).length < 2 →
      x.combine p.route 1 = [] → ∃ v, exec (.routerCombine t p.route) s = .next v ∧ (v.tile t).injected 2 = rest ∧
        (v.tile t).combine p.route 0 = x.combine p.route 0 ++ [p] ∧ v.mem = s.mem ∧ v.regions = s.regions) ∧
    (∀ (f : Flight) (port : Nat) (p : Packet), let e := x.route p.route
      s.flying.filter (fun g => g.router == t) = [f] → f.cargo = .combined port p → f.path = [] → 0 < port → port < 5 → rIn e 0 = true →
      x.combine p.route 0 = [] → x.injected 2 = [] → ∃ v, exec (.routerCombine t p.route) s = .next v ∧
        (v.tile t).combine p.route port = x.combine p.route port ++ [p] ∧ v.flying = s.flying.erase f ∧ v.mem = s.mem ∧
        v.regions = s.regions) ∧
    (∀ (route : Nat) (p q : Packet) (ps qs : List Packet), let e := x.route route
      quiet → rKind e = 2 → rIn e 0 = true → rIn e 1 = true → (∀ k ∈ [2, 3, 4], rIn e k = false) → x.combine route 1 = q :: qs →
      x.injected 2 = [] →
      let sum (z : Packet) : Prop := z.route = p.route ∧ z.vc = 2 ∧ z.words.length = p.words.length ∧
        (rRule e = 2 → ∀ i, i < 2 * p.words.length → z.elem i = (p.elem i + q.elem i) % 2 ^ 32)
      (x.combine route 0 = [] → exec (.routerCombine t route) s = .next s) ∧
      (x.combine route 0 = p :: ps → p.words.length ≠ q.words.length → s.live x.handle = true →
        ∃ v, exec (.routerCombine t route) s = .next v ∧ (v.region x.handle).phase = .freezing ∧
          (v.region x.handle).cause = some .fabricFatal) ∧
      (x.combine route 0 = p :: ps → p.words.length = q.words.length → (∀ n k, n ≠ route → k < 5 → x.combine n k = []) →
        (rOut e 0 = true → (x.received route).length < rDepth e → s.waitsAt t 0 = false →
          ∃ v, exec (.routerCombine t route) s = .next v ∧ (v.tile t).combine route 0 = ps ∧ (v.tile t).combine route 1 = qs ∧
            ∃ z, sum z ∧ (v.tile t).received route = x.received route ++ [z]) ∧
        (∀ d u n path, d ∈ [1, 2, 3, 4] → (∀ k, k < 5 → (rOut e k = true ↔ k = d)) → (s.region x.handle).beside x d = some u →
          s.passPath x.handle t u = n :: path → s.waitsAt t (dirOf t n) = false →
          ((s.tile u).combine route (facing d)).length + (s.combining u route (facing d)).length < 2 →
          inLane s n (facing (dirOf t n)) 2 (path == []) ≤ Config.laneDepth →
          ∃ v, exec (.routerCombine t route) s = .next v ∧ (v.tile t).combine route 0 = ps ∧ (v.tile t).combine route 1 = qs ∧
            ∃ z, sum z ∧ v.flying = s.flying ++ [⟨x.handle, .combined (facing d) z, n, facing (dirOf t n), path⟩])))

/-- The network queue, chunk firings and link retries (R245, R250, R385): a network entry moves whole slots; a chunk that may fire takes one
token of every source; a retry of a link's flit that succeeds counts for the link and direction, and a second failure retires a lane. -/
def Sys2Proof.Claims.NetworkEngines : Prop :=
  ∀ (s : State) (t : Nat),
    let x := s.tile t
    s.active t = true →
    (∀ (e : NetEntry) (vc : Nat), x.netq = [e] → e.recv = false → e.n = 1 → e.done = 0 → e.word = 0 → (x.ring e.h).slotBytes = 64 →
      0 < (x.ring e.h).filled → rVc (x.route e.route) = vc → (x.injected vc).length < 8 →
      ∃ v, exec (.networkQueueEntry t) s = .next v ∧ (v.tile t).netq = [] ∧ (v.tile t).ring e.h = (x.ring e.h).advDrain 1 ∧
        ∃ p, (v.tile t).injected vc = x.injected vc ++ [p] ∧ p.route = e.route ∧ p.last = true ∧
          p.words = (upFrom 0 8).map fun i => BitVec.ofNat 64 (leNat (((x.spadRead (x.ring e.h).drainAt 64).drop (8 * i)).take 8))) ∧
    (∀ (e : NetEntry) (p : Packet) (rest : List Packet), x.netq = [e] → e.recv = true → e.n = 1 → e.done = 0 → e.word = 0 →
      e.exc = false → p.exc = false → p.last = true → x.received e.route = p :: rest → 0 < (x.ring e.h).free →
      8 * p.words.length ≤ (x.ring e.h).slotBytes →
      ∃ v, exec (.networkQueueEntry t) s = .next v ∧ (v.tile t).netq = [] ∧ (v.tile t).ring e.h = (x.ring e.h).advFill 1 ∧
        (v.tile t).received e.route = rest) ∧
    (∀ c, let k := x.chunk c
      k.armed = true → k.left = 0 → k.fault = none → (∀ n, n < 16 → k.mask.getLsbD n → 1 ≤ tabGet 0 k.counters n) → 8 ≤ (x.injected 2).length → 0 < k.count →
      ∃ v, exec (.chunkFire t c) s = .next v ∧
        let z := (v.tile t).chunk c
        z.armed = false ∧ z.left = k.count ∧ z.fires = k.fires + 1 ∧ z.runVa = k.va ∧ .chunkFire t c ∈ v.agenda ∧
        ∀ n, n < 16 → tabGet 0 z.counters n = tabGet 0 k.counters n - (if k.mask.getLsbD n then 1 else 0)) ∧
    (∀ port, (∃ v, exec (.linkFlitRetry t port true) s = .next v ∧ v.tiles = s.tiles ∧ v.laneRetired = s.laneRetired ∧
        tabGet 0 v.laneTransients (t * 8 + port) = min 255 (tabGet 0 s.laneTransients (t * 8 + port) + 1)) ∧
      ∃ v, exec (.linkFlitRetry t port false) s = .next v ∧ v.tiles = s.tiles ∧ t * 8 + port ∈ v.laneRetired)

/-- Packets on the mesh, and the tile's engines that make and take them. Responses (VC 1), the memory requests of VC 0 and the other control
messages of VC 3 lie in no lane of the model (LOG 114 DEDUCED); the clauses on a packet's hop hold for every channel all the same. -/
def Obligations.NetworkSteps : Prop :=
  Claims.RouterTurns ∧ Claims.PacketHops ∧ Claims.FlightHops ∧ Claims.FlowTokens ∧ Claims.RouterCombines ∧ Claims.NetworkEngines

/-- Light blocks and landing slots (R36, R254 to R257, R397, R398): VNWAIT returns the lowest FULL slot of its mask that it waits for and
tracks the version; an expected block that was dropped, or passed over by a later one of its group, takes VENEER_GAP, and so does, once, a
drop whose header was bad; VNREL frees a FULL slot that no issued MLDS needs; a block whose header's CRC-32 checks takes the lowest FREE
slot of a tile or is dropped there, and is FULL or FREE again once its payload's CRC-32 has been checked; the least release count of a
group's members reaches the faceplate. That the CRC-32 is that of IEEE 802.3 is presumed (log entry 100). -/
def Obligations.VeneerRules : Prop :=
  (∀ (s : State) (d a : BitVec 6) (mask : BitVec 4) (n : Nat) (imm : BitVec 32),
    let t := s.curTile
    let x := t.slot n
    let v := s.curStrand.rg a
    let seen (z : Strand) : Strand := if z.trackValid = false then { z with trackValid := true, trackVer := x.version }
      else if x.version ≠ z.trackVer then { z with trackMixed := true } else z
    let word := BitVec.ofNat 64 (x.blockId.toNat * 2 ^ 32 + x.version.toNat * 2 ^ 16 + x.group.toNat * 16 + (if x.scale then 8 else 0) + n)
    let wanted (m : Nat) : Prop := (t.slot m).state = .full ∧ (t.slot m).group = v.extractLsb' 32 12 ∧ (t.slot m).blockId = v.extractLsb' 0 32
    (Ready s [d] → n < 4 → mask.getLsbD n → x.state = .full → (∀ m, m < n → mask.getLsbD m → (t.slot m).state ≠ .full) →
      exec (.vnwait d .any mask) s = .next (became s (seen (s.curStrand.wg d word)))) ∧
    (Ready s [d] → (∀ m, m < 4 → mask.getLsbD m → (t.slot m).state ≠ .full) → exec (.vnwait d .any mask) s = .next (waitHere s)) ∧
    (Ready s [d, a] → n < 4 → mask.getLsbD n → wanted n → (∀ m, m < n → mask.getLsbD m → ¬ wanted m) →
      exec (.vnwait d (.expected a) mask) s = .next (became s (seen (s.curStrand.wg d word)))) ∧
    (Ready s [d, a] → (∀ m, m < 4 → mask.getLsbD m → ¬ wanted m) →
      let gap (u : State) : Prop := exec (.vnwait d (.expected a) mask) s = .next (takeTrap u .veneerGap v s.curStrand.pc)
      let lost (e : Drop) : Prop := e.hdrBad = false ∧ e.group = v.extractLsb' 32 12 ∧ e.blockId = v.extractLsb' 0 32
      let passedBy (m : Nat) : Prop := m < 4 ∧ mask.getLsbD m = true ∧ (t.slot m).state = .full ∧ (t.slot m).group = v.extractLsb' 32 12 ∧
        (let k := ((t.slot m).blockId - v.extractLsb' 0 32).toNat
         1 ≤ k ∧ k < 2 ^ 31)
      ((∃ e ∈ t.drops, lost e) → gap s) ∧
      ((∃ m, passedBy m) → gap s) ∧
      ((∀ e ∈ t.drops, ¬ lost e) → (∀ m, ¬ passedBy m) →
        (∀ e l r, t.drops = l ++ e :: r → e.hdrBad = true → (∀ f ∈ l, f.hdrBad = false) →
          gap (s.setCurTile { t with drops := l ++ r })) ∧
        ((∀ e ∈ t.drops, e.hdrBad = false) → exec (.vnwait d (.expected a) mask) s = .next (waitHere s)))) ∧
    (let k := imm.toNat % 4
     let y := t.slot k
     let o := exec (.vnrelI imm) s
     (y.state ≠ .full → o = .next (takeTrap s .slotState (BitVec.ofNat 64 (0xC0000 + 0x1000 * k)) s.curStrand.pc)) ∧
     (y.state = .full → y.loads ≠ 0 → o = .next (waitHere s)) ∧
     (y.state = .full → y.loads = 0 → s.curStrand.pc ≠ 8191 → ∃ u, o = .next u ∧
       u.curTile.slot k = { y with state := .free } ∧ u.curStrand = goneOn s.curStrand ∧ u.mem = s.mem ∧
       tabGet 0 u.curTile.released y.group.toNat = (tabGet 0 t.released y.group.toNat + 1) % 2 ^ 32 ∧
       .releaseTokenArrive t.handle y.group.toNat ∈ u.agenda) ∧
     (Free s [a] → v.toNat % 4 = k → exec (.vnrel a) s = o))) ∧
  (∀ (s : State) (c t slot : Nat) (sent : Block) (rest : List Block) (m : Member) (damage : BitVec 256),
    let w0 := sent.w0 ^^^ damage.extractLsb' 0 64
    let w1 := sent.w1 ^^^ damage.extractLsb' 64 64
    let w2 := sent.w2 ^^^ damage.extractLsb' 128 64
    let w3 := sent.w3 ^^^ damage.extractLsb' 192 64
    let good : Prop := w3.extractLsb' 0 32 = crcWords [w0, w1, w2]
    let id : BitVec 32 := w0.extractLsb' 32 32
    let group := BitVec.ofNat 12 m.lgroup
    (s.cluster c).incoming = sent :: rest → (s.cluster c).members = [m] → clusterTiles c m.mask = [t] →
    ∃ u, exec (.lightBlockHeaderArrive c damage) s = .next u ∧ (u.cluster c).incoming = rest ∧ u.mem = s.mem ∧
      (¬ good → (u.cluster c).drops = (s.cluster c).drops + 1 ∧ (⟨true, 0, 0⟩ : Drop) ∈ (u.tile t).drops ∧
        (u.tile t).slots = (s.tile t).slots) ∧
      (good → (w1.getLsbD (54 + c % 4) = false ∨ m.wgroup ≠ (w0.extractLsb' 4 12).toNat) → u.tiles = s.tiles) ∧
      (good → w1.getLsbD (54 + c % 4) = true → m.wgroup = (w0.extractLsb' 4 12).toNat →
        (slot < 4 → ((s.tile t).slot slot).state = .free → (∀ k, k < slot → ((s.tile t).slot k).state ≠ .free) →
          (u.tile t).slot slot = ⟨.landing, w0.getLsbD 3, group, w0.extractLsb' 16 16, id, writeBytes [] 0 sent.payload, 0,
            w2.extractLsb' 0 32⟩ ∧ .lightBlockLanded t slot [] ∈ u.agenda) ∧
        ((∀ k, k < 4 → ((s.tile t).slot k).state ≠ .free) → (u.cluster c).drops = (s.cluster c).drops + 1 ∧
          (⟨false, group, id⟩ : Drop) ∈ (u.tile t).drops))) ∧
  (∀ (s : State) (t n : Nat) (damage : List (Nat × Byte)), let x := (s.tile t).slot n
    let y := damagedPayload x.payload damage
    x.state = .landing →
    (crc32 (readBytes y 0 4096) = x.crc → ∃ u, exec (.lightBlockLanded t n damage) s = .next u ∧
      u.tile t = (s.tile t).setSlot n { x with state := .full, payload := y } ∧ u.mem = s.mem) ∧
    (crc32 (readBytes y 0 4096) ≠ x.crc → ∃ u, exec (.lightBlockLanded t n damage) s = .next u ∧
      (u.tile t).slot n = { x with state := .free } ∧ (⟨false, x.group, x.blockId⟩ : Drop) ∈ (u.tile t).drops ∧
      (u.cluster (clusterOf t)).drops = (s.cluster (clusterOf t)).drops + 1) ∧
    damagedPayload x.payload [] = x.payload ∧
    ∀ k e, k < 4096 → e < 4096 → readByte (damagedPayload x.payload [(k, 1)]) e = readByte x.payload e ^^^ (if e = k then 1 else 0)) ∧
  (∀ (s : State) (h : BitVec 32) (n : Nat) (p : FPort) (g : Group), let r := s.region h
    s.live h = true → r.phase = .running → r.ports = [(n, p)] → p.groups = [g] →
    ∃ u, exec (.releaseTokenArrive h g.lgroup) s = .next u ∧ u.tiles = s.tiles ∧ .faceplateBlockSend h n ∈ u.agenda ∧
      ((u.region h).port n).groups = [{ g with mrel := BitVec.ofNat 32 (s.leastReleased r g) }])

/-- The route and network instructions. -/
def Obligations.RouteAndNetworkInstructions : Prop := Claims.RouteInstructions ∧ Claims.NetworkInstructions

/-- The policy-version registry (R48 to R50, R263 to R265, R375): PVGET, PVPIN and PVUNPIN, publishing, PVSWITCH, which replaces a pending
switch and gives its reference back, and the switch at a pass boundary, PVTAG, and version admission. -/
def Obligations.VersionRules : Prop :=
  (∀ (s : State) (d a : BitVec 6) (imm : BitVec 32) (n : Nat),
    let t := s.curTile
    let h := t.handle
    let v := s.curStrand.rg a
    let w := v.toNat % 64
    let x := s.weights w
    let p := s.curRegion.pvOf w
    let word (x : WeightSet) (p : PvBind) : Word := BitVec.ofNat 64
      (x.published * 2 ^ 48 + p.bound * 2 ^ 32 + min (x.count p.bound) 0xFFFF * 2 ^ 16 + p.pending.getD 0)
    let named := v.toNat / 2 ^ 16 % 2 ^ 16
    let ver := if named = 0 then p.bound else named
    let target := if named = 0 then x.published else named
    let tr (c : Cause) (v : Word) : Host.Outcome State Fault Refusal := .next (takeTrap s c v s.curStrand.pc)
    let switched (pass : Nat) (u : State) : Prop := u.curStrand = goneOn (s.curStrand.wg d (BitVec.ofNat 64
      (p.bound * 2 ^ 48 + target * 2 ^ 32 + pass % 2 ^ 32))) ∧ u.mem = s.mem
    (Ready s [d] → exec (.pvgetI d imm) s = .next (wrote s d (word (s.weights (imm.toNat % 64)) (s.curRegion.pvOf (imm.toNat % 64))))) ∧
    (Ready s [d, a] → exec (.pvget d a) s = .next (wrote s d (word x p)) ∧
      (x.holder ver = none → exec (.pvpin d a) s = tr .versionRetired v) ∧
      (x.holder ver ≠ none → (∀ k, k < 8 → (tabGet Pin.idle t.pins k).valid = true) →
        exec (.pvpin d a) s = tr .pvState (1 * 2 ^ 48)) ∧
      (x.holder ver ≠ none → n < 8 → (tabGet Pin.idle t.pins n).valid = false → (∀ k, k < n → (tabGet Pin.idle t.pins k).valid = true) →
        ∃ u, exec (.pvpin d a) s = .next u ∧ tabGet Pin.idle u.curTile.pins n = ⟨true, w, BitVec.ofNat 16 ver⟩ ∧
          u.curStrand = goneOn (s.curStrand.wg d (BitVec.ofNat 64 n)) ∧ (u.weights w).count ver = x.count ver + 1 ∧
          u.mem = s.mem ∧ u.regions = s.regions)) ∧
    (Ready s [a] → let p := tabGet Pin.idle t.pins (v.toNat % 8)
      (p.valid = false → exec (.pvunpin a) s = .next (passed s)) ∧
      (p.valid = true → p.version ≠ 0 → ∃ u, exec (.pvunpin a) s = .next u ∧
        (tabGet Pin.idle u.curTile.pins (v.toNat % 8)).valid = false ∧ u.curStrand = goneOn s.curStrand ∧
        (u.weights p.wset).count p.version.toNat = (s.weights p.wset).count p.version.toNat - 1)) ∧
    (Ready s [d, a] → x.published = 0xFFFF → exec (.pvpubRes d a) s = tr .pvState (3 * 2 ^ 48)) ∧
    (Ready s [d, a] → x.published ≠ 0xFFFF → (x.reserved ≠ none ∨ x.freeSlot = none) → exec (.pvpubRes d a) s = .next (waitHere s)) ∧
    (Ready s [d, a] → x.published ≠ 0xFFFF → x.reserved = none → x.freeSlot = some n → ∃ u, exec (.pvpubRes d a) s = .next u ∧
      u.weights w = { x with reserved := some (h, n) } ∧ u.tiles = (wrote s d ((x.slot n).va.zeroExtend 64)).tiles ∧ u.mem = s.mem) ∧
    (Ready s [d, a] → (∀ k, x.reserved ≠ some (h, k)) → exec (.pvpubCom d a) s = tr .pvState (2 * 2 ^ 48)) ∧
    (Ready s [d, a] → x.reserved = some (h, n) → x.published < 0xFFFF → ∃ u, exec (.pvpubCom d a) s = .next u ∧
      (u.weights w).published = x.published + 1 ∧ (u.weights w).reserved = none ∧
      ((u.weights w).slot n).version = x.published + 1 ∧
      u.curStrand = goneOn (s.curStrand.wg d (BitVec.ofNat 64 (x.published + 1))) ∧ u.mem = (s.releaseAt s.cur.tile .waf).mem) ∧
    (Ready s [d, a] → (x.holder target = none → exec (.pvswitch d a) s = tr .versionRetired v) ∧
      (x.holder target ≠ none →
        (p.bound = 0 → p.started = false → p.pending = none → ∃ u, exec (.pvswitch d a) s = .next u ∧ switched 0 u ∧
          u.curRegion.pvOf w = { p with reads := true, bound := target } ∧ (u.weights w).count target = x.count target + 1) ∧
        (p.bound = target → p.bound ≠ 0 → p.pending = none → ∃ u, exec (.pvswitch d a) s = .next u ∧ switched p.passes u ∧
          u.curRegion.pvOf w = p ∧ u.weights w = x) ∧
        (p.bound ≠ target → p.bound ≠ 0 ∨ p.started = true → p.pending = none → ∃ u, exec (.pvswitch d a) s = .next u ∧
          switched p.passes u ∧ u.curRegion.pvOf w = { p with reads := true, pending := some target } ∧
          (u.weights w).count target = x.count target + 1) ∧
        (∀ q, p.bound ≠ 0 ∨ p.started = true → p.pending = some q → q ≠ 0 → ∃ u, exec (.pvswitch d a) s = .next u ∧
          switched p.passes u ∧ u.curRegion.pvOf w = { p with reads := true, pending := some target } ∧
          (target = q → (u.weights w).count q = x.count q) ∧
          (target ≠ q → (u.weights w).count target = x.count target + 1 ∧ (u.weights w).count q = x.count q - 1 ∧
            (x.count q = 1 → q ≠ x.published → ∀ k, x.holder q = some k → ((u.weights w).slot k).version = 0))))) ∧
    (Ready s [d, a] → let z := s.curStrand
      exec (.pvtag d a) s = .next (became s { z.wg d (BitVec.ofNat 64 ((if z.trackValid then z.trackVer.toNat else 0) * 2 ^ 48 +
        (if z.trackMixed then 2 ^ 47 else 0) + v.toNat % 2 ^ 47)) with trackValid := false, trackVer := 0, trackMixed := false }))) ∧
  (∀ (s : State) (h : BitVec 32) (w v : Nat), s.live h = true → ((s.region h).pvOf w).pending = some v →
    ∃ u, exec (.passBoundarySwitch h w) s = .next u ∧ ((u.region h).pvOf w).bound = v ∧ ((u.region h).pvOf w).pending = none ∧
      u.tiles = s.tiles ∧ u.mem = s.mem) ∧
  (∀ (s : State) (h : BitVec 32), let r := s.region h
    s.live h = true → 0 < r.info.maxLag → ∃ u, exec (.versionLag h) s = .next u ∧ u.tiles = s.tiles ∧
      u.region h = { r with versionOpen := decide (s.lag r ≤ r.info.maxLag) } ∧
      (s.lag r ≤ r.info.maxLag → u.hostMem = s.hostMem ∧ u.events = s.events))

/-- Barriers and the gradient arm (R259, R260, R269, R270): BAR of COUNT 0 passes with 0; the first try arrives, and the strand resumes
with the status of its generation; the COUNT-th arrival passes the generation, and an arrival with another COUNT fails it;
BARRIER_PASS tells the waiters and ends an arm; SRSEED sets a draw counter. -/
def Obligations.BarrierRules : Prop :=
  (∀ (s : State) (d a bar : BitVec 6) (sync : Bool) (count : BitVec 16) (gen st left : Nat),
    let x := s.curRegion.barrier bar.toNat
    let n := count.toNat
    let o := exec (.barI d bar sync count) s
    let v := s.curStrand.rg a
    let after (y : Barrier) (pass : Bool) : Prop := ∃ u, o = .next u ∧ u.curStrand = { s.curStrand with hold := .arrived x.gen } ∧
      u.curRegion.barrier bar.toNat = y ∧ (pass → .barrierPass s.curTile.handle bar.toNat ∈ u.agenda) ∧
      (sync = false → u.mem = s.mem)
    (Free s [d, a] → v.toNat % 64 = bar.toNat → v.toNat / 2 ^ 16 % 2 ^ 16 = n → exec (.bar d a sync) s = o) ∧
    (Ready s [d] → n = 0 → o = .next (wrote s d 0)) ∧
    (Ready s [d] → n ≠ 0 → s.curStrand.hold = .none →
      (x.arrived = 0 ∨ x.count = n → x.arrived + 1 = n →
        after { x with gen := x.gen + 1, count := 0, arrived := 0, passing := x.passing ++ [(x.gen, ⟨0, n⟩)] } true) ∧
      (x.arrived = 0 ∨ x.count = n → x.arrived + 1 ≠ n → after { x with count := n, arrived := x.arrived + 1 } false) ∧
      (x.arrived ≠ 0 → x.count ≠ n →
        after { x with gen := x.gen + 1, count := 0, arrived := 0, passing := x.passing ++ [(x.gen, ⟨2, x.arrived + 1⟩)] } true)) ∧
    (Ready s [d] → n ≠ 0 → s.curStrand.hold = .arrived gen →
      (tabGet ⟨0, 0⟩ x.done gen = ⟨st, 0⟩ → o = .next s) ∧
      (tabGet ⟨0, 0⟩ x.done gen = ⟨st, left + 1⟩ → ∃ u, o = .next u ∧ u.curStrand = goneOn (s.curStrand.wg d (BitVec.ofNat 64 st)) ∧
        (tabGet ⟨0, 0⟩ (u.curRegion.barrier bar.toNat).done gen).left = left ∧ (sync = false → u.mem = s.mem)))) ∧
  (∀ (s : State) (h : BitVec 32) (b gen : Nat) (d : BarDone) (rest : List (Nat × BarDone)),
    ((s.region h).barrier b).passing = (gen, d) :: rest → ∃ u, exec (.barrierPass h b) s = .next u ∧
      ((u.region h).barrier b).passing = rest ∧ tabGet ⟨0, 0⟩ ((u.region h).barrier b).done gen = d ∧
      ((s.region h).arm = some b → (u.region h).arm = none ∧ ∀ t ∈ (s.region h).tiles, (u.tile t).armed = none) ∧
      ((s.region h).arm ≠ some b → u.tiles = s.tiles)) ∧
  (∀ (s : State) (bar : BitVec 6), Ready s [] → ∃ u, exec (.gradarm bar) s = .next u ∧ u.curStrand = goneOn s.curStrand ∧
    u.curRegion = { s.curRegion with arm := some bar.toNat } ∧ ∀ t ∈ s.curRegion.tiles, .gradarmArrive t ∈ u.agenda) ∧
  (∀ (s : State) (t : Nat), (s.tile t).bound ≠ none → ∃ u, exec (.gradarmArrive t) s = .next u ∧
    u.tile t = { s.tile t with armed := (s.regionOf t).arm } ∧ .firingDispatch t ∈ u.agenda ∧ u.mem = s.mem) ∧
  (∀ (s : State) (a : BitVec 6) (sub : BitVec 3), Ready s [a] → let t := s.curTile
    let ok : Prop := (sub = 6 → t.spindle.entries = [] ∧ t.spindle.runs = []) ∧ (sub = 7 → t.matrix.queue = [])
    (¬ ok → exec (.srseed a sub) s = .next s) ∧
    (ok → ∃ u, exec (.srseed a sub) s = .next u ∧ u.curStrand = goneOn s.curStrand ∧ u.mem = s.mem ∧
      ∀ k, tabGet 0 u.curTile.draws k = if k = sub.toNat then (s.curStrand.rg a).truncate 48 else tabGet 0 t.draws k))

/-- STASH and UNSTASH (R38, R267, R268, R309, R373, R374): a header may name a version that is present, whose count then rises; a stash slot
takes the header and the data, or victim frames when every slot is live; UNSTASH gives back the oldest entry of a micro-batch and weight
set with its header, from the slot or from its frames; that the recall of an entry from victim frames is a part of the instruction's own
step is the model's reading (LOG 115 DEDUCED); and a gang whose tiles are all relieved admits again, the tiles of a frozen region as they
were saved. -/
def Obligations.StashRules : Prop :=
  (∀ (s : State) (d a b : BitVec 6) (k i : Nat) (e : StashEntry),
    let t := s.curTile
    let x := t.stash
    let off := (s.curStrand.rg a).toNat
    let hdr := s.curStrand.rg b
    let key := hdr.toNat
    let n := hdr.toNat % 2 ^ 26
    let v := hdr.toNat / 2 ^ 32 % 2 ^ 16
    let st (o : Host.Outcome State Fault Refusal) (c : Nat) : Prop := o = .next (takeTrap s .stashState (BitVec.ofNat 64 (c * 2 ^ 48)) s.curStrand.pc)
    (Ready s [a, b] →
      (off % 8 ≠ 0 → exec (.stash a b) s = .next (takeTrap s .misaligned (BitVec.ofNat 64 off) s.curStrand.pc)) ∧
      (off % 8 = 0 → x.handle.slotBytes < n + 8 → st (exec (.stash a b) s) 1) ∧
      (off % 8 = 0 → n + 8 ≤ x.handle.slotBytes → x.capacity = 0 → st (exec (.stash a b) s) 2) ∧
      (off % 8 = 0 → n + 8 ≤ x.handle.slotBytes → x.capacity ≠ 0 → v = 0 → t.spadFault off n false = none → x.freeSlot = some k →
        ∃ u, exec (.stash a b) s = .next u ∧ u.curStrand = goneOn s.curStrand ∧ u.mem = s.mem ∧
          u.curTile.spad = (t.spadWrite (x.handle.base.toNat + k * x.handle.slotBytes) (natLe 8 hdr.toNat ++ t.spadBytes off n)).spad ∧
          u.curTile.stash = { x with entries := x.entries ++ [⟨hdr, some k, [], []⟩] }) ∧
      (off % 8 = 0 → n + 8 ≤ x.handle.slotBytes → x.capacity ≠ 0 → v ≠ 0 →
        let set := hdr.toNat / 2 ^ 26 % 64
        (s.accepted.getLsbD 5 = false ∨ (∀ j, j < 4 → ((s.weights set).slot j).version ≠ v) →
          exec (.stash a b) s = .next (takeTrap s .versionRetired hdr s.curStrand.pc)) ∧
        (s.accepted.getLsbD 5 = true → (∃ j, j < 4 ∧ ((s.weights set).slot j).version = v) → t.spadFault off n false = none →
          x.freeSlot = some k →
          ∃ u, exec (.stash a b) s = .next u ∧ u.curStrand = goneOn s.curStrand ∧ u.mem = s.mem ∧
            u.curTile.stash = { x with entries := x.entries ++ [⟨hdr, some k, [], []⟩] } ∧
            (u.weights set).count v = (s.weights set).count v + 1)) ∧
      (off % 8 = 0 → n + 8 ≤ x.handle.slotBytes → x.capacity ≠ 0 → v = 0 → t.spadFault off n false = none → x.freeSlot = none →
        ∀ fs s1, takeFrames (entryFrames n) s = some (fs, s1) →
        ∃ u, exec (.stash a b) s = .next u ∧ u.curStrand = goneOn s.curStrand ∧ u.mem = s.mem ∧ u.curTile.spad = t.spad ∧
          fs.length = (n + 8 + 16383) / 16384 ∧ (∀ f ∈ fs, tabGet false s.frames f = false ∧ tabGet false u.frames f = true) ∧
          (∀ f, f ∉ fs → tabGet false u.frames f = tabGet false s.frames f) ∧
          ∃ kept, u.curTile.stash = { x with entries := x.entries ++ [⟨hdr, none, kept, fs⟩] } ∧
            readBytes kept 0 n = t.spadBytes off n) ∧
      (off % 8 = 0 → n + 8 ≤ x.handle.slotBytes → x.capacity ≠ 0 → v = 0 → t.spadFault off n false = none → x.freeSlot = none →
        takeFrames (entryFrames n) s = none → ∃ u, exec (.stash a b) s = .next u ∧ u.curStrand.hold = .stashing ∧
          u.curStrand.pc = s.curStrand.pc ∧ u.mem = s.mem ∧
          (s.curStrand.hold ≠ .stashing → s.curRegion.info.gangTag = 0 → u.curRegion.stashOpen = false))) ∧
    (Ready s [d, a, b] →
      (off % 8 = 0 → (∀ e ∈ x.entries, e.header.toNat / 2 ^ 48 ≠ key % 2 ^ 16 ∨ e.header.toNat / 2 ^ 26 % 64 ≠ key / 2 ^ 16 % 64) →
        st (exec (.unstash d a b) s) 3) ∧
      (off % 8 = 0 → x.entries[i]? = some e → e.header.toNat / 2 ^ 48 = key % 2 ^ 16 → e.header.toNat / 2 ^ 26 % 64 = key / 2 ^ 16 % 64 →
        (∀ j f, j < i → x.entries[j]? = some f →
          f.header.toNat / 2 ^ 48 ≠ key % 2 ^ 16 ∨ f.header.toNat / 2 ^ 26 % 64 ≠ key / 2 ^ 16 % 64) →
        e.slot = some k → e.frames = [] → t.spadFault off (e.header.toNat % 2 ^ 26) true = none →
        ∃ u, exec (.unstash d a b) s = .next u ∧ u.curStrand = goneOn (s.curStrand.wg d e.header) ∧ u.mem = s.mem ∧
          u.curTile.spad = (t.spadWrite off (readBytes t.spad (x.handle.base.toNat + k * x.handle.slotBytes + 8)
            (e.header.toNat % 2 ^ 26))).spad ∧
          u.curTile.stash = { x with entries := x.entries.take i ++ x.entries.drop (i + 1) }) ∧
      (off % 8 = 0 → x.entries[i]? = some e → e.header.toNat / 2 ^ 48 = key % 2 ^ 16 → e.header.toNat / 2 ^ 26 % 64 = key / 2 ^ 16 % 64 →
        (∀ j f, j < i → x.entries[j]? = some f →
          f.header.toNat / 2 ^ 48 ≠ key % 2 ^ 16 ∨ f.header.toNat / 2 ^ 26 % 64 ≠ key / 2 ^ 16 % 64) →
        e.slot = none → t.spadFault off (e.header.toNat % 2 ^ 26) true = none →
        ∃ u, exec (.unstash d a b) s = .next u ∧ u.curStrand = goneOn (s.curStrand.wg d e.header) ∧ u.mem = s.mem ∧
          u.curTile.spad = (t.spadWrite off (readBytes e.data 0 (e.header.toNat % 2 ^ 26))).spad ∧
          (∀ f, tabGet false u.frames f = (!e.frames.contains f && tabGet false s.frames f)) ∧
          u.curTile.stash = { x with entries := x.entries.take i ++ x.entries.drop (i + 1) }))) ∧
  (∀ (s : State) (h : BitVec 32),
    let r := s.region h
    let own : List Tile := (if r.awaiting || r.phase == .frozen then [] else r.tiles.map s.tile) ++ r.saved.map (·.2)
    s.live h = true → r.stashOpen = false → r.info.gangTag = 0 →
    ((∀ t ∈ own, 4 * t.stash.fill ≤ 3 * t.stash.capacity ∧ ∀ e ∈ t.stash.entries, e.slot ≠ none) →
      ∃ u, exec (.stashRelief h) s = .next u ∧ (u.region h).stashOpen = true ∧ .seedDelivery h ∈ u.agenda ∧ u.tiles = s.tiles) ∧
    ((∃ t ∈ own, 3 * t.stash.capacity < 4 * t.stash.fill ∨ ∃ e ∈ t.stash.entries, e.slot = none) → exec (.stashRelief h) s = .next s))

/-- COPY, the completion objects that CTEST and CWAIT read, and the elements that the copy engine moves (R66, R71, R153, R271 to R275,
R288, R300, Table 2.6): COPY's checks in the model's order (LOG 58 DEDUCED) and its entry; an element is read from its side, converted
with saturation, and written to the other, scratchpad or the home, never an L1, packed bytes after the last element written 0; one of FMT 0
is one byte; an element for an arrival stream joins the stream too, with exception bit 0 (LOG 32 DEDUCED), and a full stream holds the
operation. CTEST that finds the object done, and CWAIT, join it: what its operation and every earlier one wrote is what the tile reads but
where its own L1 holds a dirty byte (LOG 104 DEDUCED). -/
def Sys2Proof.Claims.CopyEngine : Prop :=
  (∀ (s : State) (d a b c : BitVec 6) (dsp ssp : Bool) (rnd : Rnd) (st : BitVec 3), Ready s [d, a, b, c] →
    let t := s.curTile
    let x := t.copy
    let dst := s.curStrand.rg a
    let src := s.curStrand.rg b
    let n := (s.curStrand.rg c).toNat % 2 ^ 32
    let o (arrive : Bool) := exec (.copy d a b c dsp ssp rnd arrive st) s
    let tr (c : Cause) (v : Word) : Host.Outcome State Fault Refusal := .next (takeTrap s c v s.curStrand.pc)
    let fmt (p : Word) : Nat := p.toNat / 2 ^ 59
    let addr (p : Word) : Nat := p.toNat % 2 ^ 56
    let fits (spad : Bool) (p : Word) : Prop := spad = true → t.extentOk (addr p) (extentBytes p n) = true
    let even (p : Word) : Prop := addr p % (if fmt p = 7 ∨ fmt p = 9 then 1 else fmtBytes (fmt p)) = 0
    (10 ≤ fmt dst → o false = tr .formatReserved dst) ∧
    (fmt dst < 10 → 10 ≤ fmt src → o false = tr .formatReserved src) ∧
    (fmt dst < 10 → fmt src < 10 → (fmt dst = 0 ↔ fmt src ≠ 0) → o false = tr .copyOperand (1 * 2 ^ 48)) ∧
    (fmt dst < 10 → fmt src < 10 → (fmt dst = 0 ↔ fmt src = 0) →
      (¬ fits dsp dst → o false = tr .spadRange (BitVec.ofNat 64 (addr dst))) ∧
      (fits dsp dst → ¬ fits ssp src → o false = tr .spadRange (BitVec.ofNat 64 (addr src))) ∧
      (fits dsp dst → fits ssp src → ¬ even dst → o false = tr .misaligned (BitVec.ofNat 64 (addr dst))) ∧
      (fits dsp dst → fits ssp src → even dst → ¬ even src → o false = tr .misaligned (BitVec.ofNat 64 (addr src))) ∧
      (fits dsp dst → fits ssp src → even dst → even src →
        (t.bindsStream st.toNat = false → o true = tr .copyOperand (3 * 2 ^ 48)) ∧
        (16 ≤ x.ops.length → o false = .next (waitHere s) ∧ (t.bindsStream st.toNat = true → o true = .next (waitHere s))) ∧
        (∀ arrive, x.ops.length < 16 → (arrive = true → t.bindsStream st.toNat = true) → ∃ u, o arrive = .next u ∧ u.curTile =
          { t.setStrand s.cur.strand (goneOn (s.curStrand.wg d (x.issued.zeroExtend 64))) with
            copy := { x with ops := x.ops ++ [⟨dst, src, dsp, ssp, n, (arithMode rnd s.curStrand).code,
              if arrive then some st.toNat else none, 0⟩], issued := x.issued + 1 } } ∧
          .copyOperation s.cur.tile ∈ u.agenda ∧ u.mem = s.mem ∧ u.regions = s.regions)))) ∧
  (∀ (s : State) (d a : BitVec 6), Ready s [d, a] →
    let x := s.curTile.copy
    let v := s.curStrand.rg a
    let f := (s.curTile.chunk (v.toNat / 2 ^ 32 % 4)).fires
    let passed_ (a b : BitVec 32) : Prop := (a - b).toNat < 2 ^ 31
    let low : BitVec 32 := v.truncate 32
    let tells (n : Word) : Prop := exec (.ctest d a) s = .next (wrote s d n) ∧
      exec (.cwait d a) s = .next (if n = 1 then wrote s d 0 else if n = 2 then wrote s d 2 else waitHere s)
    let joins : Prop := exec (.ctest d a) s = .next (wrote (s.join s.cur.tile v) d 1) ∧
      exec (.cwait d a) s = .next (wrote (s.join s.cur.tile v) d 0)
    (v.toNat < 2 ^ 32 → passed_ low x.issued → tells 2) ∧
    (v.toNat < 2 ^ 32 → ¬ passed_ low x.issued → passed_ x.completed (low + 1) → joins) ∧
    (v.toNat < 2 ^ 32 → ¬ passed_ low x.issued → ¬ passed_ x.completed (low + 1) → tells 0) ∧
    (v.toNat / 2 ^ 34 = 2 ^ 28 → passed_ f low → tells 1) ∧
    (v.toNat / 2 ^ 34 = 2 ^ 28 → ¬ passed_ f low → tells 0) ∧
    (2 ^ 63 ≤ v.toNat → tells 2)) ∧
  (∀ (s : State) (t pa : Nat) (o : Word), o.toNat < 2 ^ 32 →
    let x := (s.tile t).copy
    let u := s.join t o
    let past (e : BitVec 32 × Nat) : Prop := ((o.truncate 32 : BitVec 32) - e.1).toNat < 2 ^ 31
    u.mem = s.mem ∧ u.regions = s.regions ∧ (u.tile t).strands = (s.tile t).strands ∧ (u.tile t).spad = (s.tile t).spad ∧
    (∀ n, n ≠ t → u.tile n = s.tile n) ∧ (∀ e, e ∈ (u.tile t).copy.wrote ↔ e ∈ x.wrote ∧ ¬ past e) ∧
    (DirtyAt u t pa ↔ DirtyAt s t pa) ∧
    (DirtyAt s t pa ∨ (∀ e ∈ x.wrote, past e → e.2 ≠ pa / 32) → seenAt u t pa = seenAt s t pa) ∧
    ((∃ e ∈ x.wrote, past e ∧ e.2 = pa / 32) → ¬ DirtyAt s t pa → pa ∉ s.uncorr → seenAt u t pa = readByte s.mem pa)) ∧
  (∀ (s : State) (t : Nat) (op : CopyOp) (u : State) (m : Option Mark), let x := s.tile t
    s.active t = true → x.copy.ops = [op] → x.copy.fault = none →
    (op.count ≤ op.next → ∃ v, exec (.copyOperation t) s = .next v ∧ v.mem = s.mem ∧
      v.tile t = { x with copy := { x.copy with ops := [], completed := x.copy.completed + 1 } }) ∧
    (∀ st, op.stream = some st → op.next < op.count → x.portRoom (arrivePort st) = 0 →
      exec (.copyOperation t) s = .next (s.ask (.copyOperation t))) ∧
    (op.next + 1 = op.count → (∀ st, op.stream = some st → x.portRoom (arrivePort st) ≠ 0) → copyElement s t op = .ok u () →
      ∃ v, exec (.copyOperation t) s = .next v ∧ (v.tile t).ports = (u.tile t).ports ∧ v.mem = u.mem ∧ (v.tile t).spad = (u.tile t).spad ∧ (v.tile t).l1 = (u.tile t).l1 ∧ (v.tile t).kflags = (u.tile t).kflags ∧
      (v.tile t).copy = { (u.tile t).copy with ops := [], completed := (u.tile t).copy.completed + 1 }) ∧
    (op.next < op.count → (∀ st, op.stream = some st → x.portRoom (arrivePort st) ≠ 0) → copyElement s t op = .hold u m → ∃ v, exec (.copyOperation t) s = .next v ∧
      v.mem = u.mem ∧ (v.tile t).copy = { (u.tile t).copy with fault := m }) ∧
    (op.dsp = true → op.ssp = true → op.count = 1 → op.next = 0 → op.stream = none → op.dst.toNat < 0xC0000 → op.src.toNat < 0xC0000 →
      ∃ v, exec (.copyOperation t) s = .next v ∧ v.mem = s.mem ∧ (v.tile t).copy.ops = [] ∧
        (v.tile t).copy.completed = x.copy.completed + 1 ∧
        readByte (v.tile t).spad op.dst.toNat = readByte x.spad op.src.toNat ∧
        ∀ o, o ≠ op.dst.toNat → readByte (v.tile t).spad o = readByte x.spad o)) ∧
  (∀ (s s1 s2 : State) (t : Nat) (op : CopyOp) (ssc sp dsc dp : List Nat) (se sv de old : List Byte),
    let sf := op.src.toNat / 2 ^ 59
    let df := op.dst.toNat / 2 ^ 59
    let packed : Prop := df = 7 ∨ df = 8 ∨ df = 9
    elemPlaces s t op.next op.ssp false op.src = .ok s1 (ssc, sp) → elemPlaces s1 t op.next op.dsp true op.dst = .ok s2 (dsc, dp) →
    copyRead s2 t op.ssp ssc = some se → copyRead s2 t op.ssp sp = some sv → copyRead s2 t op.dsp dsc = some de →
    (packed → copyRead s2 t op.dsp dp = some old) → (¬ packed → old = []) → dp.Nodup →
    let k := (elemAt op.dst (op.next : Int)).fieldNo
    let value := copyConvert sf df (RMode.ofCode op.mode) (leNat se) (leNat de) (elemCode sf (elemAt op.src (op.next : Int)).fieldNo (leNat sv))
    let put := elemPut df k (leNat old) value.bits
    let raw := if op.next + 1 = op.count then padLast df k put else put
    ∃ u, copyElement s t op = .ok u () ∧ (u.tile t).kflags = ((s2.tile t).raise value.fl fSRCSCAL).kflags ∧
      (u.tile t).copy = { (s2.tile t).copy with wrote := (u.tile t).copy.wrote } ∧ (u.tile t).l1 = (s2.tile t).l1 ∧
      (op.stream = none → (u.tile t).ports = (s2.tile t).ports) ∧
      (∀ st, op.stream = some st → (u.tile t).port (arrivePort st) = (s2.tile t).port (arrivePort st) ++
        [⟨if df = 0 then BitVec.ofNat 64 value.bits else cvtPlace (fmtOf df) value.bits, false, false, Token.idle.origin⟩]) ∧
      (∀ i p, dp[i]? = some p →
        let byte : Byte := BitVec.ofNat 8 (raw / 2 ^ (8 * i))
        (op.dsp = true → readByte (u.tile t).spad p = byte) ∧
        (op.dsp = false → readByte u.mem p = byte ∧ ((s2.tile t).copy.completed, p / 32) ∈ (u.tile t).copy.wrote)) ∧
      (op.dsp = true → u.mem = s2.mem ∧ (u.tile t).copy = (s2.tile t).copy ∧ ∀ o, o ∉ dp → readByte (u.tile t).spad o = readByte (s2.tile t).spad o) ∧
      (op.dsp = false → (u.tile t).spad = (s2.tile t).spad ∧ ∀ o, o ∉ dp → readByte u.mem o = readByte s2.mem o)) ∧
  (∀ k raw : Nat, padLast 8 k raw = raw % 16 ^ (k + 1) ∧ padLast 7 k raw = raw % 64 ^ (k + 1) ∧ padLast 9 k raw = raw % 64 ^ (k + 1))

/-- BWDDERIVE (R286, R419): a privileged instruction that writes the derived image, whose header bit and digest follow from the forward
image, and its length in frames to g[OPD]. It aborts at the first element with no template, whose target address g[OPD] then names with bit
63 set, nothing beyond the header frames written. Which corners the derivation settles is the model's reading (LOG 73 DEDUCED), and that
the frames go through the tile's L1 as a strand's accesses do (LOG 123 DEDUCED). -/
def Sys2Proof.Claims.BackwardDerivation : Prop :=
  (∀ (s : State) (d a b c : BitVec 6), Ready s [d, a, b, c] → s.curStrand.priv = false →
    exec (.bwdderive d a b c) s = .next (takeTrap s .privilege s.word s.curStrand.pc)) ∧
  (∀ (s : State) (d a b c : BitVec 6) (p0 pf pt po : List (BitVec 56 × Nat)) (s0 s1 s2 s3 s4 s5 s6 : State) (h : Frame)
      (im tbl fs : List Frame), Ready s [d, a, b, c] → s.curStrand.priv = true →
    let va : BitVec 56 := (s.curStrand.rg a).truncate 56
    let vb : BitVec 56 := (s.curStrand.rg b).truncate 56
    let vc : BitVec 56 := (s.curStrand.rg c).truncate 56
    let n := imageFrames h
    rangePas s va 32 false = .ok (s0, p0) → derFrames p0 va 1 s0 = .ok (s1, [h]) → rangePas s1 va (32 * n) false = .ok (s2, pf) →
    rangePas s2 vc (32 * 257) false = .ok (s3, pt) → rangePas s3 vb (32 * n) true = .ok (s4, po) → derFrames pf va n s4 = .ok (s5, im) →
    derFrames pt vc 257 s5 = .ok (s6, tbl) →
    let ends (fs : List Frame) (v : Nat) : Prop := exec (.bwdderive d a b c) s =
      .next (retire ((derWrite po vb fs s6).setCur ((derWrite po vb fs s6).curStrand.wg d (BitVec.ofNat 64 v))))
    (derive (s6.feature 6) tbl im = .ok fs → ends fs (n % 2 ^ 32)) ∧
    (∀ target, derive (s6.feature 6) tbl im = .error (target, fs) → ends fs (2 ^ 63 + target))) ∧
  (∀ (sr : Bool) (tbl im fs : List Frame) (target : Nat), derive sr tbl im = .error (target, fs) → fs ≠ [] →
    fs = [frameAt im 0 ^^^ BitVec.ofNat 256 (2 ^ 223), frameAt im 1, frameAt im 2] ∧
    let none_ (x : Payload) : Prop := derivePayload tbl (elements (payloads im)) x = none
    ∃ l x r, payloads im = l ++ x :: r ∧ x.target = target ∧ none_ x ∧ ∀ y ∈ l, ¬ none_ y) ∧
  (∀ (sr : Bool) (tbl im fs : List Frame), derive sr tbl im = .ok fs → ∃ body,
    let head := [frameAt im 0 ^^^ BitVec.ofNat 256 (2 ^ 223), frameAt im 1, frameAt im 2]
    fs = head ++ [shaValue ((head ++ body).flatMap fun f => natLe 32 f.toNat)] ++ body)


/-- The copy engine, and backward derivation. -/
def Obligations.CopyRules : Prop := Claims.CopyEngine ∧ Claims.BackwardDerivation

/-- The event queue of a state is another one's after an event of a source has been posted there (R436, R438). -/
def Sys2Proof.Claims.Posted (s : State) (source type : Nat) (body : List Word) (u : State) : Prop :=
  let v := s.post source type body
  u.events = v.events ∧ u.eqTail = v.eqTail ∧ u.hostMem = v.hostMem

/-- Which actor a target kind gives a tile (R18, R368 to R371): a permitted actor has its input rates in tokens and its output rates in space; a
candidate runs no firing and finds its target available. Of the candidates of classes 0 to 2 that have been passed over eight times the one
passed over most is chosen, ties to the lowest index; else the lowest class that has one, by its round-robin pointer; a class-3 actor only
while no actor of classes 0 to 2 is permitted. PASS of an actor of those classes that is not permitted goes back to 0. -/
def Sys2Proof.Claims.ActorChoice : Prop :=
  ∀ (s : State) (t kind i : Nat),
    let x := s.tile t
    let r := s.region x.handle
    let a (j : Nat) : Actor := x.actor j
    let cls (j : Nat) : Nat := if (a j).cls = 3 ∧ x.armed.isSome then 2 else (a j).cls
    let permitted (j : Nat) : Prop := (a j).valid = true ∧ (∀ q ∈ (a j).ins, rateOf (a j).ins q.ch ≤ (r.channel q.ch).tokens) ∧
      ∀ q ∈ (a j).outs, rateOf (a j).outs q.ch ≤ (r.channel q.ch).space
    let cand (j : Nat) : Prop := j < 64 ∧ (a j).target = kind ∧ (a j).running = false ∧ permitted j ∧ s.targetFree t (a j) = true
    let passedOver (j : Nat) : Prop := cand j ∧ cls j ≤ 2 ∧ 8 ≤ (a j).pass
    let firstOf (c : Nat) : Prop :=
      let p := tabGet 0 x.rr c
      (p ≤ i ∧ ∀ j, cand j → cls j = c → p ≤ j → i ≤ j) ∨ (i < p ∧ ∀ j, cand j → cls j = c → j < p ∧ i ≤ j)
    let pick := s.choose t kind
    (∀ j, s.permits t j = true ↔ permitted j) ∧
    (passedOver i → (∀ j, passedOver j → (a j).pass ≤ (a i).pass ∧ ((a j).pass = (a i).pass → i ≤ j)) → pick = some (i, none)) ∧
    ((∀ j, ¬ passedOver j) → cand i → cls i ≤ 2 → (∀ j, cand j → cls i ≤ cls j) → firstOf (cls i) → pick = some (i, some (cls i))) ∧
    ((∀ j, cand j → 3 ≤ cls j) → (∃ j, j < 64 ∧ permitted j ∧ cls j ≤ 2) → pick = none) ∧
    ((∀ j, cand j → 3 ≤ cls j) → (∀ j, j < 64 → permitted j → 3 ≤ cls j) → cand i → cls i = 3 → firstOf 3 → pick = some (i, some 3)) ∧
    ((∀ j, ¬ cand j) → pick = none) ∧
    ((s.clearPass t).tile t).actor i =
      if i < 64 ∧ (a i).valid = true ∧ cls i ≤ 2 ∧ s.permits t i = false then { a i with pass := 0 } else a i

/-- A strand as Table 1.3 sets it for the firing of an actor (R20). -/
def Sys2Proof.Claims.Dispatched (x : Strand) (r : Region) (k : Fin 4) (i : Nat) (a : Actor) (z : Strand) : Prop :=
  z.pc = a.entry ∧ z.p = 0 ∧ z.firing = some ⟨i, a.seq, [], [], []⟩ ∧ z.kscratch = x.kscratch ∧ z.kspill = x.kspill ∧
  (∀ n : BitVec 6, z.rg n = if n = 1 then BitVec.ofNat 64 a.seq else if n = 2 then BitVec.ofNat 64 i else 0) ∧
  (r.defRm < 8 → z.kstatus = BitVec.ofNat 64 (2 ^ 13 + k.val * 2 ^ 11 + r.defRm * 2 ^ 4 + (if r.defDzt then 2 else 0) +
    if x.kstatus.getLsbD 14 then 2 ^ 14 else 0))

/-- What a dispatch of an actor reserves and counts (R18, R369, R370): its rates, one firing, and the PASS of the candidates not picked. -/
def Sys2Proof.Claims.Reserved (s : State) (t kind i : Nat) (c : Option Nat) (u : State) : Prop :=
  let x := s.tile t
  let a := x.actor i
  let z := u.tile t
  .firingDispatch t ∈ u.agenda ∧ u.mem = s.mem ∧ z.lastKind = kind ∧
  (∀ ch, let b := (s.region x.handle).channel ch
    (u.region x.handle).channel ch = { b with tokens := b.tokens - rateOf a.ins ch, space := b.space - rateOf a.outs ch }) ∧
  (z.actor i).running = true ∧ (z.actor i).seq = a.seq + 1 ∧ (z.actor i).pass = 0 ∧
  (∀ j, j ≠ i → z.actor j = if j ∈ s.candidates t kind ∧ x.classOf (x.actor j) ≤ 2
    then { x.actor j with pass := min 15 ((x.actor j).pass + 1) } else x.actor j) ∧
  ∀ n, tabGet 0 z.rr n = if c = some n then i + 1 else tabGet 0 x.rr n

/-- A dispatch (R18, R20, R192, R223, R236, R369, R370, Table 1.3): the kinds are offered in turn after the one that had the last dispatch, and the
actor that one of them gives is dispatched: a strand is set for it; the lane row, the matrix slice or the Inlay takes its entries. Words of a
record whose guard is false do nothing (LOG 28 DESIGN CHOICE), and a firing's entries may join a full queue (LOG 49 DEDUCED). -/
def Sys2Proof.Claims.Dispatches : Prop :=
  ∀ (s : State) (t kind i : Nat) (c : Option Nat),
    let s1 := (s.reportShapes t).clearPass t
    let x := s1.tile t
    let a := x.actor i
    let r := s1.region x.handle
    let go := exec (.firingDispatch t) s
    let offered := (kindsAfter x.lastKind).findSome? fun k => (s1.choose t k).map fun c => (k, c)
    let who : Issuer := ⟨none, i, a.seq, 0⟩
    let e := a.entry.toNat
    kindsAfter 0 = [1, 2, 3, 0] ∧ kindsAfter 1 = [2, 3, 0, 1] ∧ kindsAfter 2 = [3, 0, 1, 2] ∧ kindsAfter 3 = [0, 1, 2, 3] ∧
    ((s.active t && (s.tile t).wave) = false → go = .next s) ∧
    ((s.active t && (s.tile t).wave) = true → offered = none → go = .next s1) ∧
    ((s.active t && (s.tile t).wave) = true → offered = some (kind, i, c) → ∃ u, go = .next u ∧ Claims.Reserved s1 t kind i c u ∧
      let z := u.tile t
      (∀ k, a.target = 0 → x.freeStrand = some k → Claims.Dispatched (x.strand k) r k i a (z.strand k) ∧
        ∀ j, j ≠ k → z.strand j = x.strand j) ∧
      (∀ q rest, a.target = 1 → a.ins = q :: rest → .spindleEntryExecute t ∈ u.agenda ∧
        z.spindle = { x.spindle with
          owner := .firing i, cslot := e % 4, pos := 0, nextRun := x.spindle.nextRun + 1, finished := false
          entries := [.run x.spindle.nextRun (.port 8) (.port 9) (rateOf a.ins q.ch) (a.entry.getLsbD 2) 8 0]
          firing := some ⟨i, a.seq, [], [], []⟩ }) ∧
      (let ops := (x.matrix.recordWords (e % 16)).filterMap recordWordOp
       a.target = 2 → (∀ op ∈ ops, s1.recordFault t op = none) →
        z.matrix = { x.matrix with
          queue := x.matrix.queue ++ ops.map (fun op => ⟨op, who⟩), firing := some ⟨i, a.seq, [], [], []⟩ } ∧
        (ops = [] → .engineFiringCommit t 2 ∈ u.agenda) ∧ (ops ≠ [] → .matrixEntryExecute t ∈ u.agenda)) ∧
      (∀ g v, a.target = 3 → x.inlayGraph a = some g → inlayShape a g = some v →
        z.inlay = { x.inlay with
          queue := x.inlay.queue ++ [⟨.run (.port 10) (e % 4) v, who⟩, ⟨.drain (.port 11) 0 v, who⟩]
          firing := some ⟨i, a.seq, [], [], []⟩ } ∧
        .inlayEntryExecute t ∈ u.agenda))

/-- A tile with one actor, whose target is a strand (R18, R20, R368 to R370, Table 1.3), and the commit of an engine's firing. -/
def Sys2Proof.Claims.OneActor : Prop :=
  (∀ (s : State) (t i ci co ri ro : Nat) (k : Fin 4),
    let x := s.tile t
    let a := x.actor i
    let r := s.region x.handle
    (s.active t && x.wave) = true → x.actorList = [i] → a.target = 0 → a.cls ≤ 3 → a.running = false → x.freeStrand = some k →
    a.ins = [⟨ci, ri⟩] → a.outs = [⟨co, ro⟩] → ci ≠ co → r.defRm < 8 → ri ≤ (r.channel ci).tokens → ro ≤ (r.channel co).space →
    ∃ u, exec (.firingDispatch t) s = .next u ∧
      (u.region x.handle).channel ci = { r.channel ci with tokens := (r.channel ci).tokens - ri } ∧
      (u.region x.handle).channel co = { r.channel co with space := (r.channel co).space - ro } ∧
      ((u.tile t).actor i).running = true ∧ ((u.tile t).actor i).seq = a.seq + 1 ∧ ((u.tile t).actor i).pass = 0 ∧
      .firingDispatch t ∈ u.agenda ∧ u.mem = s.mem ∧
      let z := (u.tile t).strand k
      Claims.Dispatched (x.strand k) r k i a z ∧ z.kstatus.getLsbD 13 = true ∧ z.kstatus.getLsbD 0 = false ∧
      z.kstatus.getLsbD 14 = (x.strand k).kstatus.getLsbD 14 ∧ z.kstatus.extractLsb' 4 3 = BitVec.ofNat 3 r.defRm ∧
      z.kstatus.getLsbD 1 = r.defDzt ∧ z.kstatus.getLsbD 3 = false ∧ z.kstatus.getLsbD 7 = false ∧ z.kstatus.getLsbD 15 = false) ∧
  (∀ (s : State) (t : Nat), s.active t = false ∨ (s.tile t).wave = false → exec (.firingDispatch t) s = .next s) ∧
  (∀ (s : State) (t : Nat) (f : Firing), let x := s.tile t
    s.active t = true →
    (x.spindle.firing = some f → x.spindle.finished = true → ∃ u, exec (.engineFiringCommit t 1) s = .next u ∧
      (u.tile t).spindle.firing = none ∧ ((u.tile t).actor f.actor).running = false ∧ .firingDispatch t ∈ u.agenda) ∧
    (x.matrix.firing = some f → (∀ e ∈ x.matrix.queue, e.who.strand ≠ none) → ∃ u, exec (.engineFiringCommit t 2) s = .next u ∧
      (u.tile t).matrix.firing = none ∧ ((u.tile t).actor f.actor).running = false ∧ .firingDispatch t ∈ u.agenda) ∧
    (x.inlay.firing = some f → (∀ e ∈ x.inlay.queue, e.who.strand ≠ none) → ∃ u, exec (.engineFiringCommit t 3) s = .next u ∧
      (u.tile t).inlay.firing = none ∧ ((u.tile t).actor f.actor).running = false ∧ .firingDispatch t ∈ u.agenda))

/-- The region's ports (R24, R361 to R364, R464): a seed entry joins its queue, or is refused with the first reason that holds (which comes
first: LOG 52 DEDUCED) and counted; the head is delivered into its channel when there is space, as a packet from the router that the host's
faceplate joins, at which the region ports stand (LOG 113 DEDUCED); the result port writes 16-byte entries and returns the space. -/
def Sys2Proof.Claims.RegionPorts : Prop :=
  (∀ (s : State) (w0 w1 : Word),
    let h : BitVec 32 := w0.extractLsb' 32 32
    let r := s.region h
    let ch := w0.toNat / 2 ^ 22 % 2 ^ 10
    let q := s.refusals h
    let refused (n : Nat) : Prop := ∃ u, exec (.seedWindowWrite w0 w1) s = .next u ∧ u.regions = s.regions ∧ u.tiles = s.tiles ∧
      (s.time < q.next → u.refusals h = ⟨q.count + 1, if q.count = 0 then n else q.reason, q.next⟩ ∧ u.hostMem = s.hostMem ∧
        .seedDelivery h ∈ u.agenda) ∧
      (q.next ≤ s.time → u.refusals h = ⟨0, 0, s.time + s.cyclesNs 1024⟩ ∧ Claims.Posted s 1 0x0107
        [BitVec.ofNat 64 (h.toNat * 2 ^ 32), BitVec.ofNat 64 ((if q.count = 0 then n else q.reason) * 2 ^ 48 + (q.count + 1))] u)
    let up : Prop := s.live h = true ∧ r.posted = true
    let bound : Prop := w0.getLsbD 19 = true ∨ (r.channel ch).prod = .region
    (¬ up → refused 1) ∧
    (up → ¬ bound → refused 2) ∧
    (up → bound → 256 ≤ r.seedq.length → refused 3) ∧
    (up → bound → r.seedq.length < 256 → (r.closing || r.closed) = true → refused 4) ∧
    (up → bound → r.seedq.length < 256 → (r.closing || r.closed) = false →
      (w0.toNat % 2 ^ 19 ≠ 0 → refused 5) ∧
      (w0.toNat % 2 ^ 19 = 0 → ∃ u, exec (.seedWindowWrite w0 w1) s = .next u ∧ u.region h = { r with
        seedq := r.seedq ++ [⟨ch, w0.getLsbD 21, w0.getLsbD 20, w0.getLsbD 19, if w0.getLsbD 21 then w1 &&& 0xFF else w1⟩]
        closing := w0.getLsbD 19 } ∧ .seedDelivery h ∈ u.agenda ∧ u.tiles = s.tiles))) ∧
  (∀ (s : State) (h : BitVec 32) (e : SeedEntry) (rest : List SeedEntry),
    let r := s.region h
    let c := r.channel e.ch
    s.live h = true → r.phase = .running → (s.refusals h).count = 0 → r.seedq = e :: rest → e.close = false → c.prod = .region →
    (c.space = 0 ∨ (e.mbStart = true ∧ (r.stashOpen && r.versionOpen) = false) → exec (.seedDelivery h) s = .next s) ∧
    (0 < c.space → (e.mbStart = true → r.stashOpen = true ∧ r.versionOpen = true) → ∃ u, exec (.seedDelivery h) s = .next u ∧
      (u.region h).seedq = rest ∧ (u.region h).delivered = r.delivered + 1 ∧
      (u.region h).channel e.ch = { c with space := c.space - 1, arriving := c.arriving ++ [1] } ∧
      u.flying = s.flying ++ [⟨h, .tokens e.ch [⟨e.payload, e.scale, false, ⟨0, 0, 255, 0, r.delivered % 2 ^ 32⟩⟩], hostTile, 0,
        s.channelPath r c⟩] ∧ u.tiles = s.tiles)) ∧
  (∀ (s : State) (h : BitVec 32) (e : SeedEntry), let r := s.region h
    s.live h = true → r.phase = .running → (s.refusals h).count = 0 → r.seedq = [e] → e.close = true → r.closing = true →
    ∃ u, exec (.seedDelivery h) s = .next u ∧ u.region h = { r with seedq := [], closed := true } ∧ u.tiles = s.tiles) ∧
  (∀ (s : State) (h : BitVec 32) (ch : Nat) (v : Token) (rest : List Token),
    let r := s.region h
    let c := r.channel ch
    s.live h = true → r.phase = .running → 0 < c.tokens → c.fifo = v :: rest → v.exc = false →
    r.info.resultCap ≠ 0 → ch < 1024 → ∃ u, exec (.resultPortPop h ch) s = .next u ∧
      ((u.region h).channel ch).fifo = rest ∧ ((u.region h).channel ch).tokens = c.tokens - 1 ∧
      (u.region h).results = r.results + 1 ∧ u.tiles = s.tiles ∧
      (c.cons = .region → u.flying = s.flying ++ [⟨h, .space ch 1, hostTile, 0, reversePath (r.endRouter c.prod) (s.channelPath r c)⟩]) ∧
      let a := r.info.resultBa.toNat + 16 * (r.results % r.info.resultCap)
      readNat u.hostMem a 8 = ch * 2 ^ 54 + (if v.scale then 2 ^ 53 else 0) + r.results % 2 ^ 32 ∧
      readNat u.hostMem (a + 8) 8 = v.payload.toNat)

/-- The firing rule and the region's ports (R18, R361 to R364, R368 to R371, Table 1.3): which actor a tile dispatches, what a dispatch reserves
and sets in each of the four targets, and what a seed entry and a result come to. -/
def Obligations.FiringSteps : Prop :=
  Claims.ActorChoice ∧ Claims.Dispatches ∧ Claims.OneActor ∧ Claims.RegionPorts

/-- Faceplate ports (R37, R69, R305, R366, R398, R400, R401, R407 to R410, R464): a LIGHT port whose payload buffer is full sends one block on each
send of the pattern's group, with the header that R398 gives, when the group's pacing and the faceplate's LIGHT ports allow it, and otherwise
leaves the lasers to the port whose turn it is; a FILL port writes through a bank that enables the region; a DRAIN port reads an element
through such a bank, converts it and writes it packed at its home, where a page base that it has latched says; a STREAM port pushes the delivered value as a token, and a COLLECT port
takes a scale token into its latch, each over the mesh from the router of its faceplate (that path: LOG 113 DEDUCED); a pattern's end goes on
with the next pattern. -/
def Obligations.FaceplateSteps : Prop :=
  ∀ (s : State) (h : BitVec 32) (n : Nat),
    let r := s.region h
    let x := r.port n
    let p := patternOf x.words x.pat
    s.portsRun h = true → x.finished = false → x.fault = none →
    (x.ending = false → x.begun = true → x.gather = [] → x.elem = p.count →
      (∀ g, modeOf x.words = 1 → x.run = [] → payloadBits p.scaleIns = x.bits → x.group p.group = some g →
        (g.sent - g.mrel).toNat < g.allowance → (∀ e, s.nextLight x.plate = some e → e.2 = (h, n)) →
        let drop (e : Nat × Nat × Nat) (k : Nat) : Nat := 288 * e.1 + 4 * ((x.plate + e.2.1) % 72) + k
        ∃ (u : State) (b : Nat → Block), exec (.faceplateBlockSend h n) s = .next u ∧ ((u.region h).port n).ending = true ∧ ((u.region h).port n).bits = 0 ∧
          ((u.region h).port n).groups = x.groups.map (fun y => if y.lgroup = g.lgroup then { y with sent := y.sent + 1 } else y) ∧
          u.tiles = s.tiles ∧ u.mem = s.mem ∧
          (∀ e ∈ g.sends, ∀ k, k < 4 → .lightBlockHeaderArrive (drop e k) 0 ∈ u.agenda) ∧
          (∀ cl, (u.cluster cl).incoming = (s.cluster cl).incoming ++
            (g.sends.filter fun e => (upFrom 0 4).any fun k => drop e k == cl).map fun e => b e.2.2) ∧
          ∀ leaf, let z : Block := b leaf
            z.wgroup = g.wgroup % 2 ^ 12 ∧ z.blockId = g.sent ∧ z.version = BitVec.ofNat 16 x.passVer ∧ z.scale = p.scaleIns ∧
            z.leafMask = BitVec.ofNat 4 leaf ∧ z.wset = (if versioned x.words then wsetOf x.words else 0) % 64 ∧
            z.pass = BitVec.ofNat 32 x.pass ∧ z.payloadCrc = crc32 z.payload ∧ z.headerGood = true ∧
            (p.scaleIns = false → z.payload = natLe 4096 (x.buf % 2 ^ (8 * 4096))) ∧
            (p.scaleIns = true → z.payload = natLe 32 x.bufScale ++ natLe 4064 (x.buf % 2 ^ (8 * 4064)))) ∧
      (∀ g, modeOf x.words = 1 → payloadBits p.scaleIns ≤ x.bits → x.group p.group = some g →
        (g.allowance ≤ (g.sent - g.mrel).toNat → exec (.faceplateBlockSend h n) s = .next s) ∧
        (∀ e, (g.sent - g.mrel).toNat < g.allowance → s.nextLight x.plate = some e → e.2 ≠ (h, n) →
          ∃ u, exec (.faceplateBlockSend h n) s = .next u ∧ u.regions = s.regions ∧ u.clusters = s.clusters ∧ u.tiles = s.tiles ∧
            .faceplateBlockSend e.2.1 e.2.2 ∈ u.agenda ∧ .faceplateBlockSend h n ∈ u.agenda)) ∧
      (∀ e, modeOf x.words = 2 → x.run = [e] → x.bits = 0 → p.width = 8 → 0 < p.count →
        let m := s.tile (s.patternTile h p)
        let a := p.off + (p.count - 1)
        (m.bankOpen h a = true → ∃ u, exec (.fillDrainPortTransfer h n) s = .next u ∧ u.mem = s.mem ∧
          (u.tile (s.patternTile h p)).spad = writeByte m.spad a (BitVec.ofNat 8 e.code) ∧ ((u.region h).port n).ending = true) ∧
        (m.bankOpen h a = false → ∃ u, exec (.fillDrainPortTransfer h n) s = .next u ∧ u.tiles = s.tiles ∧ u.regions = s.regions)) ∧
      (∀ e ch, modeOf x.words = 4 → x.run = [e] → x.bits = 0 → p.scaleIns = false → p.fmt ≠ 0 → r.portOut n = some ch →
        let c := r.channel ch
        c.prod = .fport n → 0 < c.space → ∃ u, exec (.streamPortPush h n) s = .next u ∧ ((u.region h).port n).ending = true ∧
          u.tiles = s.tiles ∧ (u.region h).channel ch = { c with space := c.space - 1, arriving := c.arriving ++ [1] } ∧
          ∃ v : Token, v.payload = cvtPlace p.out e.code ∧ v.scale = false ∧ v.exc = e.exc ∧
            u.flying = s.flying ++ [⟨h, .tokens ch [v], plateTile x.plate, 0, s.channelPath r c⟩])) ∧
    (x.ending = false → x.begun = true → x.run = [] → x.gather = [] → x.bits = 0 → modeOf x.words = 3 → p.transpose = false →
      x.elem + 1 = p.count →
      let m := s.tile (s.patternTile h p)
      let a := elemAt (ptrAt p.ptr p.off) ((x.elem : Nat) : Int)
      let ks := a.scaleAt.toList.map BitVec.toNat ++ upFrom a.addr.toNat (fmtBytes p.fmt)
      let bs := ks.map (readByte m.spad)
      let go := exec (.fillDrainPortTransfer h n) s
      ((∃ k ∈ ks, m.bankOpen h k = false) → go = .next s) ∧
      ((∀ k ∈ ks, m.bankOpen h k = true) →
        let e8 := if a.scaleAt.isSome then (bs.headD 0).toNat else 127
        let code := elemCode p.fmt a.fieldNo (leNat (if a.scaleAt.isSome then bs.tail else bs))
        let v := p.convert 3 e8 x.latch.toNat code
        let s1 := s.takeElem h n p e8 code
        let d := x.elem % p.per
        let ws := bitWrites (d * p.width) p.width v.bits ++ (padBytes p.width d p.per).map fun k => (k, 0, true)
        let vas := ws.map fun b => BitVec.ofNat 56 (p.rowVa x.passBase x.elem + b.1)
        (∀ pas, portPas h n x.elem true s1 vas = .ok s1 pas → pas.Nodup → (∀ pa ∈ pas, s1.uncorr.contains pa = false) →
          ∃ u, go = .next u ∧ ((u.region h).port n).ending = true ∧
            (∀ k i w fresh, ws[k]? = some (i, w, fresh) → readByte u.mem (nth 0 pas k) =
              if fresh then BitVec.ofNat 8 w else readByte s.mem (nth 0 pas k) ||| BitVec.ofNat 8 w) ∧
            ∀ b, b ∉ pas → readByte u.mem b = readByte s.mem b) ∧
        (∀ s2 k, portPas h n x.elem true s1 vas = .hold s2 (some k) → ∃ u, go = .next u ∧ u.mem = s2.mem ∧ u.tiles = s2.tiles ∧
          ((u.region h).port n).fault = some k)) ∧
      (∀ d w c, w ∈ [8, 16, 32, 64] → bitWrites (d * w) w c =
        (upFrom 0 (w / 8)).map fun k => (d * (w / 8) + k, c % 2 ^ w / 2 ^ (8 * k) % 256, true)) ∧
      (∀ d c, bitWrites (d * 4) 4 c = [(d / 2, c % 16 * (if d % 2 = 0 then 1 else 16), decide (d % 2 = 0))])) ∧
    (x.ending = false → x.begun = true → x.run = [] → x.bits = 0 → x.elem < p.count →
      ∀ ch v rest, modeOf x.words = 5 → r.portIn n = some ch →
        let c := r.channel ch
        c.cons = .fport n → c.tokens = 1 → c.fifo = v :: rest →
        v.scale = true → v.exc = false → ∃ u, exec (.collectPortPop h n) s = .next u ∧
          (u.region h).port n = { x with latch := v.payload.truncate 8 } ∧ (u.region h).channel ch = { c with fifo := rest, tokens := 0 } ∧
          u.flying = s.flying ++ [⟨h, .space ch 1, plateTile x.plate, 0, reversePath (r.endRouter c.prod) (s.channelPath r c)⟩] ∧
          u.tiles = s.tiles) ∧
    (x.ending = true → p.note = false → p.handoff = false → ∃ u, exec (.faceplatePatternEnd h n) s = .next u ∧ u.tiles = s.tiles ∧
      let z := (u.region h).port n
      (x.pat + 1 < npat x.words → z.pat = x.pat + 1 ∧ z.elem = 0 ∧ z.begun = false ∧ z.ending = false ∧ z.finished = false) ∧
      (x.pat + 1 = npat x.words → repeats x.words = true → z.pat = 0 ∧ z.begun = false ∧ z.finished = false) ∧
      (x.pat + 1 = npat x.words → repeats x.words = false → z.finished = true) ∧
      (p.passEnd = true → z.inPass = false ∧ z.pass = x.pass + 1)) ∧
    (x.ending = true → p.note = true → r.portOut n = none → exec (.faceplatePatternEnd h n) s = .next s)

/-- Launch records and intake (R347 to R352, R367): a record written to the window, a launch or an END, joins the intake queue of 16 places in
order. Its head is checked. An END closes the seed port of its region when intake takes it up (LOG 67 DEDUCED); a launch joins the queue of
its PRIO; a chained launch stands at once on its producer's tiles under its own handle and runs its ports once there are places for them,
while intake goes on (LOG 71 DEDUCED). -/
def Sys2Proof.Claims.IntakeSteps : Prop :=
  (∀ (s : State) (w7 : Word),
    let ws := (upFrom 0 8).map fun n => if n = 7 then w7 else tabGet 0 s.dist.window n
    (s.dist.intake.length < 16 →
      (∃ u, exec (.launchRecord w7) s = .next u ∧ u.dist.intake = s.dist.intake ++ [ws] ∧ .launchIntake ∈ u.agenda ∧ u.tiles = s.tiles ∧
        u.regions = s.regions) ∧
      (∃ u, exec (.endRecord w7) s = .next u ∧ u.dist.intake = s.dist.intake ++ [ws] ∧ .launchIntake ∈ u.agenda ∧ u.tiles = s.tiles ∧
        u.regions = s.regions)) ∧
    (16 ≤ s.dist.intake.length →
      (∃ u, exec (.launchRecord w7) s = .next u ∧ u.dist.intake = s.dist.intake ∧ u.regions = s.regions) ∧
      (∃ u, exec (.endRecord w7) s = .next u ∧ u.dist.intake = s.dist.intake ∧ u.regions = s.regions))) ∧
  (∀ (s s1 : State) (ws : List Word) (rest : List (List Word)) (im : List Frame),
    let i := Launch.ofWords ws
    let k := i.withImage im
    s.dist.intake = ws :: rest → s.bootstat.getLsbD 6 = true → s.dist.fault = none → s.dist.chainWait = [] →
    ((recWord ws 7).toNat / 2 ^ 48 % 256 = 1 → badEndWord ws = none → s.live i.handle = true → (s.region i.handle).closed = false →
      let r := s.region i.handle
      ∃ u, exec .launchIntake s = .next u ∧ u.dist.intake = rest ∧ .seedDelivery i.handle ∈ u.agenda ∧ u.tiles = s.tiles ∧
        u.region i.handle = { r with closing := true, closed := r.seedq.isEmpty }) ∧
    ((recWord ws 7).toNat / 2 ^ 48 % 256 = 1 → badEndWord ws ≠ none → ∃ u, exec .launchIntake s = .next u ∧ u.dist.intake = rest ∧
      u.regions = s.regions) ∧
    (badWord ws = none → i.handle ≠ 0 → s.handleTaken i.handle = false → i.chained = true → s.hostImage i.ctx i.imageVa = (s1, .ok im) →
      s1.refusal k im = none → s1.dist = s.dist → i.handle ≠ i.chainFrom →
      let p := s1.region k.chainFrom
      let z : Region := { Region.idle with
        info := k, gen := s1.genOf k.ctx, phase := .committed, awaiting := true
        originRow := p.originRow, originCol := p.originCol, tiles := p.tiles }
      let v := (s1.setRegion k.handle z).setRegion k.chainFrom { p with successor := some k.handle }
      (k.ports = [] ∨ v.freePlaces k.ports.length = none → ∃ u, exec .launchIntake s = .next u ∧ u.dist.intake = rest ∧
        u.regions = v.regions ∧ u.tiles = s1.tiles ∧ u.dist.chainWait = (if k.ports = [] then [] else [k]) ∧
        (k.ports ≠ [] → .launchIntake ∈ u.agenda)) ∧
      (∀ places ps s2, k.ports ≠ [] → v.placed (v.regions.length + 1) k.handle = true → v.freePlaces k.ports.length = some places →
        v.buildPorts k p.tiles [] k.ports places = .ok (ps, s2) → s2.regions = v.regions → s2.dist = v.dist →
        ∃ u, exec .launchIntake s = .next u ∧ u.dist.intake = rest ∧ u.dist.chainWait = [] ∧
          (u.region k.handle).phase = .committed ∧ (u.region k.handle).awaiting = true ∧ (u.region k.handle).info = k ∧
          (u.region k.chainFrom).successor = some k.handle ∧ (u.region k.handle).ports.map (·.1) = ps.map (·.1) ∧
          ∀ n, { (u.region k.handle).port n with bases := [] } = { tabGet FPort.idle ps n with bases := [] })) ∧
    (badWord ws ≠ none → (recWord ws 7).toNat / 2 ^ 48 % 256 ≠ 1 → ∃ u, exec .launchIntake s = .next u ∧ u.dist.intake = rest ∧ u.dist.queues = s.dist.queues ∧
      u.regions = s.regions) ∧
    (badWord ws = none → i.handle ≠ 0 → s.handleTaken i.handle = false → i.chained = false → i.gangTag = 0 →
      s.hostImage i.ctx i.imageVa = (s1, .ok im) → s1.refusal k im = none → s1.dist = s.dist → s.dist.placing = none →
      ∃ u, exec .launchIntake s = .next u ∧ u.dist.intake = rest ∧ .placementReserve ∈ u.agenda ∧
        tabGet [] u.dist.queues i.prio = tabGet [] s.dist.queues i.prio ++ [⟨[k], i.prio, [], false, false⟩])) ∧
  (∀ (s : State) (k : Launch), s.dist.intake = [] → s.dist.chainWait = [k] →
    let v : State := { s with dist := { s.dist with chainWait := [] } }
    (v.portsDue k.handle = false → exec .launchIntake s = .next v) ∧
    (v.portsDue k.handle = true → v.givePorts k.handle = none → ∃ u, exec .launchIntake s = .next u ∧ u.dist = s.dist ∧
      u.regions = s.regions ∧ .launchIntake ∈ u.agenda) ∧
    (∀ u, v.portsDue k.handle = true → v.givePorts k.handle = some u → u.dist.intake = [] → exec .launchIntake s = .next u))

/-- Placement (R353 to R355, R383): the first free rectangle in raster order is reserved and then bound; a hop without a path raises its tile for
retirement, and until its column is disabled nothing is reserved (LOG 70 DEDUCED). -/
def Sys2Proof.Claims.PlacementSteps : Prop :=
  (∀ (s : State) (rows cols y x : Nat) (ts : List Nat), s.firstFit rows cols = some (y, x, ts) →
    s.rectTiles x y rows cols = some ts ∧ y + rows ≤ s.gridRows ∧ x + cols ≤ s.gridCols ∧
    ∀ y' x', y' < y ∨ (y' = y ∧ x' < x) → x' + cols ≤ s.gridCols → s.rectTiles x' y' rows cols = none) ∧
  (∀ s : State, s.toRetire.any (fun e => e.2 == .gridRetired) = true →
    (∀ j, s.dist.placing = some j → j.committing = false → exec .placementReserve s = .next s) ∧
    (s.dist.placing = none → s.dist.interrupted = [] → exec .placementReserve s = .next s)) ∧
  (∀ (s s1 : State) (j : Job) (i : Launch) (r : Reservation), s.dist.placing = some j →
    s.toRetire.any (fun e => e.2 == .gridRetired) = false →
    (j.committing = false → (∀ i ∈ j.members, ∃ r ∈ j.reserved, r.handle = i.handle) → ∃ u, exec .placementReserve s = .next u ∧
      u.dist.placing = some { j with committing := true } ∧ .placementCommit ∈ u.agenda ∧ u.tiles = s.tiles) ∧
    (j.committing = false → j.members = [i] → j.reserved = [] →
      (s.reserveRegion j.thaw i = .ok r s1 → s1.dist = s.dist → ∃ u, exec .placementReserve s = .next u ∧
        u.dist.placing = some { j with reserved := [r] } ∧ .placementReserve ∈ u.agenda) ∧
      (s.reserveRegion j.thaw i = .full → ∃ u, exec .placementReserve s = .next u ∧ u.dist.placing = none ∧
        tabGet [] u.dist.queues j.prio = j :: tabGet [] s.dist.queues j.prio ∧ u.tiles = s.tiles) ∧
      (∀ t, s.reserveRegion j.thaw i = .path t → ∃ u, exec .placementReserve s = .next u ∧ u.dist.placing = none ∧
        u.toRetire = s.toRetire ++ [(t, .gridRetired)] ∧ .gridRetire ∈ u.agenda ∧
        tabGet [] u.dist.queues j.prio = j :: tabGet [] s.dist.queues j.prio ∧ u.tiles = s.tiles)) ∧
    (j.committing = true → j.thaw = false → j.members = [i] → j.reserved = [r] → r.handle = i.handle → s.dist.queues = [] → r.tiles.Nodup →
      let z : Region := { Region.idle with info := i, gen := s.genOf i.ctx, phase := .loading }
      ∃ u, exec .placementCommit s = .next u ∧ .placementLoad i.handle ∈ u.agenda ∧
        u.region i.handle = { z with originRow := r.row, originCol := r.col, tiles := r.tiles, ports := r.ports } ∧
        ∀ n t, r.tiles[n]? = some t → u.tile t = { (s.tile t).cleared with bound := some ⟨i.handle, n / i.cols, n % i.cols⟩ }))

/-- Load and the wave (R192, R223, R303, R357 to R359, R367): the load's digest is compared; a chained launch's load waits for its ports' places,
and a load for a module that the switches reject (LOG 87 DEDUCED); the wave enables firing at each tile, reports what never fires in the first wave of a launch, and its acknowledgement posts
LAUNCH_PLACED. -/
def Sys2Proof.Claims.LoadSteps : Prop :=
  (∀ (s s1 : State) (h : BitVec 32) (im : List Frame), let r := s.region h
    s.live h = true → r.phase = .loading → r.loadFault = none →
    (s.portsDue h = true → exec (.placementLoad h) s = .next s) ∧
    (s.portsDue h = false → (s.setRegion h r).loadImage h = (s1, .ok im) →
      (digestOf im = r.info.digest → exec (.placementLoad h) s = .next (s1.loadDone h im)) ∧
      (digestOf im ≠ r.info.digest → exec (.placementLoad h) s = .next ((s1.destroy h).launchError r.info 8 0))) ∧
    (s.portsDue h = false → (s.setRegion h r).loadImage h = (s1, .fail .topoStale) →
      exec (.placementLoad h) s = .next (s1.ask (.placementLoad h)))) ∧
  (∀ (s : State) (t : Nat),
    let x := s.tile t
    let r := s.regionOf t
    let n := logicalOf r x
    let dead := r.deadRecords (s.feature 1) (s.feature 6) x
    let lanes := x.actorList.filter fun i => (x.actor i).target == 1 && x.deadSlots.contains ((x.actor i).entry.toNat % 4)
    let never (who what which : Nat) : List Word := [handleWord r, BitVec.ofNat 64 (9 * 2 ^ 48 + (n * 2 ^ 32 + who * 2 ^ 24 + what * 2 ^ 16 + which)),
      r.info.imageId.zeroExtend 64]
    x.wave = false → s.active t = true → ∃ u, exec (.configCompleteWave t) s = .next u ∧ (u.tile t).wave = true ∧
      .firingDispatch t ∈ u.agenda ∧
      (x.col + 1 < r.info.cols → .configCompleteWave (r.physical (n + 1)) ∈ u.agenda) ∧
      (x.row + 1 < r.info.rows → .configCompleteWave (r.physical (n + r.info.cols)) ∈ u.agenda) ∧
      (n + 1 = r.info.rows * r.info.cols → .waveAcknowledge x.handle ∈ u.agenda) ∧
      (r.posted = true → (u.tile t).matrix = x.matrix ∧ u.events = s.events ∧ u.eqTail = s.eqTail ∧ u.hostMem = s.hostMem) ∧
      (r.posted = false → (u.tile t).matrix = { x.matrix with badRecords := dead } ∧
        (lanes = [] → dead = [] → u.events = s.events ∧ u.eqTail = s.eqTail ∧ u.hostMem = s.hostMem) ∧
        (∀ i, lanes = [i] → dead = [] → Claims.Posted s 1 0x0101 (never i ((x.actor i).entry.toNat % 4) 1) u) ∧
        (∀ e, lanes = [] → dead = [e] → Claims.Posted s 1 0x0101 (never 0xFF e 2) u))) ∧
  (∀ (s : State) (t : Nat), (s.tile t).wave = true → exec (.configCompleteWave t) s = .next s) ∧
  (∀ (s : State) (h : BitVec 32), let r := s.region h
    s.live h = true →
    (r.posted = false → ∃ u, exec (.waveAcknowledge h) s = .next u ∧ u.region h = { r with posted := true } ∧ .seedDelivery h ∈ u.agenda ∧
      u.tiles = s.tiles ∧ Claims.Posted s 1 0x0102
        [handleWord r, BitVec.ofNat 64 (s.gridVersion.toNat * 2 ^ 48 + r.originRow * 256 + r.originCol)] u) ∧
    (r.posted = true → exec (.waveAcknowledge h) s = .next s))

/-- Launch, placement and load (R347 to R359, R367, R383): a launch record from the window to the wave that lets its region fire. -/
def Obligations.LaunchSteps : Prop := Claims.IntakeSteps ∧ Claims.PlacementSteps ∧ Claims.LoadSteps

/-- The end of a region, its freeze and its thaw (R164, R337 to R340, R346, R365, R367, R462, R464): a quiescent region whose seed port is closed
leaves its tiles, and its ports' places keep what they held; one that freezes waits for the blocks and the transfers in progress, and then
every tile is saved as it stands but for L1, the TLBs and what R338 settles of its strands, its bytes are written to the save area in stack
memory with their digest kept with the context (what they are but for the banks: LOG 11 DESIGN CHOICE), and its tiles are cleared; its
packets between routers go on to the buffers where they leave the mesh, and a save that no thaw has brought back stays; a save area
whose digest differs destroys it, and one that froze in its load phase loads again (LOG 69 DEDUCED); a chained launch takes its producer's
tiles, where only the banks whose token it holds keep their contents, and one that still waits for them waits again after a thaw; a wait as
long as the watchdog limit, counted in steps of the machine (LOG 19 DEDUCED), traps with DEBUG_WATCHDOG. -/
def Obligations.RegionSteps : Prop :=
  (∀ (s : State) (h : BitVec 32), let r := s.region h
    s.live h = true → r.phase = .running → r.closed = true →
    (s.quiescent h = true → (∀ f ∈ s.flying, f.handle ≠ h) ∧ r.seedq = [] ∧ ∀ t ∈ r.tiles, ∀ i, i < 64 → s.permits t i = false) ∧
    (s.quiescent h = true → s.successorOf h = none → r.awaiting = false → ∃ u, exec (.regionEnd h) s = .next u ∧
      u.region h = Region.idle ∧ (∀ t ∈ r.tiles, (u.tile t).bound = none) ∧ .placementReserve ∈ u.agenda ∧
      ∀ n p, r.ports = [(n, p)] → tabGet FPort.idle u.leftPorts (4 * p.plate + p.place) = p) ∧
    (s.quiescent h = false → ∃ u, exec (.regionEnd h) s = .next u ∧ u.tiles = s.tiles ∧ u.regions = s.regions ∧ u.mem = s.mem)) ∧
  (∀ (s : State) (h : BitVec 32), let r := s.region h
    s.live h = true → r.phase = .freezing →
    ((s.chainOf h).any (fun c => s.blocksFlying c r.ownTiles) = true → ∃ u, exec (.regionFreeze h) s = .next u ∧ u.tiles = s.tiles ∧
      u.regions = s.regions ∧ .regionFreeze h ∈ u.agenda) ∧
    (∀ s1, s1 = r.ownTiles.foldl State.endTransfers s →
      (s.chainOf h).any (fun c => s.blocksFlying c r.ownTiles) = false → r.doomed = false → s.transfersWait s1 r.ownTiles = true →
      ∃ u, exec (.regionFreeze h) s = .next u ∧ u.regions = s1.regions ∧ u.tiles = s1.tiles ∧ .regionFreeze h ∈ u.agenda) ∧
    ((s.chainOf h).any (fun c => s.blocksFlying c r.ownTiles) = false → r.doomed = false → (∀ t ∈ r.ownTiles, ∀ k, (s.strandOf t k).spillq = []) →
      ∃ u, exec (.regionFreeze h) s = .next u ∧ (u.region h).phase = .frozen ∧ (u.region h).tiles = (if r.awaiting then r.tiles else []) ∧
        (u.region h).info = r.info ∧ (u.region h).saves = r.saves + 1 ∧ (∀ t ∈ r.ownTiles, (u.tile t).bound = none) ∧
        (∀ f ∈ u.flying, f.handle ≠ h) ∧
        (∀ f ch vs, s.flying = [f] → f.handle = h → f.cargo = .tokens ch vs → let c := r.channel ch
          (u.region h).channel ch = countCommits c.arriving { c with fifo := c.fifo ++ vs, placed := c.placed + vs.length }) ∧
        (r.saved ≠ [] → (u.region h).saved = r.saved ∧ (u.region h).saveAt = r.saveAt ∧ (u.region h).saveLen = r.saveLen) ∧
        (r.saved = [] → (s.context r.info.ctx).isSome = true → u.areaIntact h = true ∧
          ((∀ f ∈ s.flying, f.handle ≠ h) → ∀ n t, r.ownTiles[n]? = some t → tabGet Tile.idle (u.region h).saved n =
            { s.tile t with
              l1 := [], dtlb := [], itlb := [], wave := false, freezing := false, strands := (s.tile t).strands.map Strand.settle })))) ∧
  (∀ (s0 : State) (h : BitVec 32) (damage : List (Nat × Byte)), let s := s0.readArea h damage
    let r := s.region h
    s.live h = true → r.phase = .thawing → r.loadFault = none →
    (r.awaiting = false → r.tiles = [] → exec (.thawRestore h damage) s0 = .next s0) ∧
    (r.awaiting = true ∨ r.tiles ≠ [] → s.areaIntact h = false →
      exec (.thawRestore h damage) s0 = .next ((s.destroy h).contextError r .stateUncorrectable none [])) ∧
    (r.awaiting = true → s.areaIntact h = true → r.denied = none → ∃ u, exec (.thawRestore h damage) s0 = .next u ∧ u.tiles = s.tiles ∧
      u.region h = { r with phase := .committed, cause := none, inner := none, saveLen := 0, thaws := r.thaws + 1 } ∧ .chainedCommit h ∈ u.agenda) ∧
    (r.awaiting = false → r.tiles ≠ [] → s.areaIntact h = true → r.loaded = false → ∃ u, exec (.thawRestore h damage) s0 = .next u ∧
      (u.region h).phase = .loading ∧ (u.region h).saved = [] ∧ .placementLoad h ∈ u.agenda) ∧
    (∀ s1 im, r.awaiting = false → r.tiles ≠ [] → s.areaIntact h = true → r.loaded = true → s.loadImage h = (s1, .ok im) →
      (s1.region h).denied = none → s1.live h = true →
      ∃ u, exec (.thawRestore h damage) s0 = .next u ∧ (u.region h).phase = .running ∧ (u.region h).saved = [] ∧
        (u.region h).thaws = (s1.region h).thaws + 1 ∧
        .configCompleteWave ((s1.region h).physical 0) ∈ u.agenda)) ∧
  (∀ (s : State) (h : BitVec 32), let r := s.region h
    s.live h = true → r.awaiting = true → r.phase = .committed → s.live r.info.chainFrom = false → r.tiles.Nodup → r.early = 0 →
    ∃ u, exec (.chainedCommit h) s = .next u ∧ u.region h = { r with awaiting := false, phase := .loading, early := 0 } ∧
      .placementLoad h ∈ u.agenda ∧ ∀ t ∈ r.tiles, ∀ a,
        readByte (u.tile t).spad a = if (((s.tile t).bankToken (a / 0x10000)).holder == h && decide (a < 0xC0000)) = true
          then readByte (s.tile t).spad a else 0) ∧
  (∀ (s : State) (t : Nat) (k : Fin 4), let x := s.strandOf t k
    let l := (s.regionOf t).watchdog
    s.active t = true → x.kstatus.getLsbD 13 = true → x.kstatus.getLsbD 15 = false → l ≠ 0 → l ≤ x.waited → x.kstatus.getLsbD 0 = false →
    ∃ u, exec (.watchdogExpire t k) s = .next u ∧ u.cur = s.cur ∧ u.mem = s.mem ∧ let z := u.strandOf t k
      z.kcause = 9 ∧ z.ktval = BitVec.ofNat 64 l ∧ z.kepc = x.pc.zeroExtend 64 ∧ z.pc = (s.tile t).ktvec.truncate 13 ∧
        z.kstatus.getLsbD 0 = true ∧ z.g = x.g)

/-- A page of a context has been moved away (R309, steps 2 to 4): its entry has the FORM of where it lies, the context's record keeps its bytes,
no eviction is in progress, and its stack frame is free. -/
def Sys2Proof.Claims.PageMoved (ctx : BitVec 16) (l : Leaf) (u : State) : Prop :=
  pteForm (readWord u.mem l.ea) ∈ [1, 2] ∧
    ∃ c m pa, u.context ctx = some c ∧ c.evicting = none ∧ (l.va / 16384, m) ∈ c.moved ∧ u.freeStack.head? = some pa ∧
      ptePa m.entry = pa ∧ m.entry = readWord u.mem l.ea ∧
      ∀ i, i < 16384 → (pa + i < l.ea ∨ l.ea + 8 ≤ pa + i) → readByte m.data i = readByte u.mem (pa + i)

/-- Fabric faults and their answers (R323 to R332, R433): a flush stamps every ready record with the next generation and sends it; the host
queue takes four words a record while it has space; an answer of an old context generation is counted, one that matches no record
or an old flush is dropped, and one that is accepted removes its record and answers every mark that waits for it. The victim controller
evicts the page that the sweep chooses of a context over its quota: it is removed as a SHOOT would remove it, from the reachable modules that
hold the context too (who they are: LOG 59 DEDUCED), and once they have answered, or left the domain, its bytes have moved, its entry names where, and its frame is free; a
moved page returns to a free frame (which one: LOG 35 DESIGN CHOICE) that no page lies in (R307 to R311). -/
def Obligations.FaultSteps : Prop :=
  (∀ (s : State) (c : Nat), let x := s.cluster c
    (∃ r ∈ x.records, r.ready = true) → ∃ u, exec (.faultBufferFlush c) s = .next u ∧ (u.cluster c).flushGen = x.flushGen + 1 ∧
      (u.cluster c).records = x.records.map (fun r => if r.ready then { r with flushGen := x.flushGen + 1, ready := false } else r) ∧
      .faultQueueWrite c ∈ u.agenda ∧ u.tiles = s.tiles ∧
      ∀ r ∈ x.records, r.ready = true → { r with flushGen := x.flushGen + 1, ready := false } ∈ (u.cluster c).outbox) ∧
  (∀ (s : State) (c tag : Nat), let x := s.cluster c
    (∃ r ∈ x.records, r.tag = tag) → ∃ u, exec (.faultRecordResend c tag) s = .next u ∧ .faultBufferFlush c ∈ u.agenda ∧
      (u.cluster c).records = x.records.map fun r => if r.tag = tag then { r with ready := true } else r) ∧
  (∀ (s : State) (c : Nat) (r : FaultRec), let x := s.cluster c
    x.outbox = [r] →
    (s.fqTail - (s.hostReg 0xF0).toNat < (s.hostReg 0xE8).toNat → ∃ u, exec (.faultQueueWrite c) s = .next u ∧
      u.cluster c = { x with outbox := [] } ∧ u.fqTail = s.fqTail + 1 ∧
      let a := (s.hostReg 0xE0).toNat + 32 * (s.fqTail % (s.hostReg 0xE8).toNat)
      ∀ n, n < 4 → readNat u.hostMem (a + 8 * n) 8 = (nth 0 r.words n).toNat) ∧
    ((s.hostReg 0xE8).toNat ≤ s.fqTail - (s.hostReg 0xF0).toNat → ∃ u, exec (.faultQueueWrite c) s = .next u ∧ u.cluster c = x ∧
      u.fqTail = s.fqTail ∧ u.hostMem = s.hostMem)) ∧
  (∀ (s : State) (w0 w1 : Word) (r : FaultRec),
    let ctx : BitVec 16 := w0.extractLsb' 48 16
    let c := w0.toNat / 2 ^ 20 % 2 ^ 12
    let tag := w0.toNat % 2 ^ 20
    let x := s.cluster c
    let o := exec (.pageAnswer w0 w1) s
    (w0.extractLsb' 32 16 ≠ s.genOf ctx → o = .next { s with lateAns := s.lateAns + 1 }) ∧
    (w0.extractLsb' 32 16 = s.genOf ctx →
      ((∀ r ∈ x.records, r.ctx ≠ ctx ∨ r.tag ≠ tag) → o = .next s) ∧
      (x.records = [r] → r.ctx = ctx → r.tag = tag → (r.flushGen ≠ w1.extractLsb' 32 32 ∨ w1.toNat / 2 % 2 ^ 31 ≠ 0) → o = .next s) ∧
      (x.records = [r] → r.ctx = ctx → r.tag = tag → r.flushGen = w1.extractLsb' 32 32 → w1.toNat % 2 ^ 32 = 0 → x.waiting = [] →
        s.overQuota ctx = false → ∃ u, o = .next u ∧ (u.cluster c).records = [] ∧ u.mem = s.mem ∧
          ∀ q ∈ s.regionsOf ctx, ∀ t ∈ (s.region q.info.handle).ownTiles, ∀ k, ∀ m ∈ ((u.tile t).strand k).marks, m.waits c tag = false))) ∧
  (∀ (s : State) (ctx : BitVec 16) (c : Context) (l : Leaf) (s1 : State), s.context ctx = some c →
    (s.feature 3 = false ∨ s.overQuota ctx = false → exec (.victimEvict ctx) s = .next s) ∧
    (s.feature 3 = true → s.overQuota ctx = true → c.evicting = none →
      sweep ctx none (2 * (s.candidatePages ctx none).length) s = (some l, s1) →
      ((∀ m ∈ s.holders ctx, m ∈ s.unreachable) → ∃ u, exec (.victimEvict ctx) s = .next u ∧ Claims.PageMoved ctx l u) ∧
      ((∃ m ∈ s.holders ctx, m ∉ s.unreachable) → ∃ u c' x y, exec (.victimEvict ctx) s = .next u ∧ .victimEvict ctx ∈ u.agenda ∧
        u.context ctx = some c' ∧ c'.evicting = some x ∧ x.page = l.va / 16384 ∧ u.shootOf x.shoot = some y ∧ y.asked ≠ [] ∧
        y.range = l.range ctx)) ∧
    (∀ x y, s.feature 3 = true → s.overQuota ctx = true → c.evicting = some x → s.shootOf x.shoot = some y →
      (y.asked ≠ [] ∨ y.removing ≠ [] → ∃ u, exec (.victimEvict ctx) s = .next u ∧ .victimEvict ctx ∈ u.agenda ∧ u.contexts = s.contexts ∧ u.mem = s.mem) ∧
      (y.asked = [] → y.removing = [] → s.leafOf ctx x.page = some l → l.resident = true → l.va / 16384 = x.page →
        ∃ u, exec (.victimEvict ctx) s = .next u ∧ Claims.PageMoved ctx l u))) ∧
  (∀ (s : State) (ctx : BitVec 16) (va : BitVec 56) (c : Context) (m : MovedPage) (l : Leaf) (pa : Nat), s.context ctx = some c →
    c.moved.find? (fun e => e.1 == pageOf va) = some (pageOf va, m) → s.residentPages ctx < c.quota → s.leafOf ctx (pageOf va) = some l →
    l.resident = false → s.recallFrame = some pa → pa % 16384 = 0 → pa < 2 ^ 56 →
    s.frameMapped pa = false ∧ ∃ u, exec (.victimRecall ctx va) s = .next u ∧
      pteForm (readWord u.mem l.ea) = 0 ∧ ptePa (readWord u.mem l.ea) = pa ∧ pa ∉ u.freeStack ∧
      (∀ c', u.context ctx = some c' → ∀ e ∈ c'.moved, e.1 ≠ pageOf va) ∧
      ∀ i, i < 16384 → (pa + i < l.ea ∨ l.ea + 8 ≤ pa + i) → readByte u.mem (pa + i) = readByte m.data i)

/-- The debugger (R341 to R346): its operations act on a live region of a context with debug enabled and are otherwise refused with
DEBUG_DENIED; HALT and RESUME set and clear HALTED, and a STASH that waits reissues (R338); STEP sets SSTEP and resumes a halted strand, READ and WRITE reach registers, a
WRITE only of a halted strand; HEADREPLACE replaces the head token that a pop would take. The operations are steps of their own, with their
targets as operands (LOG 43 DEDUCED, LOG 76 DEDUCED), and HEADREPLACE writes both bits as they are given, so a token may hold type bit 1 and
exception bit 1 (LOG 91 DESIGN CHOICE). -/
def Obligations.DebugSteps : Prop :=
  ∀ (s : State) (h : BitVec 32) (n t : Nat) (k : Fin 4) (g : BitVec 6) (v : Word) (q : BitVec 5) (scale exc : Bool) (lim : BitVec 32),
    let r := s.region h
    let x := s.strandOf t k
    let on : Prop := s.live h = true ∧ ∃ c, s.context r.info.ctx = some c ∧ c.debug = true
    let denied (i : Instr) : Prop := exec i s = .next { s with debugStatus := 0x71 }
    let strand (i : Instr) (y : Strand) : Prop := ∃ u, exec i s = .next u ∧ u.tile t = (s.tile t).setStrand k y ∧ u.debugStatus = 0 ∧
      u.mem = s.mem ∧ u.regions = s.regions ∧ ∀ m, m ≠ t → u.tile m = s.tile m
    (¬ on → denied (.debugHalt h n k) ∧ denied (.debugResume h n k) ∧ denied (.debugStep h n k) ∧ denied (.debugRead h n k (.g g)) ∧
      denied (.debugWrite h n k (.g g) v) ∧ denied (.debugHeadreplace h n k q v scale exc) ∧ denied (.debugWatchdog h lim)) ∧
    (on → ∃ u, exec (.debugWatchdog h lim) s = .next u ∧ u.region h = { r with watchdog := lim.toNat } ∧ u.tiles = s.tiles ∧
      u.debugStatus = 0) ∧
    (on → r.saved = [] → r.awaiting = false → r.tiles[n]? = some t → t < 36864 →
      strand (.debugHalt h n k) (({ x with hold := if x.hold = .stashing then .none else x.hold } : Strand).setStatus 15 true) ∧
      strand (.debugResume h n k) (x.setStatus 15 false) ∧
      (x.kstatus.getLsbD 15 = true → strand (.debugStep h n k) ((x.setStatus 15 false).setStatus 14 true)) ∧
      (x.kstatus.getLsbD 15 = false → denied (.debugStep h n k) ∧ denied (.debugWrite h n k (.g g) v)) ∧
      (∃ u, exec (.debugRead h n k (.g g)) s = .next u ∧ u.debugData = x.rg g ∧ u.debugStatus = 0 ∧ u.tiles = s.tiles ∧ u.mem = s.mem) ∧
      (x.kstatus.getLsbD 15 = true → strand (.debugWrite h n k (.g g) v) (x.wg g v)) ∧
      (x.kstatus.getLsbD 15 = true → ∀ p old rest, (s.tile t).queue q.toNat = .output p → (s.tile t).port p = old :: rest →
        ∃ u, exec (.debugHeadreplace h n k q v scale exc) s = .next u ∧ u.debugStatus = 0 ∧
          (u.tile t).port p = { old with payload := v, scale := scale, exc := exc } :: rest))

/-- Retirement of grid columns and rows (R386, R387): a failing tile that is no longer enabled needs nothing (LOG 77 DEDUCED); it waits for a job
that commits in its band (LOG 103 DEDUCED); the regions of the band freeze first; then the band's count falls by 1 and the grid version
rises. -/
def Obligations.GridSteps : Prop :=
  ∀ (s : State) (t : Nat) (c : Cause) (rest : List (Nat × Cause)), s.toRetire = (t, c) :: rest → t < 36864 →
    let col := s.retiresColumn c
    (s.enabled t = false → ∃ u, exec .gridRetire s = .next u ∧ u.toRetire = rest ∧ u.gridVersion = s.gridVersion ∧
      u.colCount = s.colCount ∧ u.rowCount = s.rowCount ∧ u.tiles = s.tiles) ∧
    (s.enabled t = true → s.committingIn col t = true → exec .gridRetire s = .next (s.ask .gridRetire)) ∧
    (s.enabled t = true → s.committingIn col t = false → s.bandRegions col t = [] → s.retireFrozen = [] → ∃ u, exec .gridRetire s = .next u ∧ u.toRetire = rest ∧
      u.gridVersion = s.gridVersion + 1 ∧
      (col = true → u.cb (dieOf t % 8) = s.cb (dieOf t % 8) - 1 ∧ u.rowCount = s.rowCount ∧ u.enabled t = false) ∧
      (col = false → u.rb (dieOf t / 8) = s.rb (dieOf t / 8) - 1 ∧ u.colCount = s.colCount ∧ u.enabled t = false)) ∧
    (∀ h, s.enabled t = true → s.committingIn col t = false → s.bandRegions col t = [h] → (s.region h).phase = .running → ∃ u, exec .gridRetire s = .next u ∧
      (u.region h).phase = .freezing ∧ (u.region h).cause = some .gridRetired ∧ u.retireFrozen = s.retireFrozen ++ [h] ∧
      u.gridVersion = s.gridVersion ∧ .regionFreeze h ∈ u.agenda ∧ .gridRetire ∈ u.agenda)

/-- A packet of class LS leaves a port (R421, R424, R430): its flits take the next sequence numbers; its header holds the current version, the
class, the node identity of this end and the number of flits, its second word the route class and the destination; without feature bit 4 the
payload goes uncoded, in whole flits. -/
def Sys2Proof.Claims.PacketSent (s : State) (p : Nat) (x : OptPort) (k : TxPacket) (y : OptPort) : Prop :=
  ∃ q : LinkPacket, y.sent = x.sent ++ [⟨x.txSeq, q, crc32 (natLe 8 q.w0.toNat ++ natLe 8 q.w1.toNat ++ q.payload)⟩] ∧
    y.txSeq = x.txSeq + (q.w0.toNat % 2 ^ 14 + 1) ∧ q.w1 = BitVec.ofNat 64 (k.routeClass.toNat * 65536 + k.dest.toNat) ∧
    (k.payload.length ≤ 2 ^ 20 → q.w0.extractLsb' 48 16 = s.topoVer ∧ q.w0.getLsbD 47 = true ∧ q.w0.extractLsb' 30 16 = s.identity p ∧
      q.payload.length = 64 * (q.w0.toNat % 2 ^ 14 + 1) ∧
      (s.feature 4 = false → q.w0.getLsbD 46 = false ∧ q.payload.take k.payload.length = k.payload ∧
        ∀ b ∈ q.payload.drop k.payload.length, b = 0))

/-- Packets that arrive at a port whose link is up (R145, R385, R421, R422, R424, R427, R429): a CRC-32 or a length (LOG 109 DEDUCED) that does not agree
counts as a failure of the colour, and the second in a row retires it; otherwise packets are taken in the order of their sequence numbers. One
of class LS in its turn is delivered in the current version, held in the shadow version, and otherwise rejected and counted, a request
with a negative acknowledgement to its sender, and one that is delivered marks the strand whose access it answers (what the acknowledgement
holds, and which strand that is: LOG 110 DESIGN CHOICE); one of a circuit that has closed is
counted at its lease. -/
def Sys2Proof.Claims.PacketsArrive : Prop :=
  ∀ (s : State) (p colour seq : Nat) (w0 w1 : Word) (payload : List Byte) (crc : BitVec 32), p < 36 →
    let x := s.optPort p
    let v : BitVec 16 := w0.extractLsb' 48 16
    let k : LinkPacket := ⟨w0, w1, payload⟩
    let flits := w0.toNat % 2 ^ 14 + 1
    let whole : Prop := crc32 (natLe 8 w0.toNat ++ natLe 8 w1.toNat ++ payload) = crc ∧ payload.length = 64 * flits
    let o := exec (.linkPacketReceive p colour seq w0 w1 ⟨payload, crc⟩) s
    (x.state ≠ 2 → o = .next s) ∧
    (x.state = 2 → ¬ whole → ∃ u, o = .next u ∧ tabGet 0 (u.optPort p).fails colour = tabGet 0 x.fails colour + 1 ∧
      (u.optPort p).delivered = x.delivered ∧ (u.optPort p).rxSeq = x.rxSeq ∧
      (1 ≤ tabGet 0 x.fails colour → .colourRetire p colour ∈ u.agenda)) ∧
    (x.state = 2 → whole → w0.getLsbD 46 = false → x.rxWait = [] →
      (x.rxSeq < seq → ∃ u, o = .next u ∧ (u.optPort p).rxWait = [(seq, k)] ∧ (u.optPort p).delivered = x.delivered) ∧
      (seq < x.rxSeq → ∃ u, o = .next u ∧ (u.optPort p).rxWait = [] ∧ (u.optPort p).delivered = x.delivered) ∧
      (seq = x.rxSeq → ∃ u, o = .next u ∧ let y := u.optPort p
        y.rxSeq = x.rxSeq + flits ∧ y.rxWait = [] ∧ tabGet 0 y.fails colour = 0 ∧
        y.transients = (if tabGet 0 x.fails colour = 0 then x.transients else min (x.transients + 1) 255) ∧
        (w0.getLsbD 47 = true →
          (v = s.topoVer → y.delivered = x.delivered ++ [k] ∧
            (∀ t i, Config.nackFor payload = some (t, i) → (s.tile t).bound.isSome = true → (u.strandOf t i).nacked = true) ∧
            (Config.nackFor payload = none → u.tiles = s.tiles)) ∧
          (v ≠ s.topoVer → s.ktopo.getLsbD 32 = true → v = s.shadowVer → y.held = x.held ++ [k] ∧ y.delivered = x.delivered) ∧
          (v ≠ s.topoVer → s.ktopo.getLsbD 32 = false ∨ v ≠ s.shadowVer → y.stale = x.stale + 1 ∧ y.delivered = x.delivered ∧
            (Config.lsRequest payload = false → y.sent = x.sent) ∧
            (Config.lsRequest payload = true → x.txq = [] → Claims.PacketSent s p x
              ⟨false, 0, w0.extractLsb' 30 16, w1.extractLsb' 16 2, Config.nackPayload payload, false⟩ y))) ∧
        (∀ l, w0.getLsbD 47 = false → s.lease (w0.extractLsb' 14 16) = some l → l.phase = .closed → y.delivered = x.delivered ∧
          u.lease (w0.extractLsb' 14 16) = some { l with rejected := l.rejected + flits })))

/-- Links, leases and topology changes (R420 to R430, R333 to R335): colours, training with the identities compared, and going down, which keeps
what waits to be sent; training begins with the 8/8 split (LOG 78 DEDUCED); a lease opens when both ends have opened it within 1 ms for the same
port and peer (LOG 80 DEDUCED), drains at its expiry, and closes when both final tokens have passed; a grant loads the shadow version and its
route table, which are its operands, a commit makes it current and deletes the pending shootdowns of modules that have rejoined (LOG 79
DEDUCED), and a denial or the eighth time without an answer ends a change; a module that a removal is waited for, and that no table without it
has yet been granted for, holds its SHOOT (who asks for the removal: LOG 59 DEDUCED). No link trains when boot stopped at step 1 or 2 (R441). -/
def Sys2Proof.Claims.LinkControl : Prop :=
  ∀ (s : State) (p : Nat), p < 36 →
    let x := s.optPort p
    (∀ colour, colour < 16 → x.retired.getLsbD colour = false → ∃ u, exec (.colourRetire p colour) s = .next u ∧ u.tiles = s.tiles ∧
      (u.optPort p).tx = x.tx &&& ~~~(1#16 <<< colour) ∧ (u.optPort p).rx = x.rx &&& ~~~(1#16 <<< colour) ∧
      (u.optPort p).retired = x.retired ||| (1#16 <<< colour)) ∧
    (x.state ≠ 0 → ∃ u, exec (.linkDown p) s = .next u ∧ u.optPort p = { x with state := 0, fails := [] } ∧ u.tiles = s.tiles) ∧
    (∀ peer seq, x.state = 0 → x.retired = 0 → 3 ≤ s.bootStage → ∃ u, exec (.linkTrain p ⟨peer, seq⟩ []) s = .next u ∧
      let y := u.optPort p
      y.state = 2 ∧ y.tx = (if s.identity p < peer then 0x5555 else 0xAAAA) ∧ y.rx = ~~~y.tx ∧ y.peer = peer ∧ y.rxSeq = seq ∧
      y.rxWait = [] ∧ u.tiles = s.tiles ∧ (x.txq = [] → y.sent = x.sent) ∧
      (∀ k, x.txq = [k] → k.bulk = false → y.txq = [] ∧ Claims.PacketSent s p x k y)) ∧
    (∀ peer entries, x.state ≠ 0 ∨ s.bootStage < 3 → exec (.linkTrain p peer entries) s = .next s) ∧
    (∀ (n peer : BitVec 16) dur, s.lease n = none → ∃ u, exec (.leasePeerOpen n p peer dur) s = .next u ∧
      u.lease n = some ⟨p, peer, dur, s.time + 1000000, .peerOnly, 0, false, false⟩ ∧ .leaseOpenTimeout n ∈ u.agenda ∧ u.tiles = s.tiles) ∧
    (∀ (n peer : BitVec 16) dur l, s.lease n = some l → l.phase = .localOnly →
      (s.time < l.expiry → l.port = p → l.peer = peer → ∃ u, exec (.leasePeerOpen n p peer dur) s = .next u ∧ .leaseExpire n ∈ u.agenda ∧
        u.lease n = some { l with phase := .opened, expiry := s.time + 1000 * l.durationUs }) ∧
      (s.time < l.expiry → l.port ≠ p ∨ l.peer ≠ peer → exec (.leasePeerOpen n p peer dur) s = .next s) ∧
      (l.expiry ≤ s.time → ∃ u, exec (.leasePeerOpen n p peer dur) s = .next u ∧ .leaseOpenTimeout n ∈ u.agenda ∧
        u.lease n = some ⟨p, peer, dur, s.time + 1000000, .peerOnly, 0, false, false⟩)) ∧
    (∀ (n : BitVec 16) l, s.lease n = some l →
      (l.phase = .localOnly ∨ l.phase = .peerOnly → ∃ u, exec (.leaseOpenTimeout n) s = .next u ∧ u.tiles = s.tiles ∧
        (l.expiry ≤ s.time → u.lease n = none) ∧ (s.time < l.expiry → u.leases = s.leases ∧ .leaseOpenTimeout n ∈ u.agenda)) ∧
      (l.phase = .opened → exec (.leaseOpenTimeout n) s = .next s ∧ ∃ u, exec (.leaseExpire n) s = .next u ∧ u.tiles = s.tiles ∧
        (l.expiry ≤ s.time → u.lease n = some { l with phase := .draining }) ∧
        (s.time < l.expiry → u.leases = s.leases ∧ .leaseExpire n ∈ u.agenda)) ∧
      (l.phase = .draining → ∀ final, ∃ u, exec (.circuitClose ⟨n, final⟩) s = .next u ∧ u.tiles = s.tiles ∧
        let y : Lease := { l with sentFinal := l.sentFinal || s.drained n l.port, gotFinal := l.gotFinal || final }
        u.lease n = some (if y.sentFinal && y.gotFinal then { y with phase := .closed } else y))) ∧
    (∀ v routes far, ∃ u, exec (.topoGrant p v ⟨routes, far⟩) s = .next u ∧ u.topoVer = s.topoVer ∧ u.shadowVer = v ∧ u.shadowValid = true ∧
      u.shadowRemoved = far ∧ u.shadowRoutes = routes ∧ u.tiles = s.tiles ∧
      ∃ c, (u.optPort p).topo = some c ∧ c.granted = true ∧ c.version = v ∧ c.timeouts = 0) ∧
    (∀ v, (s.ktopo.getLsbD 32 = true ∧ s.shadowVer = v → s.shoots = [] → s.links = [] → ∃ u, exec (.topoCommit p v) s = .next u ∧
        u.topoVer = v ∧ u.shadowValid = false ∧ u.unreachable = s.shadowRemoved ∧ u.shadowRemoved = [] ∧ u.topoRoutes = s.shadowRoutes ∧
        (∀ m, m ∈ s.unreachable → m ∉ s.shadowRemoved → tabGet [] u.pendingShoot m = []) ∧ u.tiles = s.tiles) ∧
      (s.ktopo.getLsbD 32 = false ∨ s.shadowVer ≠ v → exec (.topoCommit p v) s = .next s)) ∧
    (∀ c, x.topo = some c →
      (c.granted = true → exec (.topoDeny p) s = .next s) ∧
      (c.granted = false → ∃ u, exec (.topoDeny p) s = .next u ∧ (u.optPort p).topo = none ∧ u.ktopo = s.ktopo ∧ u.tiles = s.tiles) ∧
      (c.timeouts < 7 → ∃ u, exec (.topoMessageTimeout p) s = .next u ∧ u.optPort p = { x with topo := some { c with timeouts := c.timeouts + 1 } } ∧
        u.tiles = s.tiles ∧ u.ktopo = s.ktopo) ∧
      (7 ≤ c.timeouts → c.granted = true → s.shoots = [] → ∃ u, exec (.topoMessageTimeout p) s = .next u ∧ (u.optPort p).topo = none ∧
        u.shadowValid = false ∧ u.topoVer = s.topoVer)) ∧
    (∀ id m k, s.shootOf id = some k → m ∈ k.asked → s.unreachable.contains m = true → (∀ e ∈ s.shoots, ∀ y, e.2 = some y → y.removing = []) →
      k.removing = [] → ∃ u, exec (.shootAckTimeout id m) s = .next u ∧ u.tiles = s.tiles ∧ u.shootOf id =
        some { k with asked := k.asked.filter (fun n => n != m), recorded := k.recorded + 1 }) ∧
    (∀ id m k, s.shoots = [(id, some k)] → m ∈ k.asked → s.unreachable.contains m = false → k.removing = [] →
      ∃ u, exec (.shootAckTimeout id m) s = .next u ∧ u.tiles = s.tiles ∧
        u.shootOf id = some { k with asked := k.asked.filter (fun n => n != m), removing := [m], recorded := k.recorded + 1 } ∧
        (s.isHome k.range.ctx = false → u.links = s.links ∧ u.pendingShoot = s.pendingShoot) ∧
        (s.isHome k.range.ctx = true → s.links = [] → (u.optPort 0).topo.isSome = true ∧
          (tabGet [] s.pendingShoot m = [] → tabGet [] u.pendingShoot m = [k.range])))

/-- Links, leases, packets and topology changes (R420 to R430, R333 to R335). -/
def Obligations.LinkSteps : Prop := Claims.LinkControl ∧ Claims.PacketsArrive

/-- The host's commands (R332, R339, R421, R425, R426, R428, R434, R435, R441, R447): a command with an unnamed bit set returns status 1 and
changes nothing (LOG 81 DEDUCED); otherwise each has its effect and status 0, or is refused with its status. A topology request goes through the
lowest scale-up port through which no change runs (LOG 79 DEDUCED), with the route table that change 2 names, and its command ends with the
switch's answer (LOG 106 DEDUCED); a LEASE_OPEN that names another port or peer than the first end is refused with status 3 (LOG 80 DEDUCED);
which colours a split moves is free (LOG 38 DESIGN CHOICE), whether the peer agrees to it is an operand (LOG 39 DESIGN CHOICE), and the peer's
host may start one. -/
def Obligations.HostCommands : Prop :=
  ∀ (s : State) (w7 : Word),
    let s1 := { s with dist := { s.dist with command := tabSet 0 s.dist.command 7 w7 } }
    let done (n : Nat) (x : State) : Host.Outcome State Fault Refusal :=
      .next (x.post 4 0x0501 [(w7 &&& 0xFFFF000000000000) ||| BitVec.ofNat 64 n])
    let w (n : Nat) : Word := tabGet 0 s.dist.command n
    let ok (m : List Word) : Prop := ∀ n, n < 7 → w n &&& ~~~(nth 0 m n) = 0
    let ctx : BitVec 16 := (w 0).truncate 16
    let h : BitVec 32 := (w 0).extractLsb' 32 32
    let root : BitVec 56 := (w 1).truncate 56
    let quota := (w 2).toNat % 2 ^ 40
    let lease : BitVec 16 := (w 0).truncate 16
    let dur := (w 2).toNat % 2 ^ 32
    let port := (w 0).toNat / 2 ^ 16 % 64
    let r := s.region h
    (¬ ok [0xFFFF] → exec (.ctxKill w7) s = done 1 s1) ∧
    (ok [0xFFFF, 0xFFFFFFFFFFFFFF, 0xFFFFFFFFFF] →
      (root.toNat % 16384 ≠ 0 → exec (.ctxCreate w7) s = done 1 s1) ∧
      (root.toNat % 16384 = 0 → s.context ctx ≠ none → exec (.ctxCreate w7) s = done 2 s1) ∧
      (root.toNat % 16384 = 0 → s.context ctx = none →
        exec (.ctxCreate w7) s = done 0 (s1.setContext ctx ⟨0, root, quota, 0, 0, [], false, 0, [], none⟩))) ∧
    (∀ c, s.context ctx = some c →
      (ok [0xFFFF] → ∃ u, exec (.ctxKill w7) s = .next u ∧ (∃ c', u.context ctx = some c' ∧ c'.gen = c.gen + 1 ∧ c'.root = c.root) ∧
        (∀ i ∈ u.dist.gangs, i.ctx ≠ ctx) ∧ ∀ i ∈ u.dist.chainWait, i.ctx ≠ ctx) ∧
      (ok [0xFFFF, 0xFFFFFFFFFFFFFF, 0xFFFFFFFFFFFFFFFF] → root.toNat % 64 = 0 → (∀ q ∈ s.regionsOf ctx, q.phase ≠ .frozen) →
        exec (.ctxSavearea w7) s = done 0 (s1.setContext ctx { c with savePa := root, saveBytes := (w 2).toNat })) ∧
      (ok [0x1FFFF] → exec (.ctxDebug w7) s = done 0 (s1.setContext ctx { c with debug := (w 0).getLsbD 16 })) ∧
      (ok [0xFFFF, 0, 0xFFFFFFFFFF] → exec (.quotaSet w7) s = done 0 (s1.setContext ctx { c with quota := quota })) ∧
      (ok [0x33FFFFF, 0xFFFFFFFFFFFFFF, 0xFFFFFFFFFFFFFFFF] → root.toNat % 16384 = 0 → (w 2).toNat % 4096 = 0 →
        let set_ := (w 0).toNat / 2 ^ 16 % 64
        let n := (w 0).toNat / 2 ^ 24 % 4
        let x := s.weights set_
        x.reserved = none → (x.slot n).version = 0 → ∃ u, exec (.pvPlace w7) s = .next u ∧
          (u.weights set_).slot n = ⟨true, ctx, root, (w 2).toNat, 0⟩ ∧ (u.weights set_).published = x.published)) ∧
    (s.context ctx = none → ok [0x1FFFF] → exec (.ctxDebug w7) s = done 1 s1) ∧
    (ok [0xFFFFFFFF00000000] →
      (s.live h = false → exec (.hostFreeze w7) s = done 1 s1 ∧ exec (.hostThaw w7) s = done 1 s1) ∧
      (s.live h = true → r.phase = .running → exec (.hostThaw w7) s = done 2 s1 ∧ ∃ u, exec (.hostFreeze w7) s = .next u ∧
        (u.region h).phase = .freezing ∧ (u.region h).cause = some .hostFreeze ∧ .regionFreeze h ∈ u.agenda) ∧
      (s.live h = true → r.phase = .frozen → exec (.hostFreeze w7) s = done 2 s1 ∧
        ∃ u, exec (.hostThaw w7) s = .next u ∧ (u.region h).phase = .thawing ∧
          (r.awaiting = false → .placementReserve ∈ u.agenda) ∧ (r.awaiting = true → .thawRestore h [] ∈ u.agenda))) ∧
    (ok [0x3FFFFF, 0xFFFF, 0xFFFFFFFF] → port < 36 → dur ≠ 0 → let peer : BitVec 16 := (w 1).truncate 16
      (s.lease lease = none → exec (.leaseOpen w7) s = 
        done 0 ((s1.setLease lease (some ⟨port, peer, dur, s.time + 1000000, .localOnly, 0, false, false⟩)).ask (.leaseOpenTimeout lease))) ∧
      (∀ l, s.lease lease = some l → l.phase = .peerOnly → s.time < l.expiry → l.port = port → l.peer = peer →
        ∃ u, exec (.leaseOpen w7) s = .next u ∧
          u.lease lease = some ⟨port, peer, dur, s.time + 1000 * dur, .opened, 0, false, false⟩) ∧
      (∀ l, s.lease lease = some l → l.phase = .peerOnly → s.time < l.expiry → l.port ≠ port ∨ l.peer ≠ peer →
        exec (.leaseOpen w7) s = done 3 s1) ∧
      (∀ l, s.lease lease = some l → l.phase = .peerOnly ∨ l.phase = .localOnly → l.expiry ≤ s.time →
        ∃ u, exec (.leaseOpen w7) s = .next u ∧
          u.lease lease = some ⟨port, peer, dur, s.time + 1000000, .localOnly, 0, false, false⟩) ∧
      (∀ l, s.lease lease = some l → l.phase = .opened → exec (.leaseOpen w7) s = done 2 s1)) ∧
    (ok [0xFFFF, 0, 0xFFFFFFFF] → dur ≠ 0 → ∀ l, s.lease lease = some l → l.phase = .opened →
      (l.expiry ≤ s.time + 100 * l.durationUs → s.time < l.expiry → exec (.leaseRenew w7) s =
        done 0 (s1.setLease lease (some { l with expiry := l.expiry + 1000 * dur, durationUs := dur }))) ∧
      (s.time + 100 * l.durationUs < l.expiry → exec (.leaseRenew w7) s = done 2 s1)) ∧
    (ok [0xFF03, 0xFFFFFFFFFFFFFFFF, 0xFFFFFFFFFFFFFFFF] →
      ((w 0).toNat % 4 < 2 ∧ w 1 = 0 ∧ w 2 = 0) ∨ ((w 0).toNat % 4 = 2 ∧ (w 0).toNat / 2 ^ 8 % 2 ^ 8 = 0) →
      (∀ q, q < 24 → (s.optPort q).topo = none → (∀ k, k < q → (s.optPort k).topo ≠ none) → ∃ u, exec (.topoRequest w7) s = .next u ∧
        u.events = s.events ∧ (u.optPort q).topo = some ⟨some (w 0),
          if (w 0).toNat % 4 = 2 then readBytes s.hostMem (w 1).toNat (w 2).toNat else [], some w7, 0, false, 0⟩) ∧
      ((∀ q, q < 24 → (s.optPort q).topo ≠ none) → exec (.topoRequest w7) s = done 2 s1)) ∧
    (ok [0x13F] → let q := (w 0).toNat % 64
      (36 ≤ q → exec (.colourSplit w7 (.host true)) s = done 1 s1) ∧
      (q < 36 → (s.optPort q).state = 2 → 4 ≤ (colours (s.optPort q).tx).length → (w 0).getLsbD 8 = true →
        exec (.colourSplit w7 (.host false)) s = done 3 s1 ∧ ∃ u, exec (.colourSplit w7 (.host true)) s = .next u ∧
          let y := u.optPort q
          (colours y.tx).length + 2 = (colours (s.optPort q).tx).length ∧ y.tx ||| y.rx = (s.optPort q).tx ||| (s.optPort q).rx)) ∧
    (∀ q, q < 36 → (s.optPort q).state = 2 → 4 ≤ (colours (s.optPort q).rx).length →
      exec (.colourSplit w7 (.peer q false false)) s = .next s ∧ ∃ u, exec (.colourSplit w7 (.peer q false true)) s = .next u ∧
        u.events = s.events ∧ let y := u.optPort q
        (colours y.rx).length + 2 = (colours (s.optPort q).rx).length ∧ y.tx ||| y.rx = (s.optPort q).tx ||| (s.optPort q).rx) ∧
    (ok [0xFFFFFFFFFFFFFFFF, 0xFFFFFFFFFFFFFFFF, 0xFFFFFFFFFFFFFFFF, 0xFFFFFFFFFFFFFFFF] → ∃ u, exec (.measureExtend w7) s = .next u ∧
      u.measured 7 = shaValue (natLe 32 (s.measured 7).toNat ++ (upFrom 0 4).flatMap fun n => natLe 8 (w n).toNat)) ∧
    (ok [1, 0xFFFFFFFFFFFFFFFF, 0xFFFFFFFFFFFFFFFF] → (w 1).toNat % 64 = 0 → let c := (w 0).toNat % 2
      let bytes := readBytes s.hostMem (w 1).toNat (w 2).toNat
      (s.mapGood.getLsbD c = true → exec (.mapWrite w7 true) s = done 2 s1) ∧
      (s.mapGood.getLsbD c = false → exec (.mapWrite w7 false) s = done 1 s1 ∧
        (shaValue bytes = s.fusedMap → exec (.mapWrite w7 true) s = done 0 { s1 with flash := tabSet [] s.flash c bytes })))

/-- The register space, the event queue, boot, acceptance, attestation, clock and power (R431, R436 to R438, R441 to R452): a posted event
goes to the host queue or waits; the registers of Table 13.2 are written and read; a posted write reaches its home in order, before a read on
its link and before any later register write, a launch record's among them (R296, R303); boot verifies both copies of the defect map, rewrites
a bad one from the good one, applies the field-retirement list that it finds good and then enables the grid, and a base boot enables the
176 × 168 grid and waits for ACCEPT0; the first write of an ACCEPT register accepts offered bits, and that of ACCEPT0 ends boot unless boot
stopped at step 1 or 2 (LOG 82 DEDUCED); at 105 degrees the power goes, and with it the pending steps (LOG 83 DEDUCED). -/
def Obligations.HostSteps : Prop :=
  (∀ (s : State) (src type : Nat) (body : List Word), let e := tabGet EventSource.idle s.events src
    let a := (s.hostReg 0xC0).toNat + 64 * (s.eqTail % (s.hostReg 0xC8).toNat)
    let u := s.post src type body
    (e.buffer = [] → s.eventSpace = true → u.eqTail = s.eqTail + 1 ∧ tabGet EventSource.idle u.events src = { e with seq := e.seq + 1 } ∧
      readNat u.hostMem a 8 = (type * 2 ^ 48 + src * 2 ^ 32 + e.seq.toNat) % 2 ^ 64 ∧ readNat u.hostMem (a + 8) 8 = s.time % 2 ^ 64) ∧
    (s.eventSpace = false → e.buffer.length < 32 → u.hostMem = s.hostMem ∧ u.eqTail = s.eqTail ∧
      (tabGet EventSource.idle u.events src).buffer.length = e.buffer.length + 1) ∧
    (s.eventSpace = false → 32 ≤ e.buffer.length → u.hostMem = s.hostMem ∧
      tabGet EventSource.idle u.events src = { e with seq := e.seq + 1, dropped := e.dropped + 1 })) ∧
  (∀ (s : State) (src : Nat) (seq : BitVec 32) (ws : List Word), s.events = [(src, ⟨seq, [ws], 0⟩)] →
    (s.eventSpace = true → ∃ u, exec .eventQueueAdvance s = .next u ∧ u.eqTail = s.eqTail + 1 ∧
      tabGet EventSource.idle u.events src = ⟨seq, [], 0⟩ ∧ u.tiles = s.tiles) ∧
    (s.eventSpace = false → exec .eventQueueAdvance s = .next s)) ∧
  (∀ (s : State) (v : Word) (n l : Nat), l < 2 → s.posted = [] →
    let reg (off : Nat) (v : Word) : Instr := .registerWrite l (.register off v)
    let read (off : Nat) : Instr := .registerWrite l (.read off)
    (n < 7 → exec (reg (8 * n) v) s = .next { s with dist := { s.dist with window := tabSet 0 s.dist.window n v } } ∧
      exec (reg (0x80 + 8 * n) v) s = .next { s with dist := { s.dist with command := tabSet 0 s.dist.command n v } }) ∧
    exec (reg 0x38 v) s = exec (.launchRecord v) s ∧
    (n < 8 → exec (reg (0x100 + 8 * n) v) s = exec (.acceptWrite n v) s) ∧
    exec (reg 0x220 1) s = exec .attestRequest s ∧
    (∀ off, off ∈ [0xC0, 0xE0] → exec (reg off v) s = .next { s with hostRegs := tabSet 0 s.hostRegs off v }) ∧
    (∀ off, off ∈ [0xC8, 0xD0] → exec (reg off v) s = .next ({ s with hostRegs := tabSet 0 s.hostRegs off v }.ask .eventQueueAdvance)) ∧
    (∀ off, off % 8 ≠ 0 → exec (reg off v) s = .next s) ∧
    (n < 8 → exec (read (0x140 + 8 * n)) s = .next { s with hostRead := BitVec.ofNat 64 (s.offered.toNat / 2 ^ (32 * n) % 2 ^ 32) }) ∧
    (∀ off, off ∈ [0xC0, 0xC8, 0xD0, 0xE0, 0xE8, 0xF0] → exec (read off) s = .next { s with hostRead := s.hostReg off }) ∧
    exec (read 0x180) s = .next { s with hostRead := s.bootstat } ∧
    exec (read 0x220) s = .next { s with hostRead := s.attestState } ∧
    (n < 64 → 8 * n ∉ [0x20, 0x1C0, 0x1C8] → exec (read (0x200 + 8 * n)) s = .next { s with hostRead := readWord s.attest (8 * n) }) ∧
    (∀ off, off % 8 ≠ 0 ∨ (0x60 ≤ off ∧ off < 0x80) ∨ (0x188 ≤ off ∧ off < 0x200) ∨ (0x400 ≤ off ∧ off < 0x1000) ∨ 0x2000 ≤ off →
      exec (read off) s = .next { s with hostRead := 0 })) ∧
  (∀ (s : State) (l pa n : Nat) (bs : List Byte) (v : Word),
    (l < 2 → ∃ u, exec (.registerWrite l (.store pa bs)) s = .next u ∧ u.postedOn l = s.postedOn l ++ [(pa, bs)] ∧ u.mem = s.mem) ∧
    (2 ≤ l → ∀ act, exec (.registerWrite l act) s = .next s) ∧
    (l < 2 → s.posted = [(l, [(pa, bs)])] → ∃ u, exec (.registerWrite l .land) s = .next u ∧ u.posted = [] ∧ u.tiles = s.tiles ∧
      (∀ i, i < bs.length → readByte u.mem (pa + i) = nth 0 bs i) ∧
      ∀ off, exec (.registerWrite l (.register off v)) s = exec (.registerWrite l (.register off v)) u ∧
        exec (.registerWrite l (.read off)) s = exec (.registerWrite l (.read off)) u) ∧
    (l < 2 → s.posted = [(l, [(pa, bs)])] → ∀ act, act = .read (8 * n) ∨ act = .register 0x50 v ∨
      (n < 7 ∧ (act = .register (8 * n) v ∨ act = .register (0x80 + 8 * n) v)) → ∃ u, exec (.registerWrite l act) s = .next u ∧
        u.posted = [] ∧ u.tiles = s.tiles ∧ ∀ i, i < bs.length → readByte u.mem (pa + i) = nth 0 bs i)) ∧
  (∀ (s : State) (inp : BootInput),
    (inp.rootKeyOk = false → ∃ u, exec (.boot inp) s = .next u ∧ u.bootstat = 0x100 ∧ u.mem = s.mem ∧ u.tiles = []) ∧
    (inp.rootKeyOk = true → inp.firmwareOk = false → ∃ u, exec (.boot inp) s = .next u ∧ u.bootstat = 0x200 ∧ u.mem = s.mem) ∧
    (inp.rootKeyOk = true → inp.firmwareOk = true → ∃ u, exec (.boot inp) s = .next u ∧ u.mem = s.mem ∧ u.hostMem = s.hostMem ∧
      u.accepted = 0 ∧
      let a := inp.flashA.getD (tabGet [] s.flash 0)
      let b := inp.flashB.getD (tabGet [] s.flash 1)
      let good (signed : Bool) (bs : List Byte) : Prop := signed = true ∧ shaValue bs = inp.fusedMap
      let list := if inp.listAOk then tabGet [] s.retireCopies 0 else if inp.listBOk then tabGet [] s.retireCopies 1 else []
      (good inp.mapASigned a → u.bootstat.getLsbD 0 = false ∧ tabGet [] u.flash 0 = a ∧
        (good inp.mapBSigned b → tabGet [] u.flash 1 = b) ∧ (¬ good inp.mapBSigned b → tabGet [] u.flash 1 = a ∧
          u.bootstat.getLsbD 2 = true)) ∧
      (¬ good inp.mapASigned a → good inp.mapBSigned b → u.bootstat.getLsbD 0 = false ∧ u.bootstat.getLsbD 2 = true ∧
        tabGet [] u.flash 0 = b ∧ tabGet [] u.flash 1 = b) ∧
      (¬ good inp.mapASigned a → ¬ good inp.mapBSigned b → u.bootstat.getLsbD 0 = true ∧ u.bootstat.getLsbD 1 = true ∧ u.surplus = false) ∧
      (inp.listAOk = false → inp.listBOk = false → u.bootstat.getLsbD 2 = true) ∧
      (inp.selfTestFails = [] → u.retirements = list ∧
        (u.surplus = false → ∀ b, (b < 8 → u.cb b = min 22 (u.bandCols b)) ∧ (b < 6 → u.rb b = min 28 (u.bandRows b))) ∧
        (u.surplus = true → u.colCount = tableOf (capCounts 184 192 ((upFrom 0 8).map u.bandCols)) ∧
          u.rowCount = tableOf (capCounts 180 192 ((upFrom 0 6).map u.bandRows)))) ∧
      (∀ e, inp.selfTestFails = [] → list = [e] → e.axis = 0 →
        u.offCols = inp.offCols ++ (upFrom 0 6).map (fun a => 64 * (8 * a + e.band) + nth 0 e.index a)) ∧
      (inp.m184 = false → good inp.mapASigned a → good inp.mapBSigned b → inp.listAOk = true → list = [] → inp.offCols = [] →
        inp.offRows = [] → inp.selfTestFails = [] → u.gridCols = 176 ∧ u.gridRows = 168 ∧ u.bootstat = 0x700))) ∧
  (∀ (s : State) (n : Nat) (v : Word), n < 8 →
    (s.acceptWritten.getLsbD n = true → exec (.acceptWrite n v) s = .next s) ∧
    (s.acceptWritten.getLsbD n = false → ∃ u, exec (.acceptWrite n v) s = .next u ∧ u.acceptWritten.getLsbD n = true ∧
      u.accepted = s.accepted ||| ((BitVec.ofNat 256 (v.toNat % 2 ^ 32) <<< (32 * n)) &&& s.offered) ∧
      (n = 0 → 7 ≤ s.bootStage → u.bootstat.getLsbD 6 = true ∧ .launchIntake ∈ u.agenda) ∧
      (s.bootStage < 7 → u.bootstat = s.bootstat ∧ u.measure = s.measure))) ∧
  (∀ (s : State), (s.attestState ≠ 1 → ∃ u, exec .attestRequest s = .next u ∧ u.attestState = 1 ∧ u.attest = s.attest) ∧
    (s.attestState = 1 → s.attestAgain = false → ∃ u, exec .attestComplete s = .next u ∧ u.attestState = 2 ∧
      readBytes u.attest 0x40 384 = (upFrom 0 384).map (Config.signature s.attestDigest)) ∧
    (s.attestState ≠ 1 → exec .attestComplete s = .next s)) ∧
  (∀ (s : State) (c : Nat),
    (105 ≤ c → ∃ u, exec (.thermal c) s = .next u ∧ u.powered = false ∧ u.agenda = []) ∧
    (95 ≤ c → c < 105 → ∃ u, exec (.thermal c) s = .next u ∧ u.clockMHz = min s.clockMHz 900 ∧ u.powered = s.powered) ∧
    (c < 95 → exec (.thermal c) s = .next s) ∧
    (600 < s.clockMHz → ∃ u, exec .powerCapStep s = .next u ∧ u.clockMHz = max 600 (s.clockMHz - 75) ∧ u.tiles = s.tiles) ∧
    (s.clockMHz ≤ 600 → exec .powerCapStep s = .next s) ∧
    ∃ u, exec .powerDown s = .next u ∧ u.powered = false ∧ u.mem = s.mem)

/-! # The machine as a whole -/

namespace Sys2Proof.Claims

/-- The next step is the turn of the strand that issues, and that strand runs an instruction: the device has power, its tile's region
runs, no debug halt holds it, a firing runs on it, and no deferred fault stands before the instruction. -/
def Runs (s : State) : Prop :=
  (s.evTurn = false ∨ s.agenda = []) ∧ s.powered = true ∧ s.active s.cur.tile = true ∧ s.curStrand.halted = false ∧
    s.curStrand.isFiring = true ∧ s.curStrand.deferred = []

/-- The guard of a word holds: p[PI], negated when PN is 1 (R86). -/
def GuardHolds (s : State) (w : Word) : Prop :=
  s.curStrand.rp (w.extractLsb' 51 3) ≠ w.getLsbD 54

/-- A word whose code stands behind a feature bit that is not accepted: the Inlay fabric (2), the policy-version registry (5) and
the backward derivation (8), as Table 1.12 has them (R239). -/
def Unaccepted (s : State) (w : Word) : Prop :=
  let opc := (w.extractLsb' 55 9).toNat
  (0x150 ≤ opc ∧ opc ≤ 0x155 ∧ s.feature 2 = false) ∨ (0x192 ≤ opc ∧ opc ≤ 0x198 ∧ s.feature 5 = false) ∨
    (opc = 0x1CF ∧ s.feature 8 = false)

end Sys2Proof.Claims

/-- R27, R86 and R97: a step at which the issuing strand runs takes the word at its PC. A false guard retires it with no other
effect, whatever its bits hold; a word that decodes executes as its instruction; a word that fails a decode check takes that check's
cause at its own index, with the whole word as KTVAL; a code whose feature is not accepted counts as unassigned. What the step adds
is the clock, the step count and the turn of the next strand (the model's own, LOG 4, LOG 5). -/
def Obligations.StepRunsDecodedWord : Prop :=
  (∀ (s : State), s.tick = { s with steps := s.steps + 1, time := s.time + Config.stepNs s.steps, evTurn := !s.evTurn }) ∧
  (∀ (s t : State), s.rotate = t → t = { s with cur := t.cur }) ∧
  ∀ (s : State), Runs s →
    (¬ GuardHolds s s.word → step s = .next (retire s.tick).rotate) ∧
    (∀ (i : Instr), GuardHolds s s.word → ¬ Unaccepted s s.word → decode s.word = .ok i →
      step s = mapNext State.rotate (exec i s.tick)) ∧
    (∀ (c : Cause), GuardHolds s s.word →
      (Unaccepted s s.word ∧ c = .illegalOpcode) ∨ (¬ Unaccepted s s.word ∧
        ((decode s.word = .illegalOpcode ∧ c = .illegalOpcode) ∨ (decode s.word = .reservedField ∧ c = .reservedField) ∨
          (decode s.word = .illegalModifier ∧ c = .illegalModifier))) →
      step s = .next (takeTrap s.tick c s.word s.curStrand.pc).rotate)

/-- R342, R369 and R166, and the model's interleaving (LOG 4): a step of another agent that stands first in the agenda runs when it
has the turn; otherwise an idle strand's tile may dispatch a firing, a deferred fault comes before the next instruction or at one that waits
(LOG 45 DEDUCED), and a strand
that is halted, without power or outside a running region does nothing. -/
def Obligations.StepTurns : Prop :=
  (∀ (s : State) (e : Instr) (rest : List Instr), s.evTurn = true → s.agenda = e :: rest →
    step s = exec e { s.tick with agenda := rest }) ∧
  ∀ (s : State), (s.evTurn = false ∨ s.agenda = []) →
    ((s.powered = false ∨ s.active s.cur.tile = false ∨ s.curStrand.halted = true) → step s = .next s.tick.rotate) ∧
    (s.powered = true → s.active s.cur.tile = true → s.curStrand.halted = false →
      (s.curStrand.isFiring = false → step s = mapNext State.rotate (exec (.firingDispatch s.cur.tile) s.tick)) ∧
      (s.curStrand.isFiring = true → s.curStrand.deferred ≠ [] →
        step s = mapNext State.rotate (exec .deferredFaultDelivery s.tick)))

/-- Words that the spec prints, or that its tables of the encoding give, decode to the instructions that they stand for. -/
def Obligations.WordsDecode : Prop :=
  (decode 0x0080820000000001 = .ok (.addI 4 4 1) ∧ decode 0x0000820800000000 = .ok (.add 4 4 4) ∧
    decode 0x1000620A00600000 = .ok (.cmp 3 4 5 .ltu) ∧ decode 0x20000001FFFFFFFD = .ok (.br true 0xFFFFFFFD) ∧
    decode 0x2107E00000000028 = .ok (.call 63 false 40)) ∧
  (decode 0x2450A28800000000 = .ok (.faddF32 5 5 4 .rne) ∧ guardOf 0x2450A28800000000 = ⟨true, 2⟩ ∧
    decode 0x2700C39049000000 = .ok (.ffmaF32 6 7 8 9 .rtz) ∧
    decode 0x2E81458014000000 = .ok (.fcvt 10 11 .fp32 .bf16 false .sr)) ∧
  (decode 0x4080828008000008 = .ok (.st 4 5 0 0 2 .plain .str 8) ∧
    decode 0x4B80C4000F600000 = .ok (.cas 6 8 0 0 3 .ar .waf 0) ∧ decode 0x4680828C38000000 = .ok (.copy 4 5 6 7 false false .rne false 0) ∧
    decode 0x6201018000000003 = .ok (.qpop 8 3 3) ∧ decode 0x6600010000000004 = .ok (.cbwaitFI 2 4)) ∧
  (decode 0x8100408020000004 = .ok (.vrunHh 2 1 (.imm 4) false 1) ∧ decode 0x8380200000000008 = .ok (.vloopI 1 8) ∧
    decode 0xA000008040000000 = .ok (.mldsS 1 .bf16 0) ∧ decode 0xA800828000000000 = .ok (.iload 4 5)) ∧
  (decode 0xC000040006C00000 = .ok (.nsend 8 3 3) ∧ decode 0xC780000000000002 = .ok (.vnrelI 2) ∧
    decode 0xC880800000100043 = .ok (.barI 4 3 true 16) ∧ decode 0xC982600000000002 = .ok (.pvgetI 19 2) ∧
    decode 0xE080000000000021 = .ok (.trapI 0x21) ∧ decode 0xE100000000000000 = .ok .eret ∧
    decode 0xE180800008000000 = .ok (.krd 4 16))

/-- R85 to R97: no bit of an encoding is dropped. Every well-formed instruction word decodes to its instruction and its guard, and
every word that decodes is the encoding of its instruction. -/
def Obligations.EncodeDecode : Prop :=
  (∀ (gd : Guard) (i : Instr) (w : Word), wellFormed i = true → encode gd i = some w → decode w = .ok i ∧ guardOf w = gd) ∧
  (∀ (w : Word) (i : Instr), decode w = .ok i → wellFormed i = true ∧ encode (guardOf w) i = some w)

/-- Every step keeps home memory and host memory in their canonical form: addresses rise strictly, and no entry holds what an
unlisted address reads as (the model's own form, LOG 2). -/
def Obligations.MemoryStaysCanonical : Prop :=
  ∀ (s t : State), s.MemOk → step s = .next t → t.MemOk

/-- Every word and every step of another agent has an effect: a step from any state answers a next state. A word without a meaning
traps (R97), so no step faults and none refuses. -/
def Obligations.EveryStepAnswers : Prop := ∀ (s : State), s.SafeStep

/-- R27, and Table 1.4: g0 and p0 discard what is written, read 0 and 1, and every other register holds what was written; a write
changes that one register. Replacing the issuing strand changes no other strand and nothing outside the tiles. -/
def Obligations.RegistersHold : Prop :=
  (∀ (x : Strand) (v : Word), x.wg 0 v = x ∧ x.rg 0 = 0) ∧
  (∀ (x : Strand) (b : Bool), x.wp 0 b = x ∧ x.rp 0 = true) ∧
  (∀ (x : Strand) (d n : BitVec 6) (v : Word), d ≠ 0 →
    (x.wg d v).rg n = (if n = d then v else x.rg n) ∧ x.wg d v = { x with g := (x.wg d v).g }) ∧
  (∀ (x : Strand) (d n : BitVec 3) (b : Bool), d ≠ 0 →
    (x.wp d b).rp n = (if n = d then b else x.rp n) ∧ x.wp d b = { x with p := (x.wp d b).p }) ∧
  (∀ (s : State) (x : Strand), (s.setCur x).curStrand = x ∧ s.setCur x = { s with tiles := (s.setCur x).tiles } ∧
    (∀ (n : Nat), n ≠ s.cur.tile → (s.setCur x).tile n = s.tile n) ∧
    (∀ (k : Fin 4), k ≠ s.cur.strand → (s.setCur x).curTile.strand k = s.curTile.strand k) ∧
    (s.setCur x).curTile = { s.curTile with strands := (s.setCur x).curTile.strands })

/-- What reset leaves: KSTATUS holds the strand's number, and 0 in the fields to which Table 1.6 gives 0; KCAUSE, KTVAL, KEPC, KSPILL and KFLAGS
are 0 (Table 1.11), KTOPO is 0 (R46), M0 to M7 are 0 (R441), no feature is accepted (R444), every source's SEQ is 0 (R436), and no region,
context or translation exists. KTVEC, RM and DZT, which the tables call configured, are 0 until an image configures them (LOG 1 DESIGN CHOICE).
Both memories are in their canonical form (the model's own, LOG 2). -/
def Obligations.ResetValues : Prop :=
  (∀ (n : Nat) (k : Fin 4), let x := (State.reset.tile n).strand k
    x.kstatus = BitVec.ofNat 64 (2048 * k.val) ∧ x.kcause = 0 ∧ x.ktval = 0 ∧ x.kepc = 0 ∧ x.kspill = 0 ∧ x.firing = none ∧
      x.tokens = 0) ∧
  (∀ (n : Nat), (State.reset.tile n).ktvec = 0 ∧ (State.reset.tile n).kflags = 0 ∧ (State.reset.tile n).bound = none ∧
    (State.reset.tile n).dtlb = [] ∧ (State.reset.tile n).itlb = []) ∧
  (∀ (h : BitVec 32), State.reset.live h = false) ∧ State.reset.contexts = [] ∧ State.reset.ktopo = 0 ∧
  State.reset.accepted = 0 ∧ State.reset.acceptWritten = 0 ∧ State.reset.measure = [] ∧ State.reset.events = [] ∧
  State.reset.bootstat = 0 ∧ State.reset.time = 0 ∧ State.reset.MemOk
end

