-- ==== Sys2Proof/Laws/Exec.lean ====
section
/-!
SUPPORT. The meaning that exec gives each constructor, one equation each: proofs rewrite with these and unfold exec nowhere.
-/
namespace Sys2Proof.Machine

theorem exec_firingDispatch (t : Nat) (s : State) : exec (.firingDispatch t) s = execFiringDispatch t s := rfl
theorem exec_engineFiringCommit (t : Nat) (kind : Nat) (s : State) : exec (.engineFiringCommit t kind) s = execEngineFiringCommit t kind s := rfl
theorem exec_channelTokenArrival (h : BitVec 32) (ch : Nat) (s : State) : exec (.channelTokenArrival h ch) s = execChannelTokenArrival h ch s := rfl
theorem exec_freeSpaceReturn (h : BitVec 32) (ch : Nat) (s : State) : exec (.freeSpaceReturn h ch) s = execFreeSpaceReturn h ch s := rfl
theorem exec_seedWindowWrite (w0 : Word) (w1 : Word) (s : State) : exec (.seedWindowWrite w0 w1) s = execSeedWindowWrite w0 w1 s := rfl
theorem exec_seedDelivery (h : BitVec 32) (s : State) : exec (.seedDelivery h) s = execSeedDelivery h s := rfl
theorem exec_resultPortPop (h : BitVec 32) (ch : Nat) (s : State) : exec (.resultPortPop h ch) s = execResultPortPop h ch s := rfl
theorem exec_streamPortPush (h : BitVec 32) (n : Nat) (s : State) : exec (.streamPortPush h n) s = execStreamPortPush h n s := rfl
theorem exec_collectPortPop (h : BitVec 32) (n : Nat) (s : State) : exec (.collectPortPop h n) s = execCollectPortPop h n s := rfl
theorem exec_spindleEntryExecute (t : Nat) (s : State) : exec (.spindleEntryExecute t) s = execSpindleEntryExecute t s := rfl
theorem exec_matrixEntryExecute (t : Nat) (s : State) : exec (.matrixEntryExecute t) s = execMatrixEntryExecute t s := rfl
theorem exec_maccReexecute (t : Nat) (clean : Bool) (s : State) : exec (.maccReexecute t clean) s = execMaccReexecute t clean s := rfl
theorem exec_quartetJoin (t : Nat) (s : State) : exec (.quartetJoin t) s = execQuartetJoin t s := rfl
theorem exec_inlayEntryExecute (t : Nat) (s : State) : exec (.inlayEntryExecute t) s = execInlayEntryExecute t s := rfl
theorem exec_networkQueueEntry (t : Nat) (s : State) : exec (.networkQueueEntry t) s = execNetworkQueueEntry t s := rfl
theorem exec_meshPacketHop (t : Nat) (port : Nat) (first : Nat) (s : State) : exec (.meshPacketHop t port first) s = execMeshPacketHop t port first s := rfl
theorem exec_routerCombine (t : Nat) (route : Nat) (s : State) : exec (.routerCombine t route) s = execRouterCombine t route s := rfl
theorem exec_linkFlitRetry (t : Nat) (port : Nat) (clean : Bool) (s : State) : exec (.linkFlitRetry t port clean) s = execLinkFlitRetry t port clean s := rfl
theorem exec_ntokArrival (t : Nat) (s : State) : exec (.ntokArrival t) s = execNtokArrival t s := rfl
theorem exec_chunkFire (t : Nat) (chunk : Nat) (s : State) : exec (.chunkFire t chunk) s = execChunkFire t chunk s := rfl
theorem exec_faceplateBlockSend (h : BitVec 32) (n : Nat) (s : State) : exec (.faceplateBlockSend h n) s = execFaceplateBlockSend h n s := rfl
theorem exec_lightBlockHeaderArrive (c : Nat) (damage : BitVec 256) (s : State) : exec (.lightBlockHeaderArrive c damage) s = execLightBlockHeaderArrive c damage s := rfl
theorem exec_lightBlockLanded (t : Nat) (slot : Nat) (damage : List (Nat × BitVec 8)) (s : State) : exec (.lightBlockLanded t slot damage) s = execLightBlockLanded t slot damage s := rfl
theorem exec_releaseTokenArrive (h : BitVec 32) (group : Nat) (s : State) : exec (.releaseTokenArrive h group) s = execReleaseTokenArrive h group s := rfl
theorem exec_faceplatePatternEnd (h : BitVec 32) (n : Nat) (s : State) : exec (.faceplatePatternEnd h n) s = execFaceplatePatternEnd h n s := rfl
theorem exec_passBoundarySwitch (h : BitVec 32) (w : Nat) (s : State) : exec (.passBoundarySwitch h w) s = execPassBoundarySwitch h w s := rfl
theorem exec_barrierPass (h : BitVec 32) (b : Nat) (s : State) : exec (.barrierPass h b) s = execBarrierPass h b s := rfl
theorem exec_gradarmArrive (t : Nat) (s : State) : exec (.gradarmArrive t) s = execGradarmArrive t s := rfl
theorem exec_copyOperation (t : Nat) (s : State) : exec (.copyOperation t) s = execCopyOperation t s := rfl
theorem exec_spillTransfer (t : Nat) (k : Fin 4) (s : State) : exec (.spillTransfer t k) s = execSpillTransfer t k s := rfl
theorem exec_pageWalk (t : Nat) (k : Fin 4) (va : BitVec 56) (write : Bool) (s : State) : exec (.pageWalk t k va write) s = execPageWalk t k va write s := rfl
theorem exec_faultBufferFlush (c : Nat) (s : State) : exec (.faultBufferFlush c) s = execFaultBufferFlush c s := rfl
theorem exec_faultRecordResend (c : Nat) (tag : Nat) (s : State) : exec (.faultRecordResend c tag) s = execFaultRecordResend c tag s := rfl
theorem exec_faultQueueWrite (c : Nat) (s : State) : exec (.faultQueueWrite c) s = execFaultQueueWrite c s := rfl
theorem exec_pageAnswer (w0 : Word) (w1 : Word) (s : State) : exec (.pageAnswer w0 w1) s = execPageAnswer w0 w1 s := rfl
theorem exec_victimEvict (ctx : BitVec 16) (s : State) : exec (.victimEvict ctx) s = execVictimEvict ctx s := rfl
theorem exec_victimRecall (ctx : BitVec 16) (va : BitVec 56) (s : State) : exec (.victimRecall ctx va) s = execVictimRecall ctx va s := rfl
theorem exec_regionFreeze (h : BitVec 32) (s : State) : exec (.regionFreeze h) s = execRegionFreeze h s := rfl
theorem exec_thawRestore (h : BitVec 32) (damage : List (Nat × BitVec 8)) (s : State) : exec (.thawRestore h damage) s = execThawRestore h damage s := rfl
theorem exec_debugHalt (h : BitVec 32) (t : Nat) (k : Fin 4) (s : State) : exec (.debugHalt h t k) s = execDebugHalt h t k s := rfl
theorem exec_debugResume (h : BitVec 32) (t : Nat) (k : Fin 4) (s : State) : exec (.debugResume h t k) s = execDebugResume h t k s := rfl
theorem exec_debugStep (h : BitVec 32) (t : Nat) (k : Fin 4) (s : State) : exec (.debugStep h t k) s = execDebugStep h t k s := rfl
theorem exec_debugRead (h : BitVec 32) (t : Nat) (k : Fin 4) (what : DebugTarget) (s : State) : exec (.debugRead h t k what) s = execDebugRead h t k what s := rfl
theorem exec_debugWrite (h : BitVec 32) (t : Nat) (k : Fin 4) (what : DebugTarget) (value : Word) (s : State) : exec (.debugWrite h t k what value) s = execDebugWrite h t k what value s := rfl
theorem exec_debugHeadreplace (h : BitVec 32) (t : Nat) (k : Fin 4) (q : BitVec 5) (payload : Word) (scale : Bool) (exc : Bool) (s : State) : exec (.debugHeadreplace h t k q payload scale exc) s = execDebugHeadreplace h t k q payload scale exc s := rfl
theorem exec_debugWatchdog (h : BitVec 32) (limit : BitVec 32) (s : State) : exec (.debugWatchdog h limit) s = execDebugWatchdog h limit s := rfl
theorem exec_watchdogExpire (t : Nat) (k : Fin 4) (s : State) : exec (.watchdogExpire t k) s = execWatchdogExpire t k s := rfl
theorem exec_launchRecord (w7 : Word) (s : State) : exec (.launchRecord w7) s = execLaunchRecord w7 s := rfl
theorem exec_endRecord (w7 : Word) (s : State) : exec (.endRecord w7) s = execEndRecord w7 s := rfl
theorem exec_placementLoad (h : BitVec 32) (s : State) : exec (.placementLoad h) s = execPlacementLoad h s := rfl
theorem exec_configCompleteWave (t : Nat) (s : State) : exec (.configCompleteWave t) s = execConfigCompleteWave t s := rfl
theorem exec_waveAcknowledge (h : BitVec 32) (s : State) : exec (.waveAcknowledge h) s = execWaveAcknowledge h s := rfl
theorem exec_regionEnd (h : BitVec 32) (s : State) : exec (.regionEnd h) s = execRegionEnd h s := rfl
theorem exec_chainedCommit (h : BitVec 32) (s : State) : exec (.chainedCommit h) s = execChainedCommit h s := rfl
theorem exec_stashRelief (h : BitVec 32) (s : State) : exec (.stashRelief h) s = execStashRelief h s := rfl
theorem exec_versionLag (h : BitVec 32) (s : State) : exec (.versionLag h) s = execVersionLag h s := rfl
theorem exec_colourRetire (port : Nat) (colour : Nat) (s : State) : exec (.colourRetire port colour) s = execColourRetire port colour s := rfl
theorem exec_linkTrain (port : Nat) (peer : LinkPeer) (entries : List ShootRange) (s : State) : exec (.linkTrain port peer entries) s = execLinkTrain port peer entries s := rfl
theorem exec_linkPacketReceive (port : Nat) (colour : Nat) (seq : Nat) (w0 : Word) (w1 : Word) (body : LinkBody) (s : State) : exec (.linkPacketReceive port colour seq w0 w1 body) s = execLinkPacketReceive port colour seq w0 w1 body s := rfl
theorem exec_topoGrant (port : Nat) (v : BitVec 16) (table : RouteTable) (s : State) : exec (.topoGrant port v table) s = execTopoGrant port v table s := rfl
theorem exec_topoCommit (port : Nat) (v : BitVec 16) (s : State) : exec (.topoCommit port v) s = execTopoCommit port v s := rfl
theorem exec_topoDeny (port : Nat) (s : State) : exec (.topoDeny port) s = execTopoDeny port s := rfl
theorem exec_topoMessageTimeout (port : Nat) (s : State) : exec (.topoMessageTimeout port) s = execTopoMessageTimeout port s := rfl
theorem exec_shootAckTimeout (id : Nat) (m : Nat) (s : State) : exec (.shootAckTimeout id m) s = execShootAckTimeout id m s := rfl
theorem exec_shootAcknowledge (id : Nat) (m : Nat) (s : State) : exec (.shootAcknowledge id m) s = execShootAcknowledge id m s := rfl
theorem exec_leaseOpenTimeout (lease : BitVec 16) (s : State) : exec (.leaseOpenTimeout lease) s = execLeaseOpenTimeout lease s := rfl
theorem exec_leaseExpire (lease : BitVec 16) (s : State) : exec (.leaseExpire lease) s = execLeaseExpire lease s := rfl
theorem exec_circuitClose (circuit : CircuitEnd) (s : State) : exec (.circuitClose circuit) s = execCircuitClose circuit s := rfl
theorem exec_ctxCreate (w7 : Word) (s : State) : exec (.ctxCreate w7) s = execCtxCreate w7 s := rfl
theorem exec_ctxKill (w7 : Word) (s : State) : exec (.ctxKill w7) s = execCtxKill w7 s := rfl
theorem exec_ctxSavearea (w7 : Word) (s : State) : exec (.ctxSavearea w7) s = execCtxSavearea w7 s := rfl
theorem exec_ctxDebug (w7 : Word) (s : State) : exec (.ctxDebug w7) s = execCtxDebug w7 s := rfl
theorem exec_hostFreeze (w7 : Word) (s : State) : exec (.hostFreeze w7) s = execHostFreeze w7 s := rfl
theorem exec_hostThaw (w7 : Word) (s : State) : exec (.hostThaw w7) s = execHostThaw w7 s := rfl
theorem exec_pvPlace (w7 : Word) (s : State) : exec (.pvPlace w7) s = execPvPlace w7 s := rfl
theorem exec_leaseOpen (w7 : Word) (s : State) : exec (.leaseOpen w7) s = execLeaseOpen w7 s := rfl
theorem exec_leaseRenew (w7 : Word) (s : State) : exec (.leaseRenew w7) s = execLeaseRenew w7 s := rfl
theorem exec_topoRequest (w7 : Word) (s : State) : exec (.topoRequest w7) s = execTopoRequest w7 s := rfl
theorem exec_colourSplit (w7 : Word) (act : SplitAct) (s : State) : exec (.colourSplit w7 act) s = execColourSplit w7 act s := rfl
theorem exec_quotaSet (w7 : Word) (s : State) : exec (.quotaSet w7) s = execQuotaSet w7 s := rfl
theorem exec_measureExtend (w7 : Word) (s : State) : exec (.measureExtend w7) s = execMeasureExtend w7 s := rfl
theorem exec_mapWrite (w7 : Word) (signatureOk : Bool) (s : State) : exec (.mapWrite w7 signatureOk) s = execMapWrite w7 signatureOk s := rfl
theorem exec_acceptWrite (n : Nat) (value : Word) (s : State) : exec (.acceptWrite n value) s = execAcceptWrite n value s := rfl
theorem exec_registerWrite (link : Nat) (act : HostAct) (s : State) : exec (.registerWrite link act) s = execRegisterWrite link act s := rfl
theorem exec_boot (inp : BootInput) (s : State) : exec (.boot inp) s = execBoot inp s := rfl
theorem exec_thermal (celsius : Nat) (s : State) : exec (.thermal celsius) s = execThermal celsius s := rfl
theorem exec_fillDrainPortTransfer (h : BitVec 32) (n : Nat) (s : State) : exec (.fillDrainPortTransfer h n) s = execFillDrainPortTransfer h n s := rfl
theorem exec_linkDown (port : Nat) (s : State) : exec (.linkDown port) s = execLinkDown port s := rfl
theorem exec_leasePeerOpen (lease : BitVec 16) (port : Nat) (peer : BitVec 16) (duration : Nat) (s : State) : exec (.leasePeerOpen lease port peer duration) s = execLeasePeerOpen lease port peer duration s := rfl
theorem exec_add (d : BitVec 6) (a : BitVec 6) (b : BitVec 6) (s : State) : exec (.add d a b) s = execAdd d a b s := rfl
theorem exec_addI (d : BitVec 6) (a : BitVec 6) (imm : BitVec 32) (s : State) : exec (.addI d a imm) s = execAddI d a imm s := rfl
theorem exec_sub (d : BitVec 6) (a : BitVec 6) (b : BitVec 6) (s : State) : exec (.sub d a b) s = execSub d a b s := rfl
theorem exec_subI (d : BitVec 6) (a : BitVec 6) (imm : BitVec 32) (s : State) : exec (.subI d a imm) s = execSubI d a imm s := rfl
theorem exec_mul (d : BitVec 6) (a : BitVec 6) (b : BitVec 6) (s : State) : exec (.mul d a b) s = execMul d a b s := rfl
theorem exec_mulI (d : BitVec 6) (a : BitVec 6) (imm : BitVec 32) (s : State) : exec (.mulI d a imm) s = execMulI d a imm s := rfl
theorem exec_mulh (d : BitVec 6) (a : BitVec 6) (b : BitVec 6) (sg : Bool) (s : State) : exec (.mulh d a b sg) s = execMulh d a b sg s := rfl
theorem exec_mulhI (d : BitVec 6) (a : BitVec 6) (sg : Bool) (imm : BitVec 32) (s : State) : exec (.mulhI d a sg imm) s = execMulhI d a sg imm s := rfl
theorem exec_div (d : BitVec 6) (a : BitVec 6) (b : BitVec 6) (sg : Bool) (s : State) : exec (.div d a b sg) s = execDiv d a b sg s := rfl
theorem exec_divI (d : BitVec 6) (a : BitVec 6) (sg : Bool) (imm : BitVec 32) (s : State) : exec (.divI d a sg imm) s = execDivI d a sg imm s := rfl
theorem exec_rem (d : BitVec 6) (a : BitVec 6) (b : BitVec 6) (sg : Bool) (s : State) : exec (.rem d a b sg) s = execRem d a b sg s := rfl
theorem exec_remI (d : BitVec 6) (a : BitVec 6) (sg : Bool) (imm : BitVec 32) (s : State) : exec (.remI d a sg imm) s = execRemI d a sg imm s := rfl
theorem exec_and (d : BitVec 6) (a : BitVec 6) (b : BitVec 6) (s : State) : exec (.and d a b) s = execAnd d a b s := rfl
theorem exec_andI (d : BitVec 6) (a : BitVec 6) (imm : BitVec 32) (s : State) : exec (.andI d a imm) s = execAndI d a imm s := rfl
theorem exec_or (d : BitVec 6) (a : BitVec 6) (b : BitVec 6) (s : State) : exec (.or d a b) s = execOr d a b s := rfl
theorem exec_orI (d : BitVec 6) (a : BitVec 6) (imm : BitVec 32) (s : State) : exec (.orI d a imm) s = execOrI d a imm s := rfl
theorem exec_xor (d : BitVec 6) (a : BitVec 6) (b : BitVec 6) (s : State) : exec (.xor d a b) s = execXor d a b s := rfl
theorem exec_xorI (d : BitVec 6) (a : BitVec 6) (imm : BitVec 32) (s : State) : exec (.xorI d a imm) s = execXorI d a imm s := rfl
theorem exec_andn (d : BitVec 6) (a : BitVec 6) (b : BitVec 6) (s : State) : exec (.andn d a b) s = execAndn d a b s := rfl
theorem exec_andnI (d : BitVec 6) (a : BitVec 6) (imm : BitVec 32) (s : State) : exec (.andnI d a imm) s = execAndnI d a imm s := rfl
theorem exec_shl (d : BitVec 6) (a : BitVec 6) (b : BitVec 6) (s : State) : exec (.shl d a b) s = execShl d a b s := rfl
theorem exec_shlI (d : BitVec 6) (a : BitVec 6) (imm : BitVec 32) (s : State) : exec (.shlI d a imm) s = execShlI d a imm s := rfl
theorem exec_shr (d : BitVec 6) (a : BitVec 6) (b : BitVec 6) (s : State) : exec (.shr d a b) s = execShr d a b s := rfl
theorem exec_shrI (d : BitVec 6) (a : BitVec 6) (imm : BitVec 32) (s : State) : exec (.shrI d a imm) s = execShrI d a imm s := rfl
theorem exec_sar (d : BitVec 6) (a : BitVec 6) (b : BitVec 6) (s : State) : exec (.sar d a b) s = execSar d a b s := rfl
theorem exec_sarI (d : BitVec 6) (a : BitVec 6) (imm : BitVec 32) (s : State) : exec (.sarI d a imm) s = execSarI d a imm s := rfl
theorem exec_rot (d : BitVec 6) (a : BitVec 6) (b : BitVec 6) (s : State) : exec (.rot d a b) s = execRot d a b s := rfl
theorem exec_rotI (d : BitVec 6) (a : BitVec 6) (imm : BitVec 32) (s : State) : exec (.rotI d a imm) s = execRotI d a imm s := rfl
theorem exec_min (d : BitVec 6) (a : BitVec 6) (b : BitVec 6) (sg : Bool) (s : State) : exec (.min d a b sg) s = execMin d a b sg s := rfl
theorem exec_minI (d : BitVec 6) (a : BitVec 6) (sg : Bool) (imm : BitVec 32) (s : State) : exec (.minI d a sg imm) s = execMinI d a sg imm s := rfl
theorem exec_max (d : BitVec 6) (a : BitVec 6) (b : BitVec 6) (sg : Bool) (s : State) : exec (.max d a b sg) s = execMax d a b sg s := rfl
theorem exec_maxI (d : BitVec 6) (a : BitVec 6) (sg : Bool) (imm : BitVec 32) (s : State) : exec (.maxI d a sg imm) s = execMaxI d a sg imm s := rfl
theorem exec_cmp (d : BitVec 3) (a : BitVec 6) (b : BitVec 6) (cond : Cond) (s : State) : exec (.cmp d a b cond) s = execCmp d a b cond s := rfl
theorem exec_cmpI (d : BitVec 3) (a : BitVec 6) (cond : Cond) (imm : BitVec 32) (s : State) : exec (.cmpI d a cond imm) s = execCmpI d a cond imm s := rfl
theorem exec_sel (d : BitVec 6) (a : BitVec 6) (b : BitVec 6) (neg : Bool) (k : BitVec 3) (s : State) : exec (.sel d a b neg k) s = execSel d a b neg k s := rfl
theorem exec_selI (d : BitVec 6) (a : BitVec 6) (neg : Bool) (k : BitVec 3) (imm : BitVec 32) (s : State) : exec (.selI d a neg k imm) s = execSelI d a neg k imm s := rfl
theorem exec_padd (d : BitVec 6) (a : BitVec 6) (b : BitVec 6) (s : State) : exec (.padd d a b) s = execPadd d a b s := rfl
theorem exec_paddI (d : BitVec 6) (a : BitVec 6) (imm : BitVec 32) (s : State) : exec (.paddI d a imm) s = execPaddI d a imm s := rfl
theorem exec_psub (d : BitVec 6) (a : BitVec 6) (b : BitVec 6) (s : State) : exec (.psub d a b) s = execPsub d a b s := rfl
theorem exec_psubI (d : BitVec 6) (a : BitVec 6) (imm : BitVec 32) (s : State) : exec (.psubI d a imm) s = execPsubI d a imm s := rfl
theorem exec_clz (d : BitVec 6) (a : BitVec 6) (s : State) : exec (.clz d a) s = execClz d a s := rfl
theorem exec_popc (d : BitVec 6) (a : BitVec 6) (s : State) : exec (.popc d a) s = execPopc d a s := rfl
theorem exec_mov (d : BitVec 6) (a : BitVec 6) (s : State) : exec (.mov d a) s = execMov d a s := rfl
theorem exec_movi (d : BitVec 6) (imm : BitVec 32) (s : State) : exec (.movi d imm) s = execMovi d imm s := rfl
theorem exec_movhi (d : BitVec 6) (a : BitVec 6) (imm : BitVec 32) (s : State) : exec (.movhi d a imm) s = execMovhi d a imm s := rfl
theorem exec_extb (d : BitVec 6) (a : BitVec 6) (pos : BitVec 6) (len : BitVec 6) (s : State) : exec (.extb d a pos len) s = execExtb d a pos len s := rfl
theorem exec_insb (d : BitVec 6) (a : BitVec 6) (pos : BitVec 6) (len : BitVec 6) (s : State) : exec (.insb d a pos len) s = execInsb d a pos len s := rfl
theorem exec_sext (d : BitVec 6) (a : BitVec 6) (n : BitVec 6) (s : State) : exec (.sext d a n) s = execSext d a n s := rfl
theorem exec_zext (d : BitVec 6) (a : BitVec 6) (n : BitVec 6) (s : State) : exec (.zext d a n) s = execZext d a n s := rfl
theorem exec_pfmt (d : BitVec 6) (a : BitVec 6) (fmt : BitVec 5) (blk : BitVec 3) (s : State) : exec (.pfmt d a fmt blk) s = execPfmt d a fmt blk s := rfl
theorem exec_pmeta (d : BitVec 6) (a : BitVec 6) (s : State) : exec (.pmeta d a) s = execPmeta d a s := rfl
theorem exec_pchk (d : BitVec 3) (a : BitVec 6) (fmt : BitVec 5) (s : State) : exec (.pchk d a fmt) s = execPchk d a fmt s := rfl
theorem exec_pand (d : BitVec 3) (a : BitVec 3) (b : BitVec 3) (s : State) : exec (.pand d a b) s = execPand d a b s := rfl
theorem exec_por (d : BitVec 3) (a : BitVec 3) (b : BitVec 3) (s : State) : exec (.por d a b) s = execPor d a b s := rfl
theorem exec_pxor (d : BitVec 3) (a : BitVec 3) (b : BitVec 3) (s : State) : exec (.pxor d a b) s = execPxor d a b s := rfl
theorem exec_pnot (d : BitVec 3) (a : BitVec 3) (s : State) : exec (.pnot d a) s = execPnot d a s := rfl
theorem exec_addW (d : BitVec 6) (a : BitVec 6) (b : BitVec 6) (s : State) : exec (.addW d a b) s = execAddW d a b s := rfl
theorem exec_addWI (d : BitVec 6) (a : BitVec 6) (imm : BitVec 32) (s : State) : exec (.addWI d a imm) s = execAddWI d a imm s := rfl
theorem exec_subW (d : BitVec 6) (a : BitVec 6) (b : BitVec 6) (s : State) : exec (.subW d a b) s = execSubW d a b s := rfl
theorem exec_mulW (d : BitVec 6) (a : BitVec 6) (b : BitVec 6) (s : State) : exec (.mulW d a b) s = execMulW d a b s := rfl
theorem exec_mulWI (d : BitVec 6) (a : BitVec 6) (imm : BitVec 32) (s : State) : exec (.mulWI d a imm) s = execMulWI d a imm s := rfl
theorem exec_shlW (d : BitVec 6) (a : BitVec 6) (b : BitVec 6) (s : State) : exec (.shlW d a b) s = execShlW d a b s := rfl
theorem exec_shrW (d : BitVec 6) (a : BitVec 6) (b : BitVec 6) (s : State) : exec (.shrW d a b) s = execShrW d a b s := rfl
theorem exec_sarW (d : BitVec 6) (a : BitVec 6) (b : BitVec 6) (s : State) : exec (.sarW d a b) s = execSarW d a b s := rfl
theorem exec_br (hint : Bool) (off : BitVec 32) (s : State) : exec (.br hint off) s = execBr hint off s := rfl
theorem exec_brp (a : BitVec 3) (neg : Bool) (hint : Bool) (off : BitVec 32) (s : State) : exec (.brp a neg hint off) s = execBrp a neg hint off s := rfl
theorem exec_call (d : BitVec 6) (hint : Bool) (off : BitVec 32) (s : State) : exec (.call d hint off) s = execCall d hint off s := rfl
theorem exec_ret (a : BitVec 6) (s : State) : exec (.ret a) s = execRet a s := rfl
theorem exec_jmpr (d : BitVec 6) (a : BitVec 6) (s : State) : exec (.jmpr d a) s = execJmpr d a s := rfl
theorem exec_yield (s : State) : exec .yield s = execYield s := rfl
theorem exec_waitany (d : BitVec 6) (mask : BitVec 32) (s : State) : exec (.waitany d mask) s = execWaitany d mask s := rfl
theorem exec_endfire (s : State) : exec .endfire s = execEndfire s := rfl
theorem exec_faddF32 (d : BitVec 6) (a : BitVec 6) (b : BitVec 6) (rnd : Rnd) (s : State) : exec (.faddF32 d a b rnd) s = execFaddF32 d a b rnd s := rfl
theorem exec_faddF32I (d : BitVec 6) (a : BitVec 6) (rnd : Rnd) (imm : BitVec 32) (s : State) : exec (.faddF32I d a rnd imm) s = execFaddF32I d a rnd imm s := rfl
theorem exec_fsubF32 (d : BitVec 6) (a : BitVec 6) (b : BitVec 6) (rnd : Rnd) (s : State) : exec (.fsubF32 d a b rnd) s = execFsubF32 d a b rnd s := rfl
theorem exec_fsubF32I (d : BitVec 6) (a : BitVec 6) (rnd : Rnd) (imm : BitVec 32) (s : State) : exec (.fsubF32I d a rnd imm) s = execFsubF32I d a rnd imm s := rfl
theorem exec_fmulF32 (d : BitVec 6) (a : BitVec 6) (b : BitVec 6) (rnd : Rnd) (s : State) : exec (.fmulF32 d a b rnd) s = execFmulF32 d a b rnd s := rfl
theorem exec_fmulF32I (d : BitVec 6) (a : BitVec 6) (rnd : Rnd) (imm : BitVec 32) (s : State) : exec (.fmulF32I d a rnd imm) s = execFmulF32I d a rnd imm s := rfl
theorem exec_ffmaF32 (d : BitVec 6) (a : BitVec 6) (b : BitVec 6) (c : BitVec 6) (rnd : Rnd) (s : State) : exec (.ffmaF32 d a b c rnd) s = execFfmaF32 d a b c rnd s := rfl
theorem exec_fdivF32 (d : BitVec 6) (a : BitVec 6) (b : BitVec 6) (rnd : Rnd) (s : State) : exec (.fdivF32 d a b rnd) s = execFdivF32 d a b rnd s := rfl
theorem exec_fsqrtF32 (d : BitVec 6) (a : BitVec 6) (rnd : Rnd) (s : State) : exec (.fsqrtF32 d a rnd) s = execFsqrtF32 d a rnd s := rfl
theorem exec_frsqrtF32 (d : BitVec 6) (a : BitVec 6) (s : State) : exec (.frsqrtF32 d a) s = execFrsqrtF32 d a s := rfl
theorem exec_fexp2F32 (d : BitVec 6) (a : BitVec 6) (s : State) : exec (.fexp2F32 d a) s = execFexp2F32 d a s := rfl
theorem exec_flog2F32 (d : BitVec 6) (a : BitVec 6) (s : State) : exec (.flog2F32 d a) s = execFlog2F32 d a s := rfl
theorem exec_fsinF32 (d : BitVec 6) (a : BitVec 6) (s : State) : exec (.fsinF32 d a) s = execFsinF32 d a s := rfl
theorem exec_fcosF32 (d : BitVec 6) (a : BitVec 6) (s : State) : exec (.fcosF32 d a) s = execFcosF32 d a s := rfl
theorem exec_fminF32 (d : BitVec 6) (a : BitVec 6) (b : BitVec 6) (s : State) : exec (.fminF32 d a b) s = execFminF32 d a b s := rfl
theorem exec_fminF32I (d : BitVec 6) (a : BitVec 6) (imm : BitVec 32) (s : State) : exec (.fminF32I d a imm) s = execFminF32I d a imm s := rfl
theorem exec_fmaxF32 (d : BitVec 6) (a : BitVec 6) (b : BitVec 6) (s : State) : exec (.fmaxF32 d a b) s = execFmaxF32 d a b s := rfl
theorem exec_fmaxF32I (d : BitVec 6) (a : BitVec 6) (imm : BitVec 32) (s : State) : exec (.fmaxF32I d a imm) s = execFmaxF32I d a imm s := rfl
theorem exec_fcmpF32 (d : BitVec 3) (a : BitVec 6) (b : BitVec 6) (cond : FCond) (s : State) : exec (.fcmpF32 d a b cond) s = execFcmpF32 d a b cond s := rfl
theorem exec_fcmpF32I (d : BitVec 3) (a : BitVec 6) (cond : FCond) (imm : BitVec 32) (s : State) : exec (.fcmpF32I d a cond imm) s = execFcmpF32I d a cond imm s := rfl
theorem exec_fclassF32 (d : BitVec 6) (a : BitVec 6) (s : State) : exec (.fclassF32 d a) s = execFclassF32 d a s := rfl
theorem exec_fcvt (d : BitVec 6) (a : BitVec 6) (src : CvtFmt) (dst : CvtFmt) (sat : Bool) (rnd : Rnd) (s : State) : exec (.fcvt d a src dst sat rnd) s = execFcvt d a src dst sat rnd s := rfl
theorem exec_fabsF32 (d : BitVec 6) (a : BitVec 6) (s : State) : exec (.fabsF32 d a) s = execFabsF32 d a s := rfl
theorem exec_fnegF32 (d : BitVec 6) (a : BitVec 6) (s : State) : exec (.fnegF32 d a) s = execFnegF32 d a s := rfl
theorem exec_faddF16 (d : BitVec 6) (a : BitVec 6) (b : BitVec 6) (rnd : Rnd) (s : State) : exec (.faddF16 d a b rnd) s = execFaddF16 d a b rnd s := rfl
theorem exec_fsubF16 (d : BitVec 6) (a : BitVec 6) (b : BitVec 6) (rnd : Rnd) (s : State) : exec (.fsubF16 d a b rnd) s = execFsubF16 d a b rnd s := rfl
theorem exec_fmulF16 (d : BitVec 6) (a : BitVec 6) (b : BitVec 6) (rnd : Rnd) (s : State) : exec (.fmulF16 d a b rnd) s = execFmulF16 d a b rnd s := rfl
theorem exec_ffmaF16 (d : BitVec 6) (a : BitVec 6) (b : BitVec 6) (c : BitVec 6) (rnd : Rnd) (s : State) : exec (.ffmaF16 d a b c rnd) s = execFfmaF16 d a b c rnd s := rfl
theorem exec_fdivF16 (d : BitVec 6) (a : BitVec 6) (b : BitVec 6) (rnd : Rnd) (s : State) : exec (.fdivF16 d a b rnd) s = execFdivF16 d a b rnd s := rfl
theorem exec_fsqrtF16 (d : BitVec 6) (a : BitVec 6) (rnd : Rnd) (s : State) : exec (.fsqrtF16 d a rnd) s = execFsqrtF16 d a rnd s := rfl
theorem exec_frsqrtF16 (d : BitVec 6) (a : BitVec 6) (rnd : Rnd) (s : State) : exec (.frsqrtF16 d a rnd) s = execFrsqrtF16 d a rnd s := rfl
theorem exec_fexp2F16 (d : BitVec 6) (a : BitVec 6) (rnd : Rnd) (s : State) : exec (.fexp2F16 d a rnd) s = execFexp2F16 d a rnd s := rfl
theorem exec_flog2F16 (d : BitVec 6) (a : BitVec 6) (rnd : Rnd) (s : State) : exec (.flog2F16 d a rnd) s = execFlog2F16 d a rnd s := rfl
theorem exec_fsinF16 (d : BitVec 6) (a : BitVec 6) (rnd : Rnd) (s : State) : exec (.fsinF16 d a rnd) s = execFsinF16 d a rnd s := rfl
theorem exec_fcosF16 (d : BitVec 6) (a : BitVec 6) (rnd : Rnd) (s : State) : exec (.fcosF16 d a rnd) s = execFcosF16 d a rnd s := rfl
theorem exec_fminF16 (d : BitVec 6) (a : BitVec 6) (b : BitVec 6) (s : State) : exec (.fminF16 d a b) s = execFminF16 d a b s := rfl
theorem exec_fmaxF16 (d : BitVec 6) (a : BitVec 6) (b : BitVec 6) (s : State) : exec (.fmaxF16 d a b) s = execFmaxF16 d a b s := rfl
theorem exec_fcmpF16 (d : BitVec 3) (a : BitVec 6) (b : BitVec 6) (cond : FCond) (s : State) : exec (.fcmpF16 d a b cond) s = execFcmpF16 d a b cond s := rfl
theorem exec_fclassF16 (d : BitVec 6) (a : BitVec 6) (s : State) : exec (.fclassF16 d a) s = execFclassF16 d a s := rfl
theorem exec_faddBf16 (d : BitVec 6) (a : BitVec 6) (b : BitVec 6) (rnd : Rnd) (s : State) : exec (.faddBf16 d a b rnd) s = execFaddBf16 d a b rnd s := rfl
theorem exec_fsubBf16 (d : BitVec 6) (a : BitVec 6) (b : BitVec 6) (rnd : Rnd) (s : State) : exec (.fsubBf16 d a b rnd) s = execFsubBf16 d a b rnd s := rfl
theorem exec_fmulBf16 (d : BitVec 6) (a : BitVec 6) (b : BitVec 6) (rnd : Rnd) (s : State) : exec (.fmulBf16 d a b rnd) s = execFmulBf16 d a b rnd s := rfl
theorem exec_ffmaBf16 (d : BitVec 6) (a : BitVec 6) (b : BitVec 6) (c : BitVec 6) (rnd : Rnd) (s : State) : exec (.ffmaBf16 d a b c rnd) s = execFfmaBf16 d a b c rnd s := rfl
theorem exec_fdivBf16 (d : BitVec 6) (a : BitVec 6) (b : BitVec 6) (rnd : Rnd) (s : State) : exec (.fdivBf16 d a b rnd) s = execFdivBf16 d a b rnd s := rfl
theorem exec_fsqrtBf16 (d : BitVec 6) (a : BitVec 6) (rnd : Rnd) (s : State) : exec (.fsqrtBf16 d a rnd) s = execFsqrtBf16 d a rnd s := rfl
theorem exec_frsqrtBf16 (d : BitVec 6) (a : BitVec 6) (rnd : Rnd) (s : State) : exec (.frsqrtBf16 d a rnd) s = execFrsqrtBf16 d a rnd s := rfl
theorem exec_fexp2Bf16 (d : BitVec 6) (a : BitVec 6) (rnd : Rnd) (s : State) : exec (.fexp2Bf16 d a rnd) s = execFexp2Bf16 d a rnd s := rfl
theorem exec_flog2Bf16 (d : BitVec 6) (a : BitVec 6) (rnd : Rnd) (s : State) : exec (.flog2Bf16 d a rnd) s = execFlog2Bf16 d a rnd s := rfl
theorem exec_fsinBf16 (d : BitVec 6) (a : BitVec 6) (rnd : Rnd) (s : State) : exec (.fsinBf16 d a rnd) s = execFsinBf16 d a rnd s := rfl
theorem exec_fcosBf16 (d : BitVec 6) (a : BitVec 6) (rnd : Rnd) (s : State) : exec (.fcosBf16 d a rnd) s = execFcosBf16 d a rnd s := rfl
theorem exec_fminBf16 (d : BitVec 6) (a : BitVec 6) (b : BitVec 6) (s : State) : exec (.fminBf16 d a b) s = execFminBf16 d a b s := rfl
theorem exec_fmaxBf16 (d : BitVec 6) (a : BitVec 6) (b : BitVec 6) (s : State) : exec (.fmaxBf16 d a b) s = execFmaxBf16 d a b s := rfl
theorem exec_fcmpBf16 (d : BitVec 3) (a : BitVec 6) (b : BitVec 6) (cond : FCond) (s : State) : exec (.fcmpBf16 d a b cond) s = execFcmpBf16 d a b cond s := rfl
theorem exec_fclassBf16 (d : BitVec 6) (a : BitVec 6) (s : State) : exec (.fclassBf16 d a) s = execFclassBf16 d a s := rfl
theorem exec_ld (d : BitVec 6) (a : BitVec 6) (b : BitVec 6) (scale : BitVec 3) (sx : Bool) (size : BitVec 2) (ord : Ord) (scope : Scope) (off : BitVec 21) (s : State) : exec (.ld d a b scale sx size ord scope off) s = execLd d a b scale sx size ord scope off s := rfl
theorem exec_st (d : BitVec 6) (a : BitVec 6) (b : BitVec 6) (scale : BitVec 3) (size : BitVec 2) (ord : Ord) (scope : Scope) (off : BitVec 21) (s : State) : exec (.st d a b scale size ord scope off) s = execSt d a b scale size ord scope off s := rfl
theorem exec_ldx (d : BitVec 6) (a : BitVec 6) (b : BitVec 6) (scale : BitVec 3) (rf : CvtFmt) (ord : Ord) (scope : Scope) (off : BitVec 21) (s : State) : exec (.ldx d a b scale rf ord scope off) s = execLdx d a b scale rf ord scope off s := rfl
theorem exec_stx (d : BitVec 6) (a : BitVec 6) (b : BitVec 6) (scale : BitVec 3) (rf : CvtFmt) (ord : Ord) (scope : Scope) (off : BitVec 21) (s : State) : exec (.stx d a b scale rf ord scope off) s = execStx d a b scale rf ord scope off s := rfl
theorem exec_lds (d : BitVec 6) (a : BitVec 6) (b : BitVec 6) (scale : BitVec 3) (sx : Bool) (size : BitVec 2) (ord : Ord) (scope : Scope) (off : BitVec 21) (s : State) : exec (.lds d a b scale sx size ord scope off) s = execLds d a b scale sx size ord scope off s := rfl
theorem exec_sts (d : BitVec 6) (a : BitVec 6) (b : BitVec 6) (scale : BitVec 3) (size : BitVec 2) (ord : Ord) (scope : Scope) (off : BitVec 21) (s : State) : exec (.sts d a b scale size ord scope off) s = execSts d a b scale size ord scope off s := rfl
theorem exec_pref (a : BitVec 6) (b : BitVec 6) (scale : BitVec 3) (off : BitVec 21) (s : State) : exec (.pref a b scale off) s = execPref a b scale off s := rfl
theorem exec_clean (a : BitVec 6) (b : BitVec 6) (scale : BitVec 3) (off : BitVec 21) (s : State) : exec (.clean a b scale off) s = execClean a b scale off s := rfl
theorem exec_inval (a : BitVec 6) (b : BitVec 6) (scale : BitVec 3) (off : BitVec 21) (s : State) : exec (.inval a b scale off) s = execInval a b scale off s := rfl
theorem exec_fence (ord : Ord) (scope : Scope) (s : State) : exec (.fence ord scope) s = execFence ord scope s := rfl
theorem exec_spb (d : BitVec 6) (a : BitVec 6) (b : BitVec 6) (scale : BitVec 3) (cnt : BitVec 4) (off : BitVec 21) (s : State) : exec (.spb d a b scale cnt off) s = execSpb d a b scale cnt off s := rfl
theorem exec_fla (d : BitVec 6) (a : BitVec 6) (b : BitVec 6) (scale : BitVec 3) (cnt : BitVec 4) (off : BitVec 21) (s : State) : exec (.fla d a b scale cnt off) s = execFla d a b scale cnt off s := rfl
theorem exec_spw (s : State) : exec .spw s = execSpw s := rfl
theorem exec_copy (d : BitVec 6) (a : BitVec 6) (b : BitVec 6) (c : BitVec 6) (dsp : Bool) (ssp : Bool) (rnd : Rnd) (arrive : Bool) (st : BitVec 3) (s : State) : exec (.copy d a b c dsp ssp rnd arrive st) s = execCopy d a b c dsp ssp rnd arrive st s := rfl
theorem exec_ctest (d : BitVec 6) (a : BitVec 6) (s : State) : exec (.ctest d a) s = execCtest d a s := rfl
theorem exec_cwait (d : BitVec 6) (a : BitVec 6) (s : State) : exec (.cwait d a) s = execCwait d a s := rfl
theorem exec_amoadd (d : BitVec 6) (a : BitVec 6) (b : BitVec 6) (scale : BitVec 3) (size : BitVec 2) (ord : Ord) (scope : Scope) (off : BitVec 21) (s : State) : exec (.amoadd d a b scale size ord scope off) s = execAmoadd d a b scale size ord scope off s := rfl
theorem exec_amomin (d : BitVec 6) (a : BitVec 6) (b : BitVec 6) (scale : BitVec 3) (size : BitVec 2) (ord : Ord) (scope : Scope) (off : BitVec 21) (s : State) : exec (.amomin d a b scale size ord scope off) s = execAmomin d a b scale size ord scope off s := rfl
theorem exec_amomax (d : BitVec 6) (a : BitVec 6) (b : BitVec 6) (scale : BitVec 3) (size : BitVec 2) (ord : Ord) (scope : Scope) (off : BitVec 21) (s : State) : exec (.amomax d a b scale size ord scope off) s = execAmomax d a b scale size ord scope off s := rfl
theorem exec_amoand (d : BitVec 6) (a : BitVec 6) (b : BitVec 6) (scale : BitVec 3) (size : BitVec 2) (ord : Ord) (scope : Scope) (off : BitVec 21) (s : State) : exec (.amoand d a b scale size ord scope off) s = execAmoand d a b scale size ord scope off s := rfl
theorem exec_amoor (d : BitVec 6) (a : BitVec 6) (b : BitVec 6) (scale : BitVec 3) (size : BitVec 2) (ord : Ord) (scope : Scope) (off : BitVec 21) (s : State) : exec (.amoor d a b scale size ord scope off) s = execAmoor d a b scale size ord scope off s := rfl
theorem exec_amoxor (d : BitVec 6) (a : BitVec 6) (b : BitVec 6) (scale : BitVec 3) (size : BitVec 2) (ord : Ord) (scope : Scope) (off : BitVec 21) (s : State) : exec (.amoxor d a b scale size ord scope off) s = execAmoxor d a b scale size ord scope off s := rfl
theorem exec_amoswap (d : BitVec 6) (a : BitVec 6) (b : BitVec 6) (scale : BitVec 3) (size : BitVec 2) (ord : Ord) (scope : Scope) (off : BitVec 21) (s : State) : exec (.amoswap d a b scale size ord scope off) s = execAmoswap d a b scale size ord scope off s := rfl
theorem exec_cas (d : BitVec 6) (a : BitVec 6) (b : BitVec 6) (scale : BitVec 3) (size : BitVec 2) (ord : Ord) (scope : Scope) (off : BitVec 21) (s : State) : exec (.cas d a b scale size ord scope off) s = execCas d a b scale size ord scope off s := rfl
theorem exec_amofaddF32 (d : BitVec 6) (a : BitVec 6) (b : BitVec 6) (scale : BitVec 3) (ord : Ord) (scope : Scope) (off : BitVec 21) (s : State) : exec (.amofaddF32 d a b scale ord scope off) s = execAmofaddF32 d a b scale ord scope off s := rfl
theorem exec_amoaddSpad (d : BitVec 6) (a : BitVec 6) (b : BitVec 6) (scale : BitVec 3) (size : BitVec 2) (ord : Ord) (scope : Scope) (off : BitVec 21) (s : State) : exec (.amoaddSpad d a b scale size ord scope off) s = execAmoaddSpad d a b scale size ord scope off s := rfl
theorem exec_amominSpad (d : BitVec 6) (a : BitVec 6) (b : BitVec 6) (scale : BitVec 3) (size : BitVec 2) (ord : Ord) (scope : Scope) (off : BitVec 21) (s : State) : exec (.amominSpad d a b scale size ord scope off) s = execAmominSpad d a b scale size ord scope off s := rfl
theorem exec_amomaxSpad (d : BitVec 6) (a : BitVec 6) (b : BitVec 6) (scale : BitVec 3) (size : BitVec 2) (ord : Ord) (scope : Scope) (off : BitVec 21) (s : State) : exec (.amomaxSpad d a b scale size ord scope off) s = execAmomaxSpad d a b scale size ord scope off s := rfl
theorem exec_amoandSpad (d : BitVec 6) (a : BitVec 6) (b : BitVec 6) (scale : BitVec 3) (size : BitVec 2) (ord : Ord) (scope : Scope) (off : BitVec 21) (s : State) : exec (.amoandSpad d a b scale size ord scope off) s = execAmoandSpad d a b scale size ord scope off s := rfl
theorem exec_amoorSpad (d : BitVec 6) (a : BitVec 6) (b : BitVec 6) (scale : BitVec 3) (size : BitVec 2) (ord : Ord) (scope : Scope) (off : BitVec 21) (s : State) : exec (.amoorSpad d a b scale size ord scope off) s = execAmoorSpad d a b scale size ord scope off s := rfl
theorem exec_amoxorSpad (d : BitVec 6) (a : BitVec 6) (b : BitVec 6) (scale : BitVec 3) (size : BitVec 2) (ord : Ord) (scope : Scope) (off : BitVec 21) (s : State) : exec (.amoxorSpad d a b scale size ord scope off) s = execAmoxorSpad d a b scale size ord scope off s := rfl
theorem exec_amoswapSpad (d : BitVec 6) (a : BitVec 6) (b : BitVec 6) (scale : BitVec 3) (size : BitVec 2) (ord : Ord) (scope : Scope) (off : BitVec 21) (s : State) : exec (.amoswapSpad d a b scale size ord scope off) s = execAmoswapSpad d a b scale size ord scope off s := rfl
theorem exec_casSpad (d : BitVec 6) (a : BitVec 6) (b : BitVec 6) (scale : BitVec 3) (size : BitVec 2) (ord : Ord) (scope : Scope) (off : BitVec 21) (s : State) : exec (.casSpad d a b scale size ord scope off) s = execCasSpad d a b scale size ord scope off s := rfl
theorem exec_amofaddF32Spad (d : BitVec 6) (a : BitVec 6) (b : BitVec 6) (scale : BitVec 3) (ord : Ord) (scope : Scope) (off : BitVec 21) (s : State) : exec (.amofaddF32Spad d a b scale ord scope off) s = execAmofaddF32Spad d a b scale ord scope off s := rfl
theorem exec_qpush (d : BitVec 5) (a : BitVec 6) (cnt : BitVec 4) (s : State) : exec (.qpush d a cnt) s = execQpush d a cnt s := rfl
theorem exec_qpushI (d : BitVec 5) (imm : BitVec 32) (s : State) : exec (.qpushI d imm) s = execQpushI d imm s := rfl
theorem exec_qpushs (d : BitVec 5) (a : BitVec 6) (cnt : BitVec 4) (s : State) : exec (.qpushs d a cnt) s = execQpushs d a cnt s := rfl
theorem exec_qpushsI (d : BitVec 5) (imm : BitVec 32) (s : State) : exec (.qpushsI d imm) s = execQpushsI d imm s := rfl
theorem exec_qpop (d : BitVec 6) (a : BitVec 5) (cnt : BitVec 4) (s : State) : exec (.qpop d a cnt) s = execQpop d a cnt s := rfl
theorem exec_qpeek (d : BitVec 6) (a : BitVec 5) (cnt : BitVec 4) (s : State) : exec (.qpeek d a cnt) s = execQpeek d a cnt s := rfl
theorem exec_qtry (d : BitVec 6) (a : BitVec 5) (b : BitVec 3) (cnt : BitVec 4) (s : State) : exec (.qtry d a b cnt) s = execQtry d a b cnt s := rfl
theorem exec_qstat (d : BitVec 6) (a : BitVec 5) (s : State) : exec (.qstat d a) s = execQstat d a s := rfl
theorem exec_chsend (d : BitVec 5) (a : BitVec 6) (cnt : BitVec 4) (s : State) : exec (.chsend d a cnt) s = execChsend d a cnt s := rfl
theorem exec_chsendI (d : BitVec 5) (imm : BitVec 32) (s : State) : exec (.chsendI d imm) s = execChsendI d imm s := rfl
theorem exec_chrecv (d : BitVec 6) (a : BitVec 5) (cnt : BitVec 4) (s : State) : exec (.chrecv d a cnt) s = execChrecv d a cnt s := rfl
theorem exec_cbwaitF (a : BitVec 4) (b : BitVec 6) (s : State) : exec (.cbwaitF a b) s = execCbwaitF a b s := rfl
theorem exec_cbwaitFI (a : BitVec 4) (n : BitVec 13) (s : State) : exec (.cbwaitFI a n) s = execCbwaitFI a n s := rfl
theorem exec_cbwaitE (a : BitVec 4) (b : BitVec 6) (s : State) : exec (.cbwaitE a b) s = execCbwaitE a b s := rfl
theorem exec_cbwaitEI (a : BitVec 4) (n : BitVec 13) (s : State) : exec (.cbwaitEI a n) s = execCbwaitEI a n s := rfl
theorem exec_cbadvP (a : BitVec 4) (b : BitVec 6) (s : State) : exec (.cbadvP a b) s = execCbadvP a b s := rfl
theorem exec_cbadvPI (a : BitVec 4) (n : BitVec 13) (s : State) : exec (.cbadvPI a n) s = execCbadvPI a n s := rfl
theorem exec_cbadvC (a : BitVec 4) (b : BitVec 6) (s : State) : exec (.cbadvC a b) s = execCbadvC a b s := rfl
theorem exec_cbadvCI (a : BitVec 4) (n : BitVec 13) (s : State) : exec (.cbadvCI a n) s = execCbadvCI a n s := rfl
theorem exec_cbset (d : BitVec 4) (a : BitVec 6) (b : BitVec 6) (s : State) : exec (.cbset d a b) s = execCbset d a b s := rfl
theorem exec_cbget (d : BitVec 6) (a : BitVec 4) (c : BitVec 6) (s : State) : exec (.cbget d a c) s = execCbget d a c s := rfl
theorem exec_vcfg (b : BitVec 6) (s : State) : exec (.vcfg b) s = execVcfg b s := rfl
theorem exec_vcfgI (imm : BitVec 32) (s : State) : exec (.vcfgI imm) s = execVcfgI imm s := rfl
theorem exec_vrunHh (d : BitVec 4) (a : BitVec 4) (len : RunLen) (keep : Bool) (ew : BitVec 2) (s : State) : exec (.vrunHh d a len keep ew) s = execVrunHh d a len keep ew s := rfl
theorem exec_vrunHq (d : BitVec 5) (a : BitVec 4) (len : RunLen) (keep : Bool) (ew : BitVec 2) (s : State) : exec (.vrunHq d a len keep ew) s = execVrunHq d a len keep ew s := rfl
theorem exec_vrunQh (d : BitVec 4) (a : BitVec 5) (len : RunLen) (keep : Bool) (ew : BitVec 2) (s : State) : exec (.vrunQh d a len keep ew) s = execVrunQh d a len keep ew s := rfl
theorem exec_vrunQq (d : BitVec 5) (a : BitVec 5) (len : RunLen) (keep : Bool) (s : State) : exec (.vrunQq d a len keep) s = execVrunQq d a len keep s := rfl
theorem exec_vloop (d : BitVec 2) (b : BitVec 6) (s : State) : exec (.vloop d b) s = execVloop d b s := rfl
theorem exec_vloopI (d : BitVec 2) (imm : BitVec 32) (s : State) : exec (.vloopI d imm) s = execVloopI d imm s := rfl
theorem exec_vend (d : BitVec 2) (s : State) : exec (.vend d) s = execVend d s := rfl
theorem exec_vsync (s : State) : exec .vsync s = execVsync s := rfl
theorem exec_mldsS (a : BitVec 2) (mf : MFmt) (plane : BitVec 3) (s : State) : exec (.mldsS a mf plane) s = execMldsS a mf plane s := rfl
theorem exec_mldsH (a : BitVec 4) (mf : MFmt) (s : State) : exec (.mldsH a mf) s = execMldsH a mf s := rfl
theorem exec_mswap (s : State) : exec .mswap s = execMswap s := rfl
theorem exec_maccNH (d : BitVec 2) (a : BitVec 4) (af : MFmt) (rowb : BitVec 5) (nm1 : BitVec 5) (s : State) : exec (.maccNH d a af rowb nm1) s = execMaccNH d a af rowb nm1 s := rfl
theorem exec_maccNQ (d : BitVec 2) (a : BitVec 5) (af : MFmt) (rowb : BitVec 5) (nm1 : BitVec 5) (s : State) : exec (.maccNQ d a af rowb nm1) s = execMaccNQ d a af rowb nm1 s := rfl
theorem exec_maccTH (d : BitVec 2) (a : BitVec 4) (af : MFmt) (rowb : BitVec 5) (nm1 : BitVec 5) (s : State) : exec (.maccTH d a af rowb nm1) s = execMaccTH d a af rowb nm1 s := rfl
theorem exec_maccTQ (d : BitVec 2) (a : BitVec 5) (af : MFmt) (rowb : BitVec 5) (nm1 : BitVec 5) (s : State) : exec (.maccTQ d a af rowb nm1) s = execMaccTQ d a af rowb nm1 s := rfl
theorem exec_mzero (d : BitVec 2) (s : State) : exec (.mzero d) s = execMzero d s := rfl
theorem exec_mscale (a : BitVec 6) (tgt : Bool) (s : State) : exec (.mscale a tgt) s = execMscale a tgt s := rfl
theorem exec_mscaleI (tgt : Bool) (e : BitVec 8) (s : State) : exec (.mscaleI tgt e) s = execMscaleI tgt e s := rfl
theorem exec_mdrain (dst : Dest) (a : BitVec 2) (df : DFmt) (rnd : Rnd) (zero : Bool) (s : State) : exec (.mdrain dst a df rnd zero) s = execMdrain dst a df rnd zero s := rfl
theorem exec_mgang (mask : BitVec 4) (s : State) : exec (.mgang mask) s = execMgang mask s := rfl
theorem exec_mperm (a : BitVec 6) (s : State) : exec (.mperm a) s = execMperm a s := rfl
theorem exec_mxchg (d : BitVec 2) (a : BitVec 2) (s : State) : exec (.mxchg d a) s = execMxchg d a s := rfl
theorem exec_iload (d : BitVec 6) (a : BitVec 6) (s : State) : exec (.iload d a) s = execIload d a s := rfl
theorem exec_irunH (a : BitVec 4) (slot : BitVec 2) (nm1 : BitVec 6) (s : State) : exec (.irunH a slot nm1) s = execIrunH a slot nm1 s := rfl
theorem exec_irunQ (a : BitVec 5) (slot : BitVec 2) (nm1 : BitVec 6) (s : State) : exec (.irunQ a slot nm1) s = execIrunQ a slot nm1 s := rfl
theorem exec_idrain (dst : Dest) (nf : NFmt) (nm1 : BitVec 6) (s : State) : exec (.idrain dst nf nm1) s = execIdrain dst nf nm1 s := rfl
theorem exec_istat (d : BitVec 6) (sel : BitVec 3) (s : State) : exec (.istat d sel) s = execIstat d sel s := rfl
theorem exec_iunload (slot : BitVec 2) (s : State) : exec (.iunload slot) s = execIunload slot s := rfl
theorem exec_nsend (a : BitVec 6) (route : BitVec 8) (nm1 : BitVec 3) (s : State) : exec (.nsend a route nm1) s = execNsend a route nm1 s := rfl
theorem exec_nsendH (a : BitVec 4) (route : BitVec 8) (ns : BitVec 13) (s : State) : exec (.nsendH a route ns) s = execNsendH a route ns s := rfl
theorem exec_nrecv (d : BitVec 6) (route : BitVec 8) (nm1 : BitVec 3) (s : State) : exec (.nrecv d route nm1) s = execNrecv d route nm1 s := rfl
theorem exec_nrecvH (d : BitVec 4) (route : BitVec 8) (ns : BitVec 13) (s : State) : exec (.nrecvH d route ns) s = execNrecvH d route ns s := rfl
theorem exec_nred (a : BitVec 6) (route : BitVec 8) (nm1 : BitVec 3) (s : State) : exec (.nred a route nm1) s = execNred a route nm1 s := rfl
theorem exec_nredH (a : BitVec 4) (route : BitVec 8) (ns : BitVec 13) (s : State) : exec (.nredH a route ns) s = execNredH a route ns s := rfl
theorem exec_nbcast (a : BitVec 6) (route : BitVec 8) (nm1 : BitVec 3) (s : State) : exec (.nbcast a route nm1) s = execNbcast a route nm1 s := rfl
theorem exec_nbcastH (a : BitVec 4) (route : BitVec 8) (ns : BitVec 13) (s : State) : exec (.nbcastH a route ns) s = execNbcastH a route ns s := rfl
theorem exec_ntok (a : BitVec 6) (s : State) : exec (.ntok a) s = execNtok a s := rfl
theorem exec_ntokI (imm : BitVec 32) (s : State) : exec (.ntokI imm) s = execNtokI imm s := rfl
theorem exec_narm (d : BitVec 6) (a : BitVec 6) (b : BitVec 6) (s : State) : exec (.narm d a b) s = execNarm d a b s := rfl
theorem exec_narmI (d : BitVec 6) (imm : BitVec 32) (s : State) : exec (.narmI d imm) s = execNarmI d imm s := rfl
theorem exec_nfence (s : State) : exec .nfence s = execNfence s := rfl
theorem exec_vnwait (d : BitVec 6) (sel : VnSel) (mask : BitVec 4) (s : State) : exec (.vnwait d sel mask) s = execVnwait d sel mask s := rfl
theorem exec_vnrel (a : BitVec 6) (s : State) : exec (.vnrel a) s = execVnrel a s := rfl
theorem exec_vnrelI (imm : BitVec 32) (s : State) : exec (.vnrelI imm) s = execVnrelI imm s := rfl
theorem exec_bar (d : BitVec 6) (a : BitVec 6) (sync : Bool) (s : State) : exec (.bar d a sync) s = execBar d a sync s := rfl
theorem exec_barI (d : BitVec 6) (bar : BitVec 6) (sync : Bool) (count : BitVec 16) (s : State) : exec (.barI d bar sync count) s = execBarI d bar sync count s := rfl
theorem exec_pvget (d : BitVec 6) (a : BitVec 6) (s : State) : exec (.pvget d a) s = execPvget d a s := rfl
theorem exec_pvgetI (d : BitVec 6) (imm : BitVec 32) (s : State) : exec (.pvgetI d imm) s = execPvgetI d imm s := rfl
theorem exec_pvpin (d : BitVec 6) (a : BitVec 6) (s : State) : exec (.pvpin d a) s = execPvpin d a s := rfl
theorem exec_pvunpin (a : BitVec 6) (s : State) : exec (.pvunpin a) s = execPvunpin a s := rfl
theorem exec_pvpubRes (d : BitVec 6) (a : BitVec 6) (s : State) : exec (.pvpubRes d a) s = execPvpubRes d a s := rfl
theorem exec_pvpubCom (d : BitVec 6) (a : BitVec 6) (s : State) : exec (.pvpubCom d a) s = execPvpubCom d a s := rfl
theorem exec_pvswitch (d : BitVec 6) (a : BitVec 6) (s : State) : exec (.pvswitch d a) s = execPvswitch d a s := rfl
theorem exec_pvtag (d : BitVec 6) (a : BitVec 6) (s : State) : exec (.pvtag d a) s = execPvtag d a s := rfl
theorem exec_stash (a : BitVec 6) (b : BitVec 6) (s : State) : exec (.stash a b) s = execStash a b s := rfl
theorem exec_unstash (d : BitVec 6) (a : BitVec 6) (b : BitVec 6) (s : State) : exec (.unstash d a b) s = execUnstash d a b s := rfl
theorem exec_srseed (a : BitVec 6) (sub : BitVec 3) (s : State) : exec (.srseed a sub) s = execSrseed a sub s := rfl
theorem exec_gradarm (bar : BitVec 6) (s : State) : exec (.gradarm bar) s = execGradarm bar s := rfl
theorem exec_trap (a : BitVec 6) (s : State) : exec (.trap a) s = execTrap a s := rfl
theorem exec_trapI (imm : BitVec 32) (s : State) : exec (.trapI imm) s = execTrapI imm s := rfl
theorem exec_eret (s : State) : exec .eret s = execEret s := rfl
theorem exec_krd (d : BitVec 6) (creg : BitVec 10) (s : State) : exec (.krd d creg) s = execKrd d creg s := rfl
theorem exec_kwr (a : BitVec 6) (creg : BitVec 10) (s : State) : exec (.kwr a creg) s = execKwr a creg s := rfl
theorem exec_tlbinv (a : BitVec 6) (s : State) : exec (.tlbinv a) s = execTlbinv a s := rfl
theorem exec_tlbinvr (a : BitVec 6) (b : BitVec 6) (s : State) : exec (.tlbinvr a b) s = execTlbinvr a b s := rfl
theorem exec_shoot (d : BitVec 6) (a : BitVec 6) (b : BitVec 6) (s : State) : exec (.shoot d a b) s = execShoot d a b s := rfl
theorem exec_freeze (d : BitVec 6) (a : BitVec 6) (s : State) : exec (.freeze d a) s = execFreeze d a s := rfl
theorem exec_thaw (d : BitVec 6) (a : BitVec 6) (s : State) : exec (.thaw d a) s = execThaw d a s := rfl
theorem exec_featrd (d : BitVec 6) (a : BitVec 6) (s : State) : exec (.featrd d a) s = execFeatrd d a s := rfl
theorem exec_featrdI (d : BitVec 6) (imm : BitVec 32) (s : State) : exec (.featrdI d imm) s = execFeatrdI d imm s := rfl
theorem exec_brk (code : BitVec 16) (s : State) : exec (.brk code) s = execBrk code s := rfl
theorem exec_dhalt (a : BitVec 6) (s : State) : exec (.dhalt a) s = execDhalt a s := rfl
theorem exec_dresume (a : BitVec 6) (s : State) : exec (.dresume a) s = execDresume a s := rfl
theorem exec_bwdderive (d : BitVec 6) (a : BitVec 6) (b : BitVec 6) (c : BitVec 6) (s : State) : exec (.bwdderive d a b c) s = execBwdderive d a b c s := rfl
theorem exec_deferredFaultDelivery (s : State) : exec .deferredFaultDelivery s = execDeferredFaultDelivery s := rfl
theorem exec_launchIntake (s : State) : exec .launchIntake s = execLaunchIntake s := rfl
theorem exec_placementReserve (s : State) : exec .placementReserve s = execPlacementReserve s := rfl
theorem exec_placementCommit (s : State) : exec .placementCommit s = execPlacementCommit s := rfl
theorem exec_gridRetire (s : State) : exec .gridRetire s = execGridRetire s := rfl
theorem exec_eventQueueAdvance (s : State) : exec .eventQueueAdvance s = execEventQueueAdvance s := rfl
theorem exec_attestRequest (s : State) : exec .attestRequest s = execAttestRequest s := rfl
theorem exec_attestComplete (s : State) : exec .attestComplete s = execAttestComplete s := rfl
theorem exec_powerCapStep (s : State) : exec .powerCapStep s = execPowerCapStep s := rfl
theorem exec_powerDown (s : State) : exec .powerDown s = execPowerDown s := rfl

end Sys2Proof.Machine
end

