-- ==== Sys2Proof/Laws/Table.lean ====
section
/-!
SUPPORT. What a table and a memory hold after a write, and that every write keeps the canonical form (Machine/Table.lean).
-/
namespace Sys2Proof.Machine

variable {α : Type}

theorem tabGet_erase_same (d : α) (t : Table α) (n : Nat) : tabGet d (tabErase t n) n = d := by
  induction t with
  | nil => rfl
  | cons e r ih =>
    obtain ⟨k, v⟩ := e
    by_cases h : k = n <;> simp [tabErase, tabGet, h, ih]

theorem tabGet_erase_other (d : α) (t : Table α) {n m : Nat} (h : m ≠ n) : tabGet d (tabErase t n) m = tabGet d t m := by
  induction t with
  | nil => rfl
  | cons e r ih =>
    obtain ⟨k, v⟩ := e
    by_cases hk : k = n
    · subst hk; simp [tabErase, tabGet, ih, Ne.symm h]
    · simp [tabErase, tabGet, hk, ih]

/-- No entry of an erased table names the key. -/
theorem tabErase_noKey (t : Table α) (n : Nat) : ∀ e ∈ tabErase t n, e.1 ≠ n := by
  induction t with
  | nil => simp [tabErase]
  | cons e r ih =>
    obtain ⟨k, v⟩ := e
    by_cases h : k = n
    · simpa [tabErase, h] using ih
    · simp only [tabErase, h, if_false, List.mem_cons, forall_eq_or_imp]
      exact ⟨h, ih⟩

theorem tabGet_insert_same (d : α) (t : Table α) (n : Nat) (v : α) (h : ∀ e ∈ t, e.1 ≠ n) :
    tabGet d (tabInsert t n v) n = v := by
  induction t with
  | nil => simp [tabInsert, tabGet]
  | cons e r ih =>
    obtain ⟨k, x⟩ := e
    have hk : k ≠ n := h (k, x) (by simp)
    by_cases hl : n < k
    · simp [tabInsert, tabGet, hl]
    · simp only [tabInsert, hl, if_false, tabGet, hk]
      exact ih fun e he => h e (by simp [he])

theorem tabGet_insert_other (d : α) (t : Table α) {n m : Nat} (v : α) (h : m ≠ n) :
    tabGet d (tabInsert t n v) m = tabGet d t m := by
  induction t with
  | nil => simp [tabInsert, tabGet, Ne.symm h]
  | cons e r ih =>
    obtain ⟨k, x⟩ := e
    by_cases hl : n < k
    · simp [tabInsert, tabGet, hl, Ne.symm h]
    · simp [tabInsert, tabGet, hl, ih]

theorem tabErase_of_noKey (t : Table α) (n : Nat) (h : ∀ e ∈ t, e.1 ≠ n) : tabErase t n = t := by
  induction t with
  | nil => rfl
  | cons e r ih =>
    obtain ⟨k, x⟩ := e
    have hk : k ≠ n := h (k, x) (by simp)
    simp only [tabErase, hk, if_false, ih fun e he => h e (by simp [he])]

theorem tabErase_insert (t : Table α) (n : Nat) (v : α) (h : ∀ e ∈ t, e.1 ≠ n) : tabErase (tabInsert t n v) n = t := by
  induction t with
  | nil => simp [tabInsert, tabErase]
  | cons e r ih =>
    obtain ⟨k, x⟩ := e
    have hk : k ≠ n := h (k, x) (by simp)
    by_cases hl : n < k
    · simp only [tabInsert, hl, if_true, tabErase, tabErase, hk, if_false,
        tabErase_of_noKey r n fun e he => h e (by simp [he])]
    · simp only [tabInsert, hl, if_false, tabErase, hk, ih fun e he => h e (by simp [he])]

section Set
variable [DecidableEq α]

/-- A key that was set reads as the value. -/
@[simp] theorem tabGet_set_same (d : α) (t : Table α) (n : Nat) (v : α) : tabGet d (tabSet d t n v) n = v := by
  unfold tabSet
  split
  · next h => rw [tabGet_erase_same, h]
  · exact tabGet_insert_same d _ n v (tabErase_noKey t n)

/-- Setting a key leaves every other key alone. -/
theorem tabGet_set_other (d : α) (t : Table α) {n m : Nat} (v : α) (h : m ≠ n) :
    tabGet d (tabSet d t n v) m = tabGet d t m := by
  unfold tabSet
  split
  · exact tabGet_erase_other d t h
  · rw [tabGet_insert_other d _ v h, tabGet_erase_other d t h]

/-- Any key after a key was set. -/
theorem tabGet_set (d : α) (t : Table α) (n m : Nat) (v : α) :
    tabGet d (tabSet d t n v) m = if m = n then v else tabGet d t m := by
  by_cases h : m = n
  · subst h; simp
  · simp [h, tabGet_set_other]

/-- Of two settings of one key, the later counts. -/
@[simp] theorem tabSet_set (d : α) (t : Table α) (n : Nat) (v w : α) : tabSet d (tabSet d t n v) n w = tabSet d t n w := by
  have he : tabErase (tabSet d t n v) n = tabErase t n := by
    unfold tabSet
    split
    · exact tabErase_of_noKey _ n (tabErase_noKey t n)
    · exact tabErase_insert _ n v (tabErase_noKey t n)
  show (if w = d then tabErase (tabSet d t n v) n else tabInsert (tabErase (tabSet d t n v) n) n w) = _
  rw [he]
  rfl

theorem tabWfFrom_mono (d : α) (t : Table α) {lo lo' : Nat} (h : lo' ≤ lo) (w : tabWfFrom d lo t = true) :
    tabWfFrom d lo' t = true := by
  cases t with
  | nil => rfl
  | cons e r =>
    obtain ⟨k, v⟩ := e
    simp only [tabWfFrom, Bool.and_eq_true, decide_eq_true_eq] at *
    exact ⟨⟨by omega, w.1.2⟩, w.2⟩

theorem tabWfFrom_erase (d : α) (t : Table α) (lo n : Nat) (w : tabWfFrom d lo t = true) :
    tabWfFrom d lo (tabErase t n) = true := by
  induction t generalizing lo with
  | nil => rfl
  | cons e r ih =>
    obtain ⟨k, v⟩ := e
    simp only [tabWfFrom, Bool.and_eq_true, decide_eq_true_eq] at w
    by_cases h : k = n
    · simp only [tabErase, h, if_true]
      exact tabWfFrom_mono d _ (by omega) (ih (k + 1) w.2)
    · simp only [tabErase, h, if_false, tabWfFrom, Bool.and_eq_true, decide_eq_true_eq]
      exact ⟨w.1, ih (k + 1) w.2⟩

theorem tabWfFrom_insert (d : α) (t : Table α) (lo n : Nat) (v : α) (hv : v ≠ d) (hn : lo ≤ n)
    (hk : ∀ e ∈ t, e.1 ≠ n) (w : tabWfFrom d lo t = true) : tabWfFrom d lo (tabInsert t n v) = true := by
  induction t generalizing lo with
  | nil => simp [tabInsert, tabWfFrom, hv, hn]
  | cons e r ih =>
    obtain ⟨k, x⟩ := e
    have hkn : k ≠ n := hk (k, x) (by simp)
    simp only [tabWfFrom, Bool.and_eq_true, decide_eq_true_eq] at w
    by_cases hl : n < k
    · simp only [tabInsert, hl, if_true, tabWfFrom, Bool.and_eq_true, decide_eq_true_eq]
      exact ⟨⟨hn, hv⟩, ⟨by omega, w.1.2⟩, w.2⟩
    · simp only [tabInsert, hl, if_false, tabWfFrom, Bool.and_eq_true, decide_eq_true_eq]
      exact ⟨w.1, ih (k + 1) (by omega) (fun e he => hk e (by simp [he])) w.2⟩

/-- Setting a key keeps the canonical form. -/
theorem tabWf_set (d : α) (t : Table α) (n : Nat) (v : α) (w : tabWf d t = true) : tabWf d (tabSet d t n v) = true := by
  unfold tabSet
  split
  · exact tabWfFrom_erase d t 0 n w
  · next h => exact tabWfFrom_insert d _ 0 n v h (Nat.zero_le n) (tabErase_noKey t n) (tabWfFrom_erase d t 0 n w)

end Set

/-! ## Memories -/

theorem readByte_writeByte (m : Memory) (a c : Nat) (b : Byte) :
    readByte (writeByte m a b) c = if c = a then b else readByte m c := tabGet_set 0 m a c b

/-- Writing a byte keeps the canonical form. -/
theorem wf_writeByte (m : Memory) (a : Nat) (b : Byte) (w : m.wf = true) : (writeByte m a b).wf = true :=
  tabWf_set 0 m a b w

/-- Writing bytes keeps the canonical form. -/
theorem wf_writeBytes (m : Memory) (a : Nat) (bs : List Byte) (w : m.wf = true) : (writeBytes m a bs).wf = true := by
  induction bs generalizing m a with
  | nil => exact w
  | cons b bs ih => exact ih _ _ (wf_writeByte m a b w)

/-- Writing a number keeps the canonical form. -/
theorem wf_writeNat (m : Memory) (a n v : Nat) (w : m.wf = true) : (writeNat m a n v).wf = true :=
  wf_writeBytes m a _ w

/-- Bytes below the first written one stay. -/
theorem readByte_writeBytes_below (m : Memory) (a c : Nat) (bs : List Byte) (h : c < a) :
    readByte (writeBytes m a bs) c = readByte m c := by
  induction bs generalizing m a with
  | nil => rfl
  | cons b bs ih => rw [writeBytes, ih _ _ (by omega), readByte_writeByte, if_neg (by omega)]

/-- Bytes outside the written ones stay. -/
theorem readByte_writeBytes_outside (m : Memory) (a c : Nat) (bs : List Byte) (h : c < a ∨ a + bs.length ≤ c) :
    readByte (writeBytes m a bs) c = readByte m c := by
  induction bs generalizing m a with
  | nil => rfl
  | cons b bs ih =>
    simp only [List.length_cons] at h
    rw [writeBytes, ih _ _ (by omega), readByte_writeByte, if_neg (by omega)]

/-- Each written byte reads back. -/
theorem readByte_writeBytes_inside (m : Memory) (a k : Nat) (bs : List Byte) (h : k < bs.length) :
    readByte (writeBytes m a bs) (a + k) = bs[k] := by
  induction bs generalizing m a k with
  | nil => simp at h
  | cons b bs ih =>
    cases k with
    | zero => rw [writeBytes, readByte_writeBytes_below _ _ _ _ (by omega), readByte_writeByte]; simp
    | succ k =>
      rw [writeBytes, show a + (k + 1) = a + 1 + k by omega, ih _ _ _ (by simpa using h)]
      rfl

@[simp] theorem length_natLe (n v : Nat) : (natLe n v).length = n := by
  induction n generalizing v with
  | zero => rfl
  | succ n ih => simp [natLe, ih]

theorem readByte_writeNat_outside (m : Memory) (a n v c : Nat) (h : c < a ∨ a + n ≤ c) :
    readByte (writeNat m a n v) c = readByte m c :=
  readByte_writeBytes_outside m a c _ (by simpa using h)

theorem readBytes_congr (m m' : Memory) (a n : Nat) (h : ∀ k, k < n → readByte m (a + k) = readByte m' (a + k)) :
    readBytes m a n = readBytes m' a n := by
  induction n generalizing a with
  | zero => rfl
  | succ n ih =>
    simp only [readBytes]
    rw [show readByte m a = readByte m' a from h 0 (by omega)]
    rw [ih (a + 1) fun k hk => by simpa [Nat.add_assoc, Nat.add_comm 1 k] using h (k + 1) (by omega)]

/-- Bytes written read back. -/
theorem readBytes_writeBytes (m : Memory) (a : Nat) (bs : List Byte) : readBytes (writeBytes m a bs) a bs.length = bs := by
  induction bs generalizing m a with
  | nil => rfl
  | cons b bs ih =>
    simp only [List.length_cons, readBytes, writeBytes]
    rw [readByte_writeBytes_below _ _ _ _ (by omega), readByte_writeByte, if_pos rfl, ih]

theorem leNat_natLe (n v : Nat) : leNat (natLe n v) = v % 256 ^ n := by
  induction n generalizing v with
  | zero => simp [natLe, leNat, Nat.mod_one]
  | succ n ih =>
    have hb : (BitVec.ofNat 8 v).toNat = v % 256 := BitVec.toNat_ofNat ..
    rw [natLe, leNat, ih, hb, Nat.pow_succ, Nat.mul_comm (256 ^ n) 256, Nat.mod_mul]

/-- A number written reads back, modulo the width. -/
theorem readNat_writeNat (m : Memory) (a n v : Nat) : readNat (writeNat m a n v) a n = v % 256 ^ n := by
  have h := readBytes_writeBytes m a (natLe n v)
  rw [length_natLe] at h
  rw [readNat, writeNat, h, leNat_natLe]

end Sys2Proof.Machine
end

