-- ==== Sys2Proof/Laws/State.lean ====
section
/-!
SUPPORT. What each update of the state leaves alone, field by field, and what it makes read back: true by rfl but where a table
is read.
-/
namespace Sys2Proof.Machine

/-! ## State.setTile -/

@[simp] theorem State.setTile_mem (s : State) (n : Nat) (x : Tile) : (s.setTile n x).mem = s.mem := rfl
@[simp] theorem State.setTile_hostMem (s : State) (n : Nat) (x : Tile) : (s.setTile n x).hostMem = s.hostMem := rfl
@[simp] theorem State.setTile_uncorr (s : State) (n : Nat) (x : Tile) : (s.setTile n x).uncorr = s.uncorr := rfl
@[simp] theorem State.setTile_correctable (s : State) (n : Nat) (x : Tile) : (s.setTile n x).correctable = s.correctable := rfl
@[simp] theorem State.setTile_stackTransients (s : State) (n : Nat) (x : Tile) : (s.setTile n x).stackTransients = s.stackTransients := rfl
@[simp] theorem State.setTile_regions (s : State) (n : Nat) (x : Tile) : (s.setTile n x).regions = s.regions := rfl
@[simp] theorem State.setTile_clusters (s : State) (n : Nat) (x : Tile) : (s.setTile n x).clusters = s.clusters := rfl
@[simp] theorem State.setTile_contexts (s : State) (n : Nat) (x : Tile) : (s.setTile n x).contexts = s.contexts := rfl
@[simp] theorem State.setTile_registry (s : State) (n : Nat) (x : Tile) : (s.setTile n x).registry = s.registry := rfl
@[simp] theorem State.setTile_frames (s : State) (n : Nat) (x : Tile) : (s.setTile n x).frames = s.frames := rfl
@[simp] theorem State.setTile_pendingShoot (s : State) (n : Nat) (x : Tile) : (s.setTile n x).pendingShoot = s.pendingShoot := rfl
@[simp] theorem State.setTile_shoots (s : State) (n : Nat) (x : Tile) : (s.setTile n x).shoots = s.shoots := rfl
@[simp] theorem State.setTile_nextShoot (s : State) (n : Nat) (x : Tile) : (s.setTile n x).nextShoot = s.nextShoot := rfl
@[simp] theorem State.setTile_dist (s : State) (n : Nat) (x : Tile) : (s.setTile n x).dist = s.dist := rfl
@[simp] theorem State.setTile_hostRegs (s : State) (n : Nat) (x : Tile) : (s.setTile n x).hostRegs = s.hostRegs := rfl
@[simp] theorem State.setTile_eqTail (s : State) (n : Nat) (x : Tile) : (s.setTile n x).eqTail = s.eqTail := rfl
@[simp] theorem State.setTile_fqTail (s : State) (n : Nat) (x : Tile) : (s.setTile n x).fqTail = s.fqTail := rfl
@[simp] theorem State.setTile_events (s : State) (n : Nat) (x : Tile) : (s.setTile n x).events = s.events := rfl
@[simp] theorem State.setTile_time (s : State) (n : Nat) (x : Tile) : (s.setTile n x).time = s.time := rfl
@[simp] theorem State.setTile_powered (s : State) (n : Nat) (x : Tile) : (s.setTile n x).powered = s.powered := rfl
@[simp] theorem State.setTile_bootstat (s : State) (n : Nat) (x : Tile) : (s.setTile n x).bootstat = s.bootstat := rfl
@[simp] theorem State.setTile_surplus (s : State) (n : Nat) (x : Tile) : (s.setTile n x).surplus = s.surplus := rfl
@[simp] theorem State.setTile_moduleNumber (s : State) (n : Nat) (x : Tile) : (s.setTile n x).moduleNumber = s.moduleNumber := rfl
@[simp] theorem State.setTile_fabricAddr (s : State) (n : Nat) (x : Tile) : (s.setTile n x).fabricAddr = s.fabricAddr := rfl
@[simp] theorem State.setTile_domain (s : State) (n : Nat) (x : Tile) : (s.setTile n x).domain = s.domain := rfl
@[simp] theorem State.setTile_unreachable (s : State) (n : Nat) (x : Tile) : (s.setTile n x).unreachable = s.unreachable := rfl
@[simp] theorem State.setTile_measure (s : State) (n : Nat) (x : Tile) : (s.setTile n x).measure = s.measure := rfl
@[simp] theorem State.setTile_offered (s : State) (n : Nat) (x : Tile) : (s.setTile n x).offered = s.offered := rfl
@[simp] theorem State.setTile_accepted (s : State) (n : Nat) (x : Tile) : (s.setTile n x).accepted = s.accepted := rfl
@[simp] theorem State.setTile_acceptWritten (s : State) (n : Nat) (x : Tile) : (s.setTile n x).acceptWritten = s.acceptWritten := rfl
@[simp] theorem State.setTile_ktopo (s : State) (n : Nat) (x : Tile) : (s.setTile n x).ktopo = s.ktopo := rfl
@[simp] theorem State.setTile_shadowRemoved (s : State) (n : Nat) (x : Tile) : (s.setTile n x).shadowRemoved = s.shadowRemoved := rfl
@[simp] theorem State.setTile_topoRoutes (s : State) (n : Nat) (x : Tile) : (s.setTile n x).topoRoutes = s.topoRoutes := rfl
@[simp] theorem State.setTile_shadowRoutes (s : State) (n : Nat) (x : Tile) : (s.setTile n x).shadowRoutes = s.shadowRoutes := rfl
@[simp] theorem State.setTile_lateAns (s : State) (n : Nat) (x : Tile) : (s.setTile n x).lateAns = s.lateAns := rfl
@[simp] theorem State.setTile_defects (s : State) (n : Nat) (x : Tile) : (s.setTile n x).defects = s.defects := rfl
@[simp] theorem State.setTile_offCols (s : State) (n : Nat) (x : Tile) : (s.setTile n x).offCols = s.offCols := rfl
@[simp] theorem State.setTile_offRows (s : State) (n : Nat) (x : Tile) : (s.setTile n x).offRows = s.offRows := rfl
@[simp] theorem State.setTile_colCount (s : State) (n : Nat) (x : Tile) : (s.setTile n x).colCount = s.colCount := rfl
@[simp] theorem State.setTile_rowCount (s : State) (n : Nat) (x : Tile) : (s.setTile n x).rowCount = s.rowCount := rfl
@[simp] theorem State.setTile_gridVersion (s : State) (n : Nat) (x : Tile) : (s.setTile n x).gridVersion = s.gridVersion := rfl
@[simp] theorem State.setTile_retirements (s : State) (n : Nat) (x : Tile) : (s.setTile n x).retirements = s.retirements := rfl
@[simp] theorem State.setTile_retireCopies (s : State) (n : Nat) (x : Tile) : (s.setTile n x).retireCopies = s.retireCopies := rfl
@[simp] theorem State.setTile_mapGood (s : State) (n : Nat) (x : Tile) : (s.setTile n x).mapGood = s.mapGood := rfl
@[simp] theorem State.setTile_fusedMap (s : State) (n : Nat) (x : Tile) : (s.setTile n x).fusedMap = s.fusedMap := rfl
@[simp] theorem State.setTile_toRetire (s : State) (n : Nat) (x : Tile) : (s.setTile n x).toRetire = s.toRetire := rfl
@[simp] theorem State.setTile_retireFrozen (s : State) (n : Nat) (x : Tile) : (s.setTile n x).retireFrozen = s.retireFrozen := rfl
@[simp] theorem State.setTile_links (s : State) (n : Nat) (x : Tile) : (s.setTile n x).links = s.links := rfl
@[simp] theorem State.setTile_lightLast (s : State) (n : Nat) (x : Tile) : (s.setTile n x).lightLast = s.lightLast := rfl
@[simp] theorem State.setTile_freeStack (s : State) (n : Nat) (x : Tile) : (s.setTile n x).freeStack = s.freeStack := rfl
@[simp] theorem State.setTile_passEntries (s : State) (n : Nat) (x : Tile) : (s.setTile n x).passEntries = s.passEntries := rfl
@[simp] theorem State.setTile_flying (s : State) (n : Nat) (x : Tile) : (s.setTile n x).flying = s.flying := rfl
@[simp] theorem State.setTile_served (s : State) (n : Nat) (x : Tile) : (s.setTile n x).served = s.served := rfl
@[simp] theorem State.setTile_leftPorts (s : State) (n : Nat) (x : Tile) : (s.setTile n x).leftPorts = s.leftPorts := rfl
@[simp] theorem State.setTile_refused (s : State) (n : Nat) (x : Tile) : (s.setTile n x).refused = s.refused := rfl
@[simp] theorem State.setTile_leases (s : State) (n : Nat) (x : Tile) : (s.setTile n x).leases = s.leases := rfl
@[simp] theorem State.setTile_debugStatus (s : State) (n : Nat) (x : Tile) : (s.setTile n x).debugStatus = s.debugStatus := rfl
@[simp] theorem State.setTile_debugData (s : State) (n : Nat) (x : Tile) : (s.setTile n x).debugData = s.debugData := rfl
@[simp] theorem State.setTile_debugBreak (s : State) (n : Nat) (x : Tile) : (s.setTile n x).debugBreak = s.debugBreak := rfl
@[simp] theorem State.setTile_attest (s : State) (n : Nat) (x : Tile) : (s.setTile n x).attest = s.attest := rfl
@[simp] theorem State.setTile_attestState (s : State) (n : Nat) (x : Tile) : (s.setTile n x).attestState = s.attestState := rfl
@[simp] theorem State.setTile_attestAgain (s : State) (n : Nat) (x : Tile) : (s.setTile n x).attestAgain = s.attestAgain := rfl
@[simp] theorem State.setTile_attestDigest (s : State) (n : Nat) (x : Tile) : (s.setTile n x).attestDigest = s.attestDigest := rfl
@[simp] theorem State.setTile_posted (s : State) (n : Nat) (x : Tile) : (s.setTile n x).posted = s.posted := rfl
@[simp] theorem State.setTile_hostRead (s : State) (n : Nat) (x : Tile) : (s.setTile n x).hostRead = s.hostRead := rfl
@[simp] theorem State.setTile_flash (s : State) (n : Nat) (x : Tile) : (s.setTile n x).flash = s.flash := rfl
@[simp] theorem State.setTile_clockMHz (s : State) (n : Nat) (x : Tile) : (s.setTile n x).clockMHz = s.clockMHz := rfl
@[simp] theorem State.setTile_laneRetired (s : State) (n : Nat) (x : Tile) : (s.setTile n x).laneRetired = s.laneRetired := rfl
@[simp] theorem State.setTile_laneTransients (s : State) (n : Nat) (x : Tile) : (s.setTile n x).laneTransients = s.laneTransients := rfl
@[simp] theorem State.setTile_cur (s : State) (n : Nat) (x : Tile) : (s.setTile n x).cur = s.cur := rfl
@[simp] theorem State.setTile_agenda (s : State) (n : Nat) (x : Tile) : (s.setTile n x).agenda = s.agenda := rfl
@[simp] theorem State.setTile_evTurn (s : State) (n : Nat) (x : Tile) : (s.setTile n x).evTurn = s.evTurn := rfl
@[simp] theorem State.setTile_steps (s : State) (n : Nat) (x : Tile) : (s.setTile n x).steps = s.steps := rfl

/-! ## State.setRegion -/

@[simp] theorem State.setRegion_mem (s : State) (h : BitVec 32) (x : Region) : (s.setRegion h x).mem = s.mem := rfl
@[simp] theorem State.setRegion_hostMem (s : State) (h : BitVec 32) (x : Region) : (s.setRegion h x).hostMem = s.hostMem := rfl
@[simp] theorem State.setRegion_uncorr (s : State) (h : BitVec 32) (x : Region) : (s.setRegion h x).uncorr = s.uncorr := rfl
@[simp] theorem State.setRegion_correctable (s : State) (h : BitVec 32) (x : Region) : (s.setRegion h x).correctable = s.correctable := rfl
@[simp] theorem State.setRegion_stackTransients (s : State) (h : BitVec 32) (x : Region) : (s.setRegion h x).stackTransients = s.stackTransients := rfl
@[simp] theorem State.setRegion_tiles (s : State) (h : BitVec 32) (x : Region) : (s.setRegion h x).tiles = s.tiles := rfl
@[simp] theorem State.setRegion_clusters (s : State) (h : BitVec 32) (x : Region) : (s.setRegion h x).clusters = s.clusters := rfl
@[simp] theorem State.setRegion_contexts (s : State) (h : BitVec 32) (x : Region) : (s.setRegion h x).contexts = s.contexts := rfl
@[simp] theorem State.setRegion_registry (s : State) (h : BitVec 32) (x : Region) : (s.setRegion h x).registry = s.registry := rfl
@[simp] theorem State.setRegion_frames (s : State) (h : BitVec 32) (x : Region) : (s.setRegion h x).frames = s.frames := rfl
@[simp] theorem State.setRegion_pendingShoot (s : State) (h : BitVec 32) (x : Region) : (s.setRegion h x).pendingShoot = s.pendingShoot := rfl
@[simp] theorem State.setRegion_shoots (s : State) (h : BitVec 32) (x : Region) : (s.setRegion h x).shoots = s.shoots := rfl
@[simp] theorem State.setRegion_nextShoot (s : State) (h : BitVec 32) (x : Region) : (s.setRegion h x).nextShoot = s.nextShoot := rfl
@[simp] theorem State.setRegion_dist (s : State) (h : BitVec 32) (x : Region) : (s.setRegion h x).dist = s.dist := rfl
@[simp] theorem State.setRegion_hostRegs (s : State) (h : BitVec 32) (x : Region) : (s.setRegion h x).hostRegs = s.hostRegs := rfl
@[simp] theorem State.setRegion_eqTail (s : State) (h : BitVec 32) (x : Region) : (s.setRegion h x).eqTail = s.eqTail := rfl
@[simp] theorem State.setRegion_fqTail (s : State) (h : BitVec 32) (x : Region) : (s.setRegion h x).fqTail = s.fqTail := rfl
@[simp] theorem State.setRegion_events (s : State) (h : BitVec 32) (x : Region) : (s.setRegion h x).events = s.events := rfl
@[simp] theorem State.setRegion_time (s : State) (h : BitVec 32) (x : Region) : (s.setRegion h x).time = s.time := rfl
@[simp] theorem State.setRegion_powered (s : State) (h : BitVec 32) (x : Region) : (s.setRegion h x).powered = s.powered := rfl
@[simp] theorem State.setRegion_bootstat (s : State) (h : BitVec 32) (x : Region) : (s.setRegion h x).bootstat = s.bootstat := rfl
@[simp] theorem State.setRegion_surplus (s : State) (h : BitVec 32) (x : Region) : (s.setRegion h x).surplus = s.surplus := rfl
@[simp] theorem State.setRegion_moduleNumber (s : State) (h : BitVec 32) (x : Region) : (s.setRegion h x).moduleNumber = s.moduleNumber := rfl
@[simp] theorem State.setRegion_fabricAddr (s : State) (h : BitVec 32) (x : Region) : (s.setRegion h x).fabricAddr = s.fabricAddr := rfl
@[simp] theorem State.setRegion_domain (s : State) (h : BitVec 32) (x : Region) : (s.setRegion h x).domain = s.domain := rfl
@[simp] theorem State.setRegion_unreachable (s : State) (h : BitVec 32) (x : Region) : (s.setRegion h x).unreachable = s.unreachable := rfl
@[simp] theorem State.setRegion_measure (s : State) (h : BitVec 32) (x : Region) : (s.setRegion h x).measure = s.measure := rfl
@[simp] theorem State.setRegion_offered (s : State) (h : BitVec 32) (x : Region) : (s.setRegion h x).offered = s.offered := rfl
@[simp] theorem State.setRegion_accepted (s : State) (h : BitVec 32) (x : Region) : (s.setRegion h x).accepted = s.accepted := rfl
@[simp] theorem State.setRegion_acceptWritten (s : State) (h : BitVec 32) (x : Region) : (s.setRegion h x).acceptWritten = s.acceptWritten := rfl
@[simp] theorem State.setRegion_ktopo (s : State) (h : BitVec 32) (x : Region) : (s.setRegion h x).ktopo = s.ktopo := rfl
@[simp] theorem State.setRegion_shadowRemoved (s : State) (h : BitVec 32) (x : Region) : (s.setRegion h x).shadowRemoved = s.shadowRemoved := rfl
@[simp] theorem State.setRegion_topoRoutes (s : State) (h : BitVec 32) (x : Region) : (s.setRegion h x).topoRoutes = s.topoRoutes := rfl
@[simp] theorem State.setRegion_shadowRoutes (s : State) (h : BitVec 32) (x : Region) : (s.setRegion h x).shadowRoutes = s.shadowRoutes := rfl
@[simp] theorem State.setRegion_lateAns (s : State) (h : BitVec 32) (x : Region) : (s.setRegion h x).lateAns = s.lateAns := rfl
@[simp] theorem State.setRegion_defects (s : State) (h : BitVec 32) (x : Region) : (s.setRegion h x).defects = s.defects := rfl
@[simp] theorem State.setRegion_offCols (s : State) (h : BitVec 32) (x : Region) : (s.setRegion h x).offCols = s.offCols := rfl
@[simp] theorem State.setRegion_offRows (s : State) (h : BitVec 32) (x : Region) : (s.setRegion h x).offRows = s.offRows := rfl
@[simp] theorem State.setRegion_colCount (s : State) (h : BitVec 32) (x : Region) : (s.setRegion h x).colCount = s.colCount := rfl
@[simp] theorem State.setRegion_rowCount (s : State) (h : BitVec 32) (x : Region) : (s.setRegion h x).rowCount = s.rowCount := rfl
@[simp] theorem State.setRegion_gridVersion (s : State) (h : BitVec 32) (x : Region) : (s.setRegion h x).gridVersion = s.gridVersion := rfl
@[simp] theorem State.setRegion_retirements (s : State) (h : BitVec 32) (x : Region) : (s.setRegion h x).retirements = s.retirements := rfl
@[simp] theorem State.setRegion_retireCopies (s : State) (h : BitVec 32) (x : Region) : (s.setRegion h x).retireCopies = s.retireCopies := rfl
@[simp] theorem State.setRegion_mapGood (s : State) (h : BitVec 32) (x : Region) : (s.setRegion h x).mapGood = s.mapGood := rfl
@[simp] theorem State.setRegion_fusedMap (s : State) (h : BitVec 32) (x : Region) : (s.setRegion h x).fusedMap = s.fusedMap := rfl
@[simp] theorem State.setRegion_toRetire (s : State) (h : BitVec 32) (x : Region) : (s.setRegion h x).toRetire = s.toRetire := rfl
@[simp] theorem State.setRegion_retireFrozen (s : State) (h : BitVec 32) (x : Region) : (s.setRegion h x).retireFrozen = s.retireFrozen := rfl
@[simp] theorem State.setRegion_links (s : State) (h : BitVec 32) (x : Region) : (s.setRegion h x).links = s.links := rfl
@[simp] theorem State.setRegion_lightLast (s : State) (h : BitVec 32) (x : Region) : (s.setRegion h x).lightLast = s.lightLast := rfl
@[simp] theorem State.setRegion_freeStack (s : State) (h : BitVec 32) (x : Region) : (s.setRegion h x).freeStack = s.freeStack := rfl
@[simp] theorem State.setRegion_passEntries (s : State) (h : BitVec 32) (x : Region) : (s.setRegion h x).passEntries = s.passEntries := rfl
@[simp] theorem State.setRegion_flying (s : State) (h : BitVec 32) (x : Region) : (s.setRegion h x).flying = s.flying := rfl
@[simp] theorem State.setRegion_served (s : State) (h : BitVec 32) (x : Region) : (s.setRegion h x).served = s.served := rfl
@[simp] theorem State.setRegion_leftPorts (s : State) (h : BitVec 32) (x : Region) : (s.setRegion h x).leftPorts = s.leftPorts := rfl
@[simp] theorem State.setRegion_refused (s : State) (h : BitVec 32) (x : Region) : (s.setRegion h x).refused = s.refused := rfl
@[simp] theorem State.setRegion_leases (s : State) (h : BitVec 32) (x : Region) : (s.setRegion h x).leases = s.leases := rfl
@[simp] theorem State.setRegion_debugStatus (s : State) (h : BitVec 32) (x : Region) : (s.setRegion h x).debugStatus = s.debugStatus := rfl
@[simp] theorem State.setRegion_debugData (s : State) (h : BitVec 32) (x : Region) : (s.setRegion h x).debugData = s.debugData := rfl
@[simp] theorem State.setRegion_debugBreak (s : State) (h : BitVec 32) (x : Region) : (s.setRegion h x).debugBreak = s.debugBreak := rfl
@[simp] theorem State.setRegion_attest (s : State) (h : BitVec 32) (x : Region) : (s.setRegion h x).attest = s.attest := rfl
@[simp] theorem State.setRegion_attestState (s : State) (h : BitVec 32) (x : Region) : (s.setRegion h x).attestState = s.attestState := rfl
@[simp] theorem State.setRegion_attestAgain (s : State) (h : BitVec 32) (x : Region) : (s.setRegion h x).attestAgain = s.attestAgain := rfl
@[simp] theorem State.setRegion_attestDigest (s : State) (h : BitVec 32) (x : Region) : (s.setRegion h x).attestDigest = s.attestDigest := rfl
@[simp] theorem State.setRegion_posted (s : State) (h : BitVec 32) (x : Region) : (s.setRegion h x).posted = s.posted := rfl
@[simp] theorem State.setRegion_hostRead (s : State) (h : BitVec 32) (x : Region) : (s.setRegion h x).hostRead = s.hostRead := rfl
@[simp] theorem State.setRegion_flash (s : State) (h : BitVec 32) (x : Region) : (s.setRegion h x).flash = s.flash := rfl
@[simp] theorem State.setRegion_clockMHz (s : State) (h : BitVec 32) (x : Region) : (s.setRegion h x).clockMHz = s.clockMHz := rfl
@[simp] theorem State.setRegion_laneRetired (s : State) (h : BitVec 32) (x : Region) : (s.setRegion h x).laneRetired = s.laneRetired := rfl
@[simp] theorem State.setRegion_laneTransients (s : State) (h : BitVec 32) (x : Region) : (s.setRegion h x).laneTransients = s.laneTransients := rfl
@[simp] theorem State.setRegion_cur (s : State) (h : BitVec 32) (x : Region) : (s.setRegion h x).cur = s.cur := rfl
@[simp] theorem State.setRegion_agenda (s : State) (h : BitVec 32) (x : Region) : (s.setRegion h x).agenda = s.agenda := rfl
@[simp] theorem State.setRegion_evTurn (s : State) (h : BitVec 32) (x : Region) : (s.setRegion h x).evTurn = s.evTurn := rfl
@[simp] theorem State.setRegion_steps (s : State) (h : BitVec 32) (x : Region) : (s.setRegion h x).steps = s.steps := rfl

/-! ## State.setCluster -/

@[simp] theorem State.setCluster_mem (s : State) (n : Nat) (x : Cluster) : (s.setCluster n x).mem = s.mem := rfl
@[simp] theorem State.setCluster_hostMem (s : State) (n : Nat) (x : Cluster) : (s.setCluster n x).hostMem = s.hostMem := rfl
@[simp] theorem State.setCluster_uncorr (s : State) (n : Nat) (x : Cluster) : (s.setCluster n x).uncorr = s.uncorr := rfl
@[simp] theorem State.setCluster_correctable (s : State) (n : Nat) (x : Cluster) : (s.setCluster n x).correctable = s.correctable := rfl
@[simp] theorem State.setCluster_stackTransients (s : State) (n : Nat) (x : Cluster) : (s.setCluster n x).stackTransients = s.stackTransients := rfl
@[simp] theorem State.setCluster_tiles (s : State) (n : Nat) (x : Cluster) : (s.setCluster n x).tiles = s.tiles := rfl
@[simp] theorem State.setCluster_regions (s : State) (n : Nat) (x : Cluster) : (s.setCluster n x).regions = s.regions := rfl
@[simp] theorem State.setCluster_contexts (s : State) (n : Nat) (x : Cluster) : (s.setCluster n x).contexts = s.contexts := rfl
@[simp] theorem State.setCluster_registry (s : State) (n : Nat) (x : Cluster) : (s.setCluster n x).registry = s.registry := rfl
@[simp] theorem State.setCluster_frames (s : State) (n : Nat) (x : Cluster) : (s.setCluster n x).frames = s.frames := rfl
@[simp] theorem State.setCluster_pendingShoot (s : State) (n : Nat) (x : Cluster) : (s.setCluster n x).pendingShoot = s.pendingShoot := rfl
@[simp] theorem State.setCluster_shoots (s : State) (n : Nat) (x : Cluster) : (s.setCluster n x).shoots = s.shoots := rfl
@[simp] theorem State.setCluster_nextShoot (s : State) (n : Nat) (x : Cluster) : (s.setCluster n x).nextShoot = s.nextShoot := rfl
@[simp] theorem State.setCluster_dist (s : State) (n : Nat) (x : Cluster) : (s.setCluster n x).dist = s.dist := rfl
@[simp] theorem State.setCluster_hostRegs (s : State) (n : Nat) (x : Cluster) : (s.setCluster n x).hostRegs = s.hostRegs := rfl
@[simp] theorem State.setCluster_eqTail (s : State) (n : Nat) (x : Cluster) : (s.setCluster n x).eqTail = s.eqTail := rfl
@[simp] theorem State.setCluster_fqTail (s : State) (n : Nat) (x : Cluster) : (s.setCluster n x).fqTail = s.fqTail := rfl
@[simp] theorem State.setCluster_events (s : State) (n : Nat) (x : Cluster) : (s.setCluster n x).events = s.events := rfl
@[simp] theorem State.setCluster_time (s : State) (n : Nat) (x : Cluster) : (s.setCluster n x).time = s.time := rfl
@[simp] theorem State.setCluster_powered (s : State) (n : Nat) (x : Cluster) : (s.setCluster n x).powered = s.powered := rfl
@[simp] theorem State.setCluster_bootstat (s : State) (n : Nat) (x : Cluster) : (s.setCluster n x).bootstat = s.bootstat := rfl
@[simp] theorem State.setCluster_surplus (s : State) (n : Nat) (x : Cluster) : (s.setCluster n x).surplus = s.surplus := rfl
@[simp] theorem State.setCluster_moduleNumber (s : State) (n : Nat) (x : Cluster) : (s.setCluster n x).moduleNumber = s.moduleNumber := rfl
@[simp] theorem State.setCluster_fabricAddr (s : State) (n : Nat) (x : Cluster) : (s.setCluster n x).fabricAddr = s.fabricAddr := rfl
@[simp] theorem State.setCluster_domain (s : State) (n : Nat) (x : Cluster) : (s.setCluster n x).domain = s.domain := rfl
@[simp] theorem State.setCluster_unreachable (s : State) (n : Nat) (x : Cluster) : (s.setCluster n x).unreachable = s.unreachable := rfl
@[simp] theorem State.setCluster_measure (s : State) (n : Nat) (x : Cluster) : (s.setCluster n x).measure = s.measure := rfl
@[simp] theorem State.setCluster_offered (s : State) (n : Nat) (x : Cluster) : (s.setCluster n x).offered = s.offered := rfl
@[simp] theorem State.setCluster_accepted (s : State) (n : Nat) (x : Cluster) : (s.setCluster n x).accepted = s.accepted := rfl
@[simp] theorem State.setCluster_acceptWritten (s : State) (n : Nat) (x : Cluster) : (s.setCluster n x).acceptWritten = s.acceptWritten := rfl
@[simp] theorem State.setCluster_ktopo (s : State) (n : Nat) (x : Cluster) : (s.setCluster n x).ktopo = s.ktopo := rfl
@[simp] theorem State.setCluster_shadowRemoved (s : State) (n : Nat) (x : Cluster) : (s.setCluster n x).shadowRemoved = s.shadowRemoved := rfl
@[simp] theorem State.setCluster_topoRoutes (s : State) (n : Nat) (x : Cluster) : (s.setCluster n x).topoRoutes = s.topoRoutes := rfl
@[simp] theorem State.setCluster_shadowRoutes (s : State) (n : Nat) (x : Cluster) : (s.setCluster n x).shadowRoutes = s.shadowRoutes := rfl
@[simp] theorem State.setCluster_lateAns (s : State) (n : Nat) (x : Cluster) : (s.setCluster n x).lateAns = s.lateAns := rfl
@[simp] theorem State.setCluster_defects (s : State) (n : Nat) (x : Cluster) : (s.setCluster n x).defects = s.defects := rfl
@[simp] theorem State.setCluster_offCols (s : State) (n : Nat) (x : Cluster) : (s.setCluster n x).offCols = s.offCols := rfl
@[simp] theorem State.setCluster_offRows (s : State) (n : Nat) (x : Cluster) : (s.setCluster n x).offRows = s.offRows := rfl
@[simp] theorem State.setCluster_colCount (s : State) (n : Nat) (x : Cluster) : (s.setCluster n x).colCount = s.colCount := rfl
@[simp] theorem State.setCluster_rowCount (s : State) (n : Nat) (x : Cluster) : (s.setCluster n x).rowCount = s.rowCount := rfl
@[simp] theorem State.setCluster_gridVersion (s : State) (n : Nat) (x : Cluster) : (s.setCluster n x).gridVersion = s.gridVersion := rfl
@[simp] theorem State.setCluster_retirements (s : State) (n : Nat) (x : Cluster) : (s.setCluster n x).retirements = s.retirements := rfl
@[simp] theorem State.setCluster_retireCopies (s : State) (n : Nat) (x : Cluster) : (s.setCluster n x).retireCopies = s.retireCopies := rfl
@[simp] theorem State.setCluster_mapGood (s : State) (n : Nat) (x : Cluster) : (s.setCluster n x).mapGood = s.mapGood := rfl
@[simp] theorem State.setCluster_fusedMap (s : State) (n : Nat) (x : Cluster) : (s.setCluster n x).fusedMap = s.fusedMap := rfl
@[simp] theorem State.setCluster_toRetire (s : State) (n : Nat) (x : Cluster) : (s.setCluster n x).toRetire = s.toRetire := rfl
@[simp] theorem State.setCluster_retireFrozen (s : State) (n : Nat) (x : Cluster) : (s.setCluster n x).retireFrozen = s.retireFrozen := rfl
@[simp] theorem State.setCluster_links (s : State) (n : Nat) (x : Cluster) : (s.setCluster n x).links = s.links := rfl
@[simp] theorem State.setCluster_lightLast (s : State) (n : Nat) (x : Cluster) : (s.setCluster n x).lightLast = s.lightLast := rfl
@[simp] theorem State.setCluster_freeStack (s : State) (n : Nat) (x : Cluster) : (s.setCluster n x).freeStack = s.freeStack := rfl
@[simp] theorem State.setCluster_passEntries (s : State) (n : Nat) (x : Cluster) : (s.setCluster n x).passEntries = s.passEntries := rfl
@[simp] theorem State.setCluster_flying (s : State) (n : Nat) (x : Cluster) : (s.setCluster n x).flying = s.flying := rfl
@[simp] theorem State.setCluster_served (s : State) (n : Nat) (x : Cluster) : (s.setCluster n x).served = s.served := rfl
@[simp] theorem State.setCluster_leftPorts (s : State) (n : Nat) (x : Cluster) : (s.setCluster n x).leftPorts = s.leftPorts := rfl
@[simp] theorem State.setCluster_refused (s : State) (n : Nat) (x : Cluster) : (s.setCluster n x).refused = s.refused := rfl
@[simp] theorem State.setCluster_leases (s : State) (n : Nat) (x : Cluster) : (s.setCluster n x).leases = s.leases := rfl
@[simp] theorem State.setCluster_debugStatus (s : State) (n : Nat) (x : Cluster) : (s.setCluster n x).debugStatus = s.debugStatus := rfl
@[simp] theorem State.setCluster_debugData (s : State) (n : Nat) (x : Cluster) : (s.setCluster n x).debugData = s.debugData := rfl
@[simp] theorem State.setCluster_debugBreak (s : State) (n : Nat) (x : Cluster) : (s.setCluster n x).debugBreak = s.debugBreak := rfl
@[simp] theorem State.setCluster_attest (s : State) (n : Nat) (x : Cluster) : (s.setCluster n x).attest = s.attest := rfl
@[simp] theorem State.setCluster_attestState (s : State) (n : Nat) (x : Cluster) : (s.setCluster n x).attestState = s.attestState := rfl
@[simp] theorem State.setCluster_attestAgain (s : State) (n : Nat) (x : Cluster) : (s.setCluster n x).attestAgain = s.attestAgain := rfl
@[simp] theorem State.setCluster_attestDigest (s : State) (n : Nat) (x : Cluster) : (s.setCluster n x).attestDigest = s.attestDigest := rfl
@[simp] theorem State.setCluster_posted (s : State) (n : Nat) (x : Cluster) : (s.setCluster n x).posted = s.posted := rfl
@[simp] theorem State.setCluster_hostRead (s : State) (n : Nat) (x : Cluster) : (s.setCluster n x).hostRead = s.hostRead := rfl
@[simp] theorem State.setCluster_flash (s : State) (n : Nat) (x : Cluster) : (s.setCluster n x).flash = s.flash := rfl
@[simp] theorem State.setCluster_clockMHz (s : State) (n : Nat) (x : Cluster) : (s.setCluster n x).clockMHz = s.clockMHz := rfl
@[simp] theorem State.setCluster_laneRetired (s : State) (n : Nat) (x : Cluster) : (s.setCluster n x).laneRetired = s.laneRetired := rfl
@[simp] theorem State.setCluster_laneTransients (s : State) (n : Nat) (x : Cluster) : (s.setCluster n x).laneTransients = s.laneTransients := rfl
@[simp] theorem State.setCluster_cur (s : State) (n : Nat) (x : Cluster) : (s.setCluster n x).cur = s.cur := rfl
@[simp] theorem State.setCluster_agenda (s : State) (n : Nat) (x : Cluster) : (s.setCluster n x).agenda = s.agenda := rfl
@[simp] theorem State.setCluster_evTurn (s : State) (n : Nat) (x : Cluster) : (s.setCluster n x).evTurn = s.evTurn := rfl
@[simp] theorem State.setCluster_steps (s : State) (n : Nat) (x : Cluster) : (s.setCluster n x).steps = s.steps := rfl

/-! ## State.setContext -/

@[simp] theorem State.setContext_mem (s : State) (c : BitVec 16) (x : Context) : (s.setContext c x).mem = s.mem := rfl
@[simp] theorem State.setContext_hostMem (s : State) (c : BitVec 16) (x : Context) : (s.setContext c x).hostMem = s.hostMem := rfl
@[simp] theorem State.setContext_uncorr (s : State) (c : BitVec 16) (x : Context) : (s.setContext c x).uncorr = s.uncorr := rfl
@[simp] theorem State.setContext_correctable (s : State) (c : BitVec 16) (x : Context) : (s.setContext c x).correctable = s.correctable := rfl
@[simp] theorem State.setContext_stackTransients (s : State) (c : BitVec 16) (x : Context) : (s.setContext c x).stackTransients = s.stackTransients := rfl
@[simp] theorem State.setContext_tiles (s : State) (c : BitVec 16) (x : Context) : (s.setContext c x).tiles = s.tiles := rfl
@[simp] theorem State.setContext_regions (s : State) (c : BitVec 16) (x : Context) : (s.setContext c x).regions = s.regions := rfl
@[simp] theorem State.setContext_clusters (s : State) (c : BitVec 16) (x : Context) : (s.setContext c x).clusters = s.clusters := rfl
@[simp] theorem State.setContext_registry (s : State) (c : BitVec 16) (x : Context) : (s.setContext c x).registry = s.registry := rfl
@[simp] theorem State.setContext_frames (s : State) (c : BitVec 16) (x : Context) : (s.setContext c x).frames = s.frames := rfl
@[simp] theorem State.setContext_pendingShoot (s : State) (c : BitVec 16) (x : Context) : (s.setContext c x).pendingShoot = s.pendingShoot := rfl
@[simp] theorem State.setContext_shoots (s : State) (c : BitVec 16) (x : Context) : (s.setContext c x).shoots = s.shoots := rfl
@[simp] theorem State.setContext_nextShoot (s : State) (c : BitVec 16) (x : Context) : (s.setContext c x).nextShoot = s.nextShoot := rfl
@[simp] theorem State.setContext_dist (s : State) (c : BitVec 16) (x : Context) : (s.setContext c x).dist = s.dist := rfl
@[simp] theorem State.setContext_hostRegs (s : State) (c : BitVec 16) (x : Context) : (s.setContext c x).hostRegs = s.hostRegs := rfl
@[simp] theorem State.setContext_eqTail (s : State) (c : BitVec 16) (x : Context) : (s.setContext c x).eqTail = s.eqTail := rfl
@[simp] theorem State.setContext_fqTail (s : State) (c : BitVec 16) (x : Context) : (s.setContext c x).fqTail = s.fqTail := rfl
@[simp] theorem State.setContext_events (s : State) (c : BitVec 16) (x : Context) : (s.setContext c x).events = s.events := rfl
@[simp] theorem State.setContext_time (s : State) (c : BitVec 16) (x : Context) : (s.setContext c x).time = s.time := rfl
@[simp] theorem State.setContext_powered (s : State) (c : BitVec 16) (x : Context) : (s.setContext c x).powered = s.powered := rfl
@[simp] theorem State.setContext_bootstat (s : State) (c : BitVec 16) (x : Context) : (s.setContext c x).bootstat = s.bootstat := rfl
@[simp] theorem State.setContext_surplus (s : State) (c : BitVec 16) (x : Context) : (s.setContext c x).surplus = s.surplus := rfl
@[simp] theorem State.setContext_moduleNumber (s : State) (c : BitVec 16) (x : Context) : (s.setContext c x).moduleNumber = s.moduleNumber := rfl
@[simp] theorem State.setContext_fabricAddr (s : State) (c : BitVec 16) (x : Context) : (s.setContext c x).fabricAddr = s.fabricAddr := rfl
@[simp] theorem State.setContext_domain (s : State) (c : BitVec 16) (x : Context) : (s.setContext c x).domain = s.domain := rfl
@[simp] theorem State.setContext_unreachable (s : State) (c : BitVec 16) (x : Context) : (s.setContext c x).unreachable = s.unreachable := rfl
@[simp] theorem State.setContext_measure (s : State) (c : BitVec 16) (x : Context) : (s.setContext c x).measure = s.measure := rfl
@[simp] theorem State.setContext_offered (s : State) (c : BitVec 16) (x : Context) : (s.setContext c x).offered = s.offered := rfl
@[simp] theorem State.setContext_accepted (s : State) (c : BitVec 16) (x : Context) : (s.setContext c x).accepted = s.accepted := rfl
@[simp] theorem State.setContext_acceptWritten (s : State) (c : BitVec 16) (x : Context) : (s.setContext c x).acceptWritten = s.acceptWritten := rfl
@[simp] theorem State.setContext_ktopo (s : State) (c : BitVec 16) (x : Context) : (s.setContext c x).ktopo = s.ktopo := rfl
@[simp] theorem State.setContext_shadowRemoved (s : State) (c : BitVec 16) (x : Context) : (s.setContext c x).shadowRemoved = s.shadowRemoved := rfl
@[simp] theorem State.setContext_topoRoutes (s : State) (c : BitVec 16) (x : Context) : (s.setContext c x).topoRoutes = s.topoRoutes := rfl
@[simp] theorem State.setContext_shadowRoutes (s : State) (c : BitVec 16) (x : Context) : (s.setContext c x).shadowRoutes = s.shadowRoutes := rfl
@[simp] theorem State.setContext_lateAns (s : State) (c : BitVec 16) (x : Context) : (s.setContext c x).lateAns = s.lateAns := rfl
@[simp] theorem State.setContext_defects (s : State) (c : BitVec 16) (x : Context) : (s.setContext c x).defects = s.defects := rfl
@[simp] theorem State.setContext_offCols (s : State) (c : BitVec 16) (x : Context) : (s.setContext c x).offCols = s.offCols := rfl
@[simp] theorem State.setContext_offRows (s : State) (c : BitVec 16) (x : Context) : (s.setContext c x).offRows = s.offRows := rfl
@[simp] theorem State.setContext_colCount (s : State) (c : BitVec 16) (x : Context) : (s.setContext c x).colCount = s.colCount := rfl
@[simp] theorem State.setContext_rowCount (s : State) (c : BitVec 16) (x : Context) : (s.setContext c x).rowCount = s.rowCount := rfl
@[simp] theorem State.setContext_gridVersion (s : State) (c : BitVec 16) (x : Context) : (s.setContext c x).gridVersion = s.gridVersion := rfl
@[simp] theorem State.setContext_retirements (s : State) (c : BitVec 16) (x : Context) : (s.setContext c x).retirements = s.retirements := rfl
@[simp] theorem State.setContext_retireCopies (s : State) (c : BitVec 16) (x : Context) : (s.setContext c x).retireCopies = s.retireCopies := rfl
@[simp] theorem State.setContext_mapGood (s : State) (c : BitVec 16) (x : Context) : (s.setContext c x).mapGood = s.mapGood := rfl
@[simp] theorem State.setContext_fusedMap (s : State) (c : BitVec 16) (x : Context) : (s.setContext c x).fusedMap = s.fusedMap := rfl
@[simp] theorem State.setContext_toRetire (s : State) (c : BitVec 16) (x : Context) : (s.setContext c x).toRetire = s.toRetire := rfl
@[simp] theorem State.setContext_retireFrozen (s : State) (c : BitVec 16) (x : Context) : (s.setContext c x).retireFrozen = s.retireFrozen := rfl
@[simp] theorem State.setContext_links (s : State) (c : BitVec 16) (x : Context) : (s.setContext c x).links = s.links := rfl
@[simp] theorem State.setContext_lightLast (s : State) (c : BitVec 16) (x : Context) : (s.setContext c x).lightLast = s.lightLast := rfl
@[simp] theorem State.setContext_freeStack (s : State) (c : BitVec 16) (x : Context) : (s.setContext c x).freeStack = s.freeStack := rfl
@[simp] theorem State.setContext_passEntries (s : State) (c : BitVec 16) (x : Context) : (s.setContext c x).passEntries = s.passEntries := rfl
@[simp] theorem State.setContext_flying (s : State) (c : BitVec 16) (x : Context) : (s.setContext c x).flying = s.flying := rfl
@[simp] theorem State.setContext_served (s : State) (c : BitVec 16) (x : Context) : (s.setContext c x).served = s.served := rfl
@[simp] theorem State.setContext_leftPorts (s : State) (c : BitVec 16) (x : Context) : (s.setContext c x).leftPorts = s.leftPorts := rfl
@[simp] theorem State.setContext_refused (s : State) (c : BitVec 16) (x : Context) : (s.setContext c x).refused = s.refused := rfl
@[simp] theorem State.setContext_leases (s : State) (c : BitVec 16) (x : Context) : (s.setContext c x).leases = s.leases := rfl
@[simp] theorem State.setContext_debugStatus (s : State) (c : BitVec 16) (x : Context) : (s.setContext c x).debugStatus = s.debugStatus := rfl
@[simp] theorem State.setContext_debugData (s : State) (c : BitVec 16) (x : Context) : (s.setContext c x).debugData = s.debugData := rfl
@[simp] theorem State.setContext_debugBreak (s : State) (c : BitVec 16) (x : Context) : (s.setContext c x).debugBreak = s.debugBreak := rfl
@[simp] theorem State.setContext_attest (s : State) (c : BitVec 16) (x : Context) : (s.setContext c x).attest = s.attest := rfl
@[simp] theorem State.setContext_attestState (s : State) (c : BitVec 16) (x : Context) : (s.setContext c x).attestState = s.attestState := rfl
@[simp] theorem State.setContext_attestAgain (s : State) (c : BitVec 16) (x : Context) : (s.setContext c x).attestAgain = s.attestAgain := rfl
@[simp] theorem State.setContext_attestDigest (s : State) (c : BitVec 16) (x : Context) : (s.setContext c x).attestDigest = s.attestDigest := rfl
@[simp] theorem State.setContext_posted (s : State) (c : BitVec 16) (x : Context) : (s.setContext c x).posted = s.posted := rfl
@[simp] theorem State.setContext_hostRead (s : State) (c : BitVec 16) (x : Context) : (s.setContext c x).hostRead = s.hostRead := rfl
@[simp] theorem State.setContext_flash (s : State) (c : BitVec 16) (x : Context) : (s.setContext c x).flash = s.flash := rfl
@[simp] theorem State.setContext_clockMHz (s : State) (c : BitVec 16) (x : Context) : (s.setContext c x).clockMHz = s.clockMHz := rfl
@[simp] theorem State.setContext_laneRetired (s : State) (c : BitVec 16) (x : Context) : (s.setContext c x).laneRetired = s.laneRetired := rfl
@[simp] theorem State.setContext_laneTransients (s : State) (c : BitVec 16) (x : Context) : (s.setContext c x).laneTransients = s.laneTransients := rfl
@[simp] theorem State.setContext_cur (s : State) (c : BitVec 16) (x : Context) : (s.setContext c x).cur = s.cur := rfl
@[simp] theorem State.setContext_agenda (s : State) (c : BitVec 16) (x : Context) : (s.setContext c x).agenda = s.agenda := rfl
@[simp] theorem State.setContext_evTurn (s : State) (c : BitVec 16) (x : Context) : (s.setContext c x).evTurn = s.evTurn := rfl
@[simp] theorem State.setContext_steps (s : State) (c : BitVec 16) (x : Context) : (s.setContext c x).steps = s.steps := rfl

/-! ## State.setWeights -/

@[simp] theorem State.setWeights_mem (s : State) (n : Nat) (x : WeightSet) : (s.setWeights n x).mem = s.mem := rfl
@[simp] theorem State.setWeights_hostMem (s : State) (n : Nat) (x : WeightSet) : (s.setWeights n x).hostMem = s.hostMem := rfl
@[simp] theorem State.setWeights_uncorr (s : State) (n : Nat) (x : WeightSet) : (s.setWeights n x).uncorr = s.uncorr := rfl
@[simp] theorem State.setWeights_correctable (s : State) (n : Nat) (x : WeightSet) : (s.setWeights n x).correctable = s.correctable := rfl
@[simp] theorem State.setWeights_stackTransients (s : State) (n : Nat) (x : WeightSet) : (s.setWeights n x).stackTransients = s.stackTransients := rfl
@[simp] theorem State.setWeights_tiles (s : State) (n : Nat) (x : WeightSet) : (s.setWeights n x).tiles = s.tiles := rfl
@[simp] theorem State.setWeights_regions (s : State) (n : Nat) (x : WeightSet) : (s.setWeights n x).regions = s.regions := rfl
@[simp] theorem State.setWeights_clusters (s : State) (n : Nat) (x : WeightSet) : (s.setWeights n x).clusters = s.clusters := rfl
@[simp] theorem State.setWeights_contexts (s : State) (n : Nat) (x : WeightSet) : (s.setWeights n x).contexts = s.contexts := rfl
@[simp] theorem State.setWeights_frames (s : State) (n : Nat) (x : WeightSet) : (s.setWeights n x).frames = s.frames := rfl
@[simp] theorem State.setWeights_pendingShoot (s : State) (n : Nat) (x : WeightSet) : (s.setWeights n x).pendingShoot = s.pendingShoot := rfl
@[simp] theorem State.setWeights_shoots (s : State) (n : Nat) (x : WeightSet) : (s.setWeights n x).shoots = s.shoots := rfl
@[simp] theorem State.setWeights_nextShoot (s : State) (n : Nat) (x : WeightSet) : (s.setWeights n x).nextShoot = s.nextShoot := rfl
@[simp] theorem State.setWeights_dist (s : State) (n : Nat) (x : WeightSet) : (s.setWeights n x).dist = s.dist := rfl
@[simp] theorem State.setWeights_hostRegs (s : State) (n : Nat) (x : WeightSet) : (s.setWeights n x).hostRegs = s.hostRegs := rfl
@[simp] theorem State.setWeights_eqTail (s : State) (n : Nat) (x : WeightSet) : (s.setWeights n x).eqTail = s.eqTail := rfl
@[simp] theorem State.setWeights_fqTail (s : State) (n : Nat) (x : WeightSet) : (s.setWeights n x).fqTail = s.fqTail := rfl
@[simp] theorem State.setWeights_events (s : State) (n : Nat) (x : WeightSet) : (s.setWeights n x).events = s.events := rfl
@[simp] theorem State.setWeights_time (s : State) (n : Nat) (x : WeightSet) : (s.setWeights n x).time = s.time := rfl
@[simp] theorem State.setWeights_powered (s : State) (n : Nat) (x : WeightSet) : (s.setWeights n x).powered = s.powered := rfl
@[simp] theorem State.setWeights_bootstat (s : State) (n : Nat) (x : WeightSet) : (s.setWeights n x).bootstat = s.bootstat := rfl
@[simp] theorem State.setWeights_surplus (s : State) (n : Nat) (x : WeightSet) : (s.setWeights n x).surplus = s.surplus := rfl
@[simp] theorem State.setWeights_moduleNumber (s : State) (n : Nat) (x : WeightSet) : (s.setWeights n x).moduleNumber = s.moduleNumber := rfl
@[simp] theorem State.setWeights_fabricAddr (s : State) (n : Nat) (x : WeightSet) : (s.setWeights n x).fabricAddr = s.fabricAddr := rfl
@[simp] theorem State.setWeights_domain (s : State) (n : Nat) (x : WeightSet) : (s.setWeights n x).domain = s.domain := rfl
@[simp] theorem State.setWeights_unreachable (s : State) (n : Nat) (x : WeightSet) : (s.setWeights n x).unreachable = s.unreachable := rfl
@[simp] theorem State.setWeights_measure (s : State) (n : Nat) (x : WeightSet) : (s.setWeights n x).measure = s.measure := rfl
@[simp] theorem State.setWeights_offered (s : State) (n : Nat) (x : WeightSet) : (s.setWeights n x).offered = s.offered := rfl
@[simp] theorem State.setWeights_accepted (s : State) (n : Nat) (x : WeightSet) : (s.setWeights n x).accepted = s.accepted := rfl
@[simp] theorem State.setWeights_acceptWritten (s : State) (n : Nat) (x : WeightSet) : (s.setWeights n x).acceptWritten = s.acceptWritten := rfl
@[simp] theorem State.setWeights_ktopo (s : State) (n : Nat) (x : WeightSet) : (s.setWeights n x).ktopo = s.ktopo := rfl
@[simp] theorem State.setWeights_shadowRemoved (s : State) (n : Nat) (x : WeightSet) : (s.setWeights n x).shadowRemoved = s.shadowRemoved := rfl
@[simp] theorem State.setWeights_topoRoutes (s : State) (n : Nat) (x : WeightSet) : (s.setWeights n x).topoRoutes = s.topoRoutes := rfl
@[simp] theorem State.setWeights_shadowRoutes (s : State) (n : Nat) (x : WeightSet) : (s.setWeights n x).shadowRoutes = s.shadowRoutes := rfl
@[simp] theorem State.setWeights_lateAns (s : State) (n : Nat) (x : WeightSet) : (s.setWeights n x).lateAns = s.lateAns := rfl
@[simp] theorem State.setWeights_defects (s : State) (n : Nat) (x : WeightSet) : (s.setWeights n x).defects = s.defects := rfl
@[simp] theorem State.setWeights_offCols (s : State) (n : Nat) (x : WeightSet) : (s.setWeights n x).offCols = s.offCols := rfl
@[simp] theorem State.setWeights_offRows (s : State) (n : Nat) (x : WeightSet) : (s.setWeights n x).offRows = s.offRows := rfl
@[simp] theorem State.setWeights_colCount (s : State) (n : Nat) (x : WeightSet) : (s.setWeights n x).colCount = s.colCount := rfl
@[simp] theorem State.setWeights_rowCount (s : State) (n : Nat) (x : WeightSet) : (s.setWeights n x).rowCount = s.rowCount := rfl
@[simp] theorem State.setWeights_gridVersion (s : State) (n : Nat) (x : WeightSet) : (s.setWeights n x).gridVersion = s.gridVersion := rfl
@[simp] theorem State.setWeights_retirements (s : State) (n : Nat) (x : WeightSet) : (s.setWeights n x).retirements = s.retirements := rfl
@[simp] theorem State.setWeights_retireCopies (s : State) (n : Nat) (x : WeightSet) : (s.setWeights n x).retireCopies = s.retireCopies := rfl
@[simp] theorem State.setWeights_mapGood (s : State) (n : Nat) (x : WeightSet) : (s.setWeights n x).mapGood = s.mapGood := rfl
@[simp] theorem State.setWeights_fusedMap (s : State) (n : Nat) (x : WeightSet) : (s.setWeights n x).fusedMap = s.fusedMap := rfl
@[simp] theorem State.setWeights_toRetire (s : State) (n : Nat) (x : WeightSet) : (s.setWeights n x).toRetire = s.toRetire := rfl
@[simp] theorem State.setWeights_retireFrozen (s : State) (n : Nat) (x : WeightSet) : (s.setWeights n x).retireFrozen = s.retireFrozen := rfl
@[simp] theorem State.setWeights_links (s : State) (n : Nat) (x : WeightSet) : (s.setWeights n x).links = s.links := rfl
@[simp] theorem State.setWeights_lightLast (s : State) (n : Nat) (x : WeightSet) : (s.setWeights n x).lightLast = s.lightLast := rfl
@[simp] theorem State.setWeights_freeStack (s : State) (n : Nat) (x : WeightSet) : (s.setWeights n x).freeStack = s.freeStack := rfl
@[simp] theorem State.setWeights_passEntries (s : State) (n : Nat) (x : WeightSet) : (s.setWeights n x).passEntries = s.passEntries := rfl
@[simp] theorem State.setWeights_flying (s : State) (n : Nat) (x : WeightSet) : (s.setWeights n x).flying = s.flying := rfl
@[simp] theorem State.setWeights_served (s : State) (n : Nat) (x : WeightSet) : (s.setWeights n x).served = s.served := rfl
@[simp] theorem State.setWeights_leftPorts (s : State) (n : Nat) (x : WeightSet) : (s.setWeights n x).leftPorts = s.leftPorts := rfl
@[simp] theorem State.setWeights_refused (s : State) (n : Nat) (x : WeightSet) : (s.setWeights n x).refused = s.refused := rfl
@[simp] theorem State.setWeights_leases (s : State) (n : Nat) (x : WeightSet) : (s.setWeights n x).leases = s.leases := rfl
@[simp] theorem State.setWeights_debugStatus (s : State) (n : Nat) (x : WeightSet) : (s.setWeights n x).debugStatus = s.debugStatus := rfl
@[simp] theorem State.setWeights_debugData (s : State) (n : Nat) (x : WeightSet) : (s.setWeights n x).debugData = s.debugData := rfl
@[simp] theorem State.setWeights_debugBreak (s : State) (n : Nat) (x : WeightSet) : (s.setWeights n x).debugBreak = s.debugBreak := rfl
@[simp] theorem State.setWeights_attest (s : State) (n : Nat) (x : WeightSet) : (s.setWeights n x).attest = s.attest := rfl
@[simp] theorem State.setWeights_attestState (s : State) (n : Nat) (x : WeightSet) : (s.setWeights n x).attestState = s.attestState := rfl
@[simp] theorem State.setWeights_attestAgain (s : State) (n : Nat) (x : WeightSet) : (s.setWeights n x).attestAgain = s.attestAgain := rfl
@[simp] theorem State.setWeights_attestDigest (s : State) (n : Nat) (x : WeightSet) : (s.setWeights n x).attestDigest = s.attestDigest := rfl
@[simp] theorem State.setWeights_posted (s : State) (n : Nat) (x : WeightSet) : (s.setWeights n x).posted = s.posted := rfl
@[simp] theorem State.setWeights_hostRead (s : State) (n : Nat) (x : WeightSet) : (s.setWeights n x).hostRead = s.hostRead := rfl
@[simp] theorem State.setWeights_flash (s : State) (n : Nat) (x : WeightSet) : (s.setWeights n x).flash = s.flash := rfl
@[simp] theorem State.setWeights_clockMHz (s : State) (n : Nat) (x : WeightSet) : (s.setWeights n x).clockMHz = s.clockMHz := rfl
@[simp] theorem State.setWeights_laneRetired (s : State) (n : Nat) (x : WeightSet) : (s.setWeights n x).laneRetired = s.laneRetired := rfl
@[simp] theorem State.setWeights_laneTransients (s : State) (n : Nat) (x : WeightSet) : (s.setWeights n x).laneTransients = s.laneTransients := rfl
@[simp] theorem State.setWeights_cur (s : State) (n : Nat) (x : WeightSet) : (s.setWeights n x).cur = s.cur := rfl
@[simp] theorem State.setWeights_agenda (s : State) (n : Nat) (x : WeightSet) : (s.setWeights n x).agenda = s.agenda := rfl
@[simp] theorem State.setWeights_evTurn (s : State) (n : Nat) (x : WeightSet) : (s.setWeights n x).evTurn = s.evTurn := rfl
@[simp] theorem State.setWeights_steps (s : State) (n : Nat) (x : WeightSet) : (s.setWeights n x).steps = s.steps := rfl

/-! ## State.push -/

@[simp] theorem State.push_mem (s : State) (e : Instr) : (s.push e).mem = s.mem := rfl
@[simp] theorem State.push_hostMem (s : State) (e : Instr) : (s.push e).hostMem = s.hostMem := rfl
@[simp] theorem State.push_uncorr (s : State) (e : Instr) : (s.push e).uncorr = s.uncorr := rfl
@[simp] theorem State.push_correctable (s : State) (e : Instr) : (s.push e).correctable = s.correctable := rfl
@[simp] theorem State.push_stackTransients (s : State) (e : Instr) : (s.push e).stackTransients = s.stackTransients := rfl
@[simp] theorem State.push_tiles (s : State) (e : Instr) : (s.push e).tiles = s.tiles := rfl
@[simp] theorem State.push_regions (s : State) (e : Instr) : (s.push e).regions = s.regions := rfl
@[simp] theorem State.push_clusters (s : State) (e : Instr) : (s.push e).clusters = s.clusters := rfl
@[simp] theorem State.push_contexts (s : State) (e : Instr) : (s.push e).contexts = s.contexts := rfl
@[simp] theorem State.push_registry (s : State) (e : Instr) : (s.push e).registry = s.registry := rfl
@[simp] theorem State.push_frames (s : State) (e : Instr) : (s.push e).frames = s.frames := rfl
@[simp] theorem State.push_pendingShoot (s : State) (e : Instr) : (s.push e).pendingShoot = s.pendingShoot := rfl
@[simp] theorem State.push_shoots (s : State) (e : Instr) : (s.push e).shoots = s.shoots := rfl
@[simp] theorem State.push_nextShoot (s : State) (e : Instr) : (s.push e).nextShoot = s.nextShoot := rfl
@[simp] theorem State.push_dist (s : State) (e : Instr) : (s.push e).dist = s.dist := rfl
@[simp] theorem State.push_hostRegs (s : State) (e : Instr) : (s.push e).hostRegs = s.hostRegs := rfl
@[simp] theorem State.push_eqTail (s : State) (e : Instr) : (s.push e).eqTail = s.eqTail := rfl
@[simp] theorem State.push_fqTail (s : State) (e : Instr) : (s.push e).fqTail = s.fqTail := rfl
@[simp] theorem State.push_events (s : State) (e : Instr) : (s.push e).events = s.events := rfl
@[simp] theorem State.push_time (s : State) (e : Instr) : (s.push e).time = s.time := rfl
@[simp] theorem State.push_powered (s : State) (e : Instr) : (s.push e).powered = s.powered := rfl
@[simp] theorem State.push_bootstat (s : State) (e : Instr) : (s.push e).bootstat = s.bootstat := rfl
@[simp] theorem State.push_surplus (s : State) (e : Instr) : (s.push e).surplus = s.surplus := rfl
@[simp] theorem State.push_moduleNumber (s : State) (e : Instr) : (s.push e).moduleNumber = s.moduleNumber := rfl
@[simp] theorem State.push_fabricAddr (s : State) (e : Instr) : (s.push e).fabricAddr = s.fabricAddr := rfl
@[simp] theorem State.push_domain (s : State) (e : Instr) : (s.push e).domain = s.domain := rfl
@[simp] theorem State.push_unreachable (s : State) (e : Instr) : (s.push e).unreachable = s.unreachable := rfl
@[simp] theorem State.push_measure (s : State) (e : Instr) : (s.push e).measure = s.measure := rfl
@[simp] theorem State.push_offered (s : State) (e : Instr) : (s.push e).offered = s.offered := rfl
@[simp] theorem State.push_accepted (s : State) (e : Instr) : (s.push e).accepted = s.accepted := rfl
@[simp] theorem State.push_acceptWritten (s : State) (e : Instr) : (s.push e).acceptWritten = s.acceptWritten := rfl
@[simp] theorem State.push_ktopo (s : State) (e : Instr) : (s.push e).ktopo = s.ktopo := rfl
@[simp] theorem State.push_shadowRemoved (s : State) (e : Instr) : (s.push e).shadowRemoved = s.shadowRemoved := rfl
@[simp] theorem State.push_topoRoutes (s : State) (e : Instr) : (s.push e).topoRoutes = s.topoRoutes := rfl
@[simp] theorem State.push_shadowRoutes (s : State) (e : Instr) : (s.push e).shadowRoutes = s.shadowRoutes := rfl
@[simp] theorem State.push_lateAns (s : State) (e : Instr) : (s.push e).lateAns = s.lateAns := rfl
@[simp] theorem State.push_defects (s : State) (e : Instr) : (s.push e).defects = s.defects := rfl
@[simp] theorem State.push_offCols (s : State) (e : Instr) : (s.push e).offCols = s.offCols := rfl
@[simp] theorem State.push_offRows (s : State) (e : Instr) : (s.push e).offRows = s.offRows := rfl
@[simp] theorem State.push_colCount (s : State) (e : Instr) : (s.push e).colCount = s.colCount := rfl
@[simp] theorem State.push_rowCount (s : State) (e : Instr) : (s.push e).rowCount = s.rowCount := rfl
@[simp] theorem State.push_gridVersion (s : State) (e : Instr) : (s.push e).gridVersion = s.gridVersion := rfl
@[simp] theorem State.push_retirements (s : State) (e : Instr) : (s.push e).retirements = s.retirements := rfl
@[simp] theorem State.push_retireCopies (s : State) (e : Instr) : (s.push e).retireCopies = s.retireCopies := rfl
@[simp] theorem State.push_mapGood (s : State) (e : Instr) : (s.push e).mapGood = s.mapGood := rfl
@[simp] theorem State.push_fusedMap (s : State) (e : Instr) : (s.push e).fusedMap = s.fusedMap := rfl
@[simp] theorem State.push_toRetire (s : State) (e : Instr) : (s.push e).toRetire = s.toRetire := rfl
@[simp] theorem State.push_retireFrozen (s : State) (e : Instr) : (s.push e).retireFrozen = s.retireFrozen := rfl
@[simp] theorem State.push_links (s : State) (e : Instr) : (s.push e).links = s.links := rfl
@[simp] theorem State.push_lightLast (s : State) (e : Instr) : (s.push e).lightLast = s.lightLast := rfl
@[simp] theorem State.push_freeStack (s : State) (e : Instr) : (s.push e).freeStack = s.freeStack := rfl
@[simp] theorem State.push_passEntries (s : State) (e : Instr) : (s.push e).passEntries = s.passEntries := rfl
@[simp] theorem State.push_flying (s : State) (e : Instr) : (s.push e).flying = s.flying := rfl
@[simp] theorem State.push_served (s : State) (e : Instr) : (s.push e).served = s.served := rfl
@[simp] theorem State.push_leftPorts (s : State) (e : Instr) : (s.push e).leftPorts = s.leftPorts := rfl
@[simp] theorem State.push_refused (s : State) (e : Instr) : (s.push e).refused = s.refused := rfl
@[simp] theorem State.push_leases (s : State) (e : Instr) : (s.push e).leases = s.leases := rfl
@[simp] theorem State.push_debugStatus (s : State) (e : Instr) : (s.push e).debugStatus = s.debugStatus := rfl
@[simp] theorem State.push_debugData (s : State) (e : Instr) : (s.push e).debugData = s.debugData := rfl
@[simp] theorem State.push_debugBreak (s : State) (e : Instr) : (s.push e).debugBreak = s.debugBreak := rfl
@[simp] theorem State.push_attest (s : State) (e : Instr) : (s.push e).attest = s.attest := rfl
@[simp] theorem State.push_attestState (s : State) (e : Instr) : (s.push e).attestState = s.attestState := rfl
@[simp] theorem State.push_attestAgain (s : State) (e : Instr) : (s.push e).attestAgain = s.attestAgain := rfl
@[simp] theorem State.push_attestDigest (s : State) (e : Instr) : (s.push e).attestDigest = s.attestDigest := rfl
@[simp] theorem State.push_posted (s : State) (e : Instr) : (s.push e).posted = s.posted := rfl
@[simp] theorem State.push_hostRead (s : State) (e : Instr) : (s.push e).hostRead = s.hostRead := rfl
@[simp] theorem State.push_flash (s : State) (e : Instr) : (s.push e).flash = s.flash := rfl
@[simp] theorem State.push_clockMHz (s : State) (e : Instr) : (s.push e).clockMHz = s.clockMHz := rfl
@[simp] theorem State.push_laneRetired (s : State) (e : Instr) : (s.push e).laneRetired = s.laneRetired := rfl
@[simp] theorem State.push_laneTransients (s : State) (e : Instr) : (s.push e).laneTransients = s.laneTransients := rfl
@[simp] theorem State.push_cur (s : State) (e : Instr) : (s.push e).cur = s.cur := rfl
@[simp] theorem State.push_evTurn (s : State) (e : Instr) : (s.push e).evTurn = s.evTurn := rfl
@[simp] theorem State.push_steps (s : State) (e : Instr) : (s.push e).steps = s.steps := rfl

/-! ## State.setCurTile -/

@[simp] theorem State.setCurTile_mem (s : State) (x : Tile) : (s.setCurTile x).mem = s.mem := rfl
@[simp] theorem State.setCurTile_hostMem (s : State) (x : Tile) : (s.setCurTile x).hostMem = s.hostMem := rfl
@[simp] theorem State.setCurTile_uncorr (s : State) (x : Tile) : (s.setCurTile x).uncorr = s.uncorr := rfl
@[simp] theorem State.setCurTile_correctable (s : State) (x : Tile) : (s.setCurTile x).correctable = s.correctable := rfl
@[simp] theorem State.setCurTile_stackTransients (s : State) (x : Tile) : (s.setCurTile x).stackTransients = s.stackTransients := rfl
@[simp] theorem State.setCurTile_regions (s : State) (x : Tile) : (s.setCurTile x).regions = s.regions := rfl
@[simp] theorem State.setCurTile_clusters (s : State) (x : Tile) : (s.setCurTile x).clusters = s.clusters := rfl
@[simp] theorem State.setCurTile_contexts (s : State) (x : Tile) : (s.setCurTile x).contexts = s.contexts := rfl
@[simp] theorem State.setCurTile_registry (s : State) (x : Tile) : (s.setCurTile x).registry = s.registry := rfl
@[simp] theorem State.setCurTile_frames (s : State) (x : Tile) : (s.setCurTile x).frames = s.frames := rfl
@[simp] theorem State.setCurTile_pendingShoot (s : State) (x : Tile) : (s.setCurTile x).pendingShoot = s.pendingShoot := rfl
@[simp] theorem State.setCurTile_shoots (s : State) (x : Tile) : (s.setCurTile x).shoots = s.shoots := rfl
@[simp] theorem State.setCurTile_nextShoot (s : State) (x : Tile) : (s.setCurTile x).nextShoot = s.nextShoot := rfl
@[simp] theorem State.setCurTile_dist (s : State) (x : Tile) : (s.setCurTile x).dist = s.dist := rfl
@[simp] theorem State.setCurTile_hostRegs (s : State) (x : Tile) : (s.setCurTile x).hostRegs = s.hostRegs := rfl
@[simp] theorem State.setCurTile_eqTail (s : State) (x : Tile) : (s.setCurTile x).eqTail = s.eqTail := rfl
@[simp] theorem State.setCurTile_fqTail (s : State) (x : Tile) : (s.setCurTile x).fqTail = s.fqTail := rfl
@[simp] theorem State.setCurTile_events (s : State) (x : Tile) : (s.setCurTile x).events = s.events := rfl
@[simp] theorem State.setCurTile_time (s : State) (x : Tile) : (s.setCurTile x).time = s.time := rfl
@[simp] theorem State.setCurTile_powered (s : State) (x : Tile) : (s.setCurTile x).powered = s.powered := rfl
@[simp] theorem State.setCurTile_bootstat (s : State) (x : Tile) : (s.setCurTile x).bootstat = s.bootstat := rfl
@[simp] theorem State.setCurTile_surplus (s : State) (x : Tile) : (s.setCurTile x).surplus = s.surplus := rfl
@[simp] theorem State.setCurTile_moduleNumber (s : State) (x : Tile) : (s.setCurTile x).moduleNumber = s.moduleNumber := rfl
@[simp] theorem State.setCurTile_fabricAddr (s : State) (x : Tile) : (s.setCurTile x).fabricAddr = s.fabricAddr := rfl
@[simp] theorem State.setCurTile_domain (s : State) (x : Tile) : (s.setCurTile x).domain = s.domain := rfl
@[simp] theorem State.setCurTile_unreachable (s : State) (x : Tile) : (s.setCurTile x).unreachable = s.unreachable := rfl
@[simp] theorem State.setCurTile_measure (s : State) (x : Tile) : (s.setCurTile x).measure = s.measure := rfl
@[simp] theorem State.setCurTile_offered (s : State) (x : Tile) : (s.setCurTile x).offered = s.offered := rfl
@[simp] theorem State.setCurTile_accepted (s : State) (x : Tile) : (s.setCurTile x).accepted = s.accepted := rfl
@[simp] theorem State.setCurTile_acceptWritten (s : State) (x : Tile) : (s.setCurTile x).acceptWritten = s.acceptWritten := rfl
@[simp] theorem State.setCurTile_ktopo (s : State) (x : Tile) : (s.setCurTile x).ktopo = s.ktopo := rfl
@[simp] theorem State.setCurTile_shadowRemoved (s : State) (x : Tile) : (s.setCurTile x).shadowRemoved = s.shadowRemoved := rfl
@[simp] theorem State.setCurTile_topoRoutes (s : State) (x : Tile) : (s.setCurTile x).topoRoutes = s.topoRoutes := rfl
@[simp] theorem State.setCurTile_shadowRoutes (s : State) (x : Tile) : (s.setCurTile x).shadowRoutes = s.shadowRoutes := rfl
@[simp] theorem State.setCurTile_lateAns (s : State) (x : Tile) : (s.setCurTile x).lateAns = s.lateAns := rfl
@[simp] theorem State.setCurTile_defects (s : State) (x : Tile) : (s.setCurTile x).defects = s.defects := rfl
@[simp] theorem State.setCurTile_offCols (s : State) (x : Tile) : (s.setCurTile x).offCols = s.offCols := rfl
@[simp] theorem State.setCurTile_offRows (s : State) (x : Tile) : (s.setCurTile x).offRows = s.offRows := rfl
@[simp] theorem State.setCurTile_colCount (s : State) (x : Tile) : (s.setCurTile x).colCount = s.colCount := rfl
@[simp] theorem State.setCurTile_rowCount (s : State) (x : Tile) : (s.setCurTile x).rowCount = s.rowCount := rfl
@[simp] theorem State.setCurTile_gridVersion (s : State) (x : Tile) : (s.setCurTile x).gridVersion = s.gridVersion := rfl
@[simp] theorem State.setCurTile_retirements (s : State) (x : Tile) : (s.setCurTile x).retirements = s.retirements := rfl
@[simp] theorem State.setCurTile_retireCopies (s : State) (x : Tile) : (s.setCurTile x).retireCopies = s.retireCopies := rfl
@[simp] theorem State.setCurTile_mapGood (s : State) (x : Tile) : (s.setCurTile x).mapGood = s.mapGood := rfl
@[simp] theorem State.setCurTile_fusedMap (s : State) (x : Tile) : (s.setCurTile x).fusedMap = s.fusedMap := rfl
@[simp] theorem State.setCurTile_toRetire (s : State) (x : Tile) : (s.setCurTile x).toRetire = s.toRetire := rfl
@[simp] theorem State.setCurTile_retireFrozen (s : State) (x : Tile) : (s.setCurTile x).retireFrozen = s.retireFrozen := rfl
@[simp] theorem State.setCurTile_links (s : State) (x : Tile) : (s.setCurTile x).links = s.links := rfl
@[simp] theorem State.setCurTile_lightLast (s : State) (x : Tile) : (s.setCurTile x).lightLast = s.lightLast := rfl
@[simp] theorem State.setCurTile_freeStack (s : State) (x : Tile) : (s.setCurTile x).freeStack = s.freeStack := rfl
@[simp] theorem State.setCurTile_passEntries (s : State) (x : Tile) : (s.setCurTile x).passEntries = s.passEntries := rfl
@[simp] theorem State.setCurTile_flying (s : State) (x : Tile) : (s.setCurTile x).flying = s.flying := rfl
@[simp] theorem State.setCurTile_served (s : State) (x : Tile) : (s.setCurTile x).served = s.served := rfl
@[simp] theorem State.setCurTile_leftPorts (s : State) (x : Tile) : (s.setCurTile x).leftPorts = s.leftPorts := rfl
@[simp] theorem State.setCurTile_refused (s : State) (x : Tile) : (s.setCurTile x).refused = s.refused := rfl
@[simp] theorem State.setCurTile_leases (s : State) (x : Tile) : (s.setCurTile x).leases = s.leases := rfl
@[simp] theorem State.setCurTile_debugStatus (s : State) (x : Tile) : (s.setCurTile x).debugStatus = s.debugStatus := rfl
@[simp] theorem State.setCurTile_debugData (s : State) (x : Tile) : (s.setCurTile x).debugData = s.debugData := rfl
@[simp] theorem State.setCurTile_debugBreak (s : State) (x : Tile) : (s.setCurTile x).debugBreak = s.debugBreak := rfl
@[simp] theorem State.setCurTile_attest (s : State) (x : Tile) : (s.setCurTile x).attest = s.attest := rfl
@[simp] theorem State.setCurTile_attestState (s : State) (x : Tile) : (s.setCurTile x).attestState = s.attestState := rfl
@[simp] theorem State.setCurTile_attestAgain (s : State) (x : Tile) : (s.setCurTile x).attestAgain = s.attestAgain := rfl
@[simp] theorem State.setCurTile_attestDigest (s : State) (x : Tile) : (s.setCurTile x).attestDigest = s.attestDigest := rfl
@[simp] theorem State.setCurTile_posted (s : State) (x : Tile) : (s.setCurTile x).posted = s.posted := rfl
@[simp] theorem State.setCurTile_hostRead (s : State) (x : Tile) : (s.setCurTile x).hostRead = s.hostRead := rfl
@[simp] theorem State.setCurTile_flash (s : State) (x : Tile) : (s.setCurTile x).flash = s.flash := rfl
@[simp] theorem State.setCurTile_clockMHz (s : State) (x : Tile) : (s.setCurTile x).clockMHz = s.clockMHz := rfl
@[simp] theorem State.setCurTile_laneRetired (s : State) (x : Tile) : (s.setCurTile x).laneRetired = s.laneRetired := rfl
@[simp] theorem State.setCurTile_laneTransients (s : State) (x : Tile) : (s.setCurTile x).laneTransients = s.laneTransients := rfl
@[simp] theorem State.setCurTile_cur (s : State) (x : Tile) : (s.setCurTile x).cur = s.cur := rfl
@[simp] theorem State.setCurTile_agenda (s : State) (x : Tile) : (s.setCurTile x).agenda = s.agenda := rfl
@[simp] theorem State.setCurTile_evTurn (s : State) (x : Tile) : (s.setCurTile x).evTurn = s.evTurn := rfl
@[simp] theorem State.setCurTile_steps (s : State) (x : Tile) : (s.setCurTile x).steps = s.steps := rfl

/-! ## State.setCur -/

@[simp] theorem State.setCur_mem (s : State) (x : Strand) : (s.setCur x).mem = s.mem := rfl
@[simp] theorem State.setCur_hostMem (s : State) (x : Strand) : (s.setCur x).hostMem = s.hostMem := rfl
@[simp] theorem State.setCur_uncorr (s : State) (x : Strand) : (s.setCur x).uncorr = s.uncorr := rfl
@[simp] theorem State.setCur_correctable (s : State) (x : Strand) : (s.setCur x).correctable = s.correctable := rfl
@[simp] theorem State.setCur_stackTransients (s : State) (x : Strand) : (s.setCur x).stackTransients = s.stackTransients := rfl
@[simp] theorem State.setCur_regions (s : State) (x : Strand) : (s.setCur x).regions = s.regions := rfl
@[simp] theorem State.setCur_clusters (s : State) (x : Strand) : (s.setCur x).clusters = s.clusters := rfl
@[simp] theorem State.setCur_contexts (s : State) (x : Strand) : (s.setCur x).contexts = s.contexts := rfl
@[simp] theorem State.setCur_registry (s : State) (x : Strand) : (s.setCur x).registry = s.registry := rfl
@[simp] theorem State.setCur_frames (s : State) (x : Strand) : (s.setCur x).frames = s.frames := rfl
@[simp] theorem State.setCur_pendingShoot (s : State) (x : Strand) : (s.setCur x).pendingShoot = s.pendingShoot := rfl
@[simp] theorem State.setCur_shoots (s : State) (x : Strand) : (s.setCur x).shoots = s.shoots := rfl
@[simp] theorem State.setCur_nextShoot (s : State) (x : Strand) : (s.setCur x).nextShoot = s.nextShoot := rfl
@[simp] theorem State.setCur_dist (s : State) (x : Strand) : (s.setCur x).dist = s.dist := rfl
@[simp] theorem State.setCur_hostRegs (s : State) (x : Strand) : (s.setCur x).hostRegs = s.hostRegs := rfl
@[simp] theorem State.setCur_eqTail (s : State) (x : Strand) : (s.setCur x).eqTail = s.eqTail := rfl
@[simp] theorem State.setCur_fqTail (s : State) (x : Strand) : (s.setCur x).fqTail = s.fqTail := rfl
@[simp] theorem State.setCur_events (s : State) (x : Strand) : (s.setCur x).events = s.events := rfl
@[simp] theorem State.setCur_time (s : State) (x : Strand) : (s.setCur x).time = s.time := rfl
@[simp] theorem State.setCur_powered (s : State) (x : Strand) : (s.setCur x).powered = s.powered := rfl
@[simp] theorem State.setCur_bootstat (s : State) (x : Strand) : (s.setCur x).bootstat = s.bootstat := rfl
@[simp] theorem State.setCur_surplus (s : State) (x : Strand) : (s.setCur x).surplus = s.surplus := rfl
@[simp] theorem State.setCur_moduleNumber (s : State) (x : Strand) : (s.setCur x).moduleNumber = s.moduleNumber := rfl
@[simp] theorem State.setCur_fabricAddr (s : State) (x : Strand) : (s.setCur x).fabricAddr = s.fabricAddr := rfl
@[simp] theorem State.setCur_domain (s : State) (x : Strand) : (s.setCur x).domain = s.domain := rfl
@[simp] theorem State.setCur_unreachable (s : State) (x : Strand) : (s.setCur x).unreachable = s.unreachable := rfl
@[simp] theorem State.setCur_measure (s : State) (x : Strand) : (s.setCur x).measure = s.measure := rfl
@[simp] theorem State.setCur_offered (s : State) (x : Strand) : (s.setCur x).offered = s.offered := rfl
@[simp] theorem State.setCur_accepted (s : State) (x : Strand) : (s.setCur x).accepted = s.accepted := rfl
@[simp] theorem State.setCur_acceptWritten (s : State) (x : Strand) : (s.setCur x).acceptWritten = s.acceptWritten := rfl
@[simp] theorem State.setCur_ktopo (s : State) (x : Strand) : (s.setCur x).ktopo = s.ktopo := rfl
@[simp] theorem State.setCur_shadowRemoved (s : State) (x : Strand) : (s.setCur x).shadowRemoved = s.shadowRemoved := rfl
@[simp] theorem State.setCur_topoRoutes (s : State) (x : Strand) : (s.setCur x).topoRoutes = s.topoRoutes := rfl
@[simp] theorem State.setCur_shadowRoutes (s : State) (x : Strand) : (s.setCur x).shadowRoutes = s.shadowRoutes := rfl
@[simp] theorem State.setCur_lateAns (s : State) (x : Strand) : (s.setCur x).lateAns = s.lateAns := rfl
@[simp] theorem State.setCur_defects (s : State) (x : Strand) : (s.setCur x).defects = s.defects := rfl
@[simp] theorem State.setCur_offCols (s : State) (x : Strand) : (s.setCur x).offCols = s.offCols := rfl
@[simp] theorem State.setCur_offRows (s : State) (x : Strand) : (s.setCur x).offRows = s.offRows := rfl
@[simp] theorem State.setCur_colCount (s : State) (x : Strand) : (s.setCur x).colCount = s.colCount := rfl
@[simp] theorem State.setCur_rowCount (s : State) (x : Strand) : (s.setCur x).rowCount = s.rowCount := rfl
@[simp] theorem State.setCur_gridVersion (s : State) (x : Strand) : (s.setCur x).gridVersion = s.gridVersion := rfl
@[simp] theorem State.setCur_retirements (s : State) (x : Strand) : (s.setCur x).retirements = s.retirements := rfl
@[simp] theorem State.setCur_retireCopies (s : State) (x : Strand) : (s.setCur x).retireCopies = s.retireCopies := rfl
@[simp] theorem State.setCur_mapGood (s : State) (x : Strand) : (s.setCur x).mapGood = s.mapGood := rfl
@[simp] theorem State.setCur_fusedMap (s : State) (x : Strand) : (s.setCur x).fusedMap = s.fusedMap := rfl
@[simp] theorem State.setCur_toRetire (s : State) (x : Strand) : (s.setCur x).toRetire = s.toRetire := rfl
@[simp] theorem State.setCur_retireFrozen (s : State) (x : Strand) : (s.setCur x).retireFrozen = s.retireFrozen := rfl
@[simp] theorem State.setCur_links (s : State) (x : Strand) : (s.setCur x).links = s.links := rfl
@[simp] theorem State.setCur_lightLast (s : State) (x : Strand) : (s.setCur x).lightLast = s.lightLast := rfl
@[simp] theorem State.setCur_freeStack (s : State) (x : Strand) : (s.setCur x).freeStack = s.freeStack := rfl
@[simp] theorem State.setCur_passEntries (s : State) (x : Strand) : (s.setCur x).passEntries = s.passEntries := rfl
@[simp] theorem State.setCur_flying (s : State) (x : Strand) : (s.setCur x).flying = s.flying := rfl
@[simp] theorem State.setCur_served (s : State) (x : Strand) : (s.setCur x).served = s.served := rfl
@[simp] theorem State.setCur_leftPorts (s : State) (x : Strand) : (s.setCur x).leftPorts = s.leftPorts := rfl
@[simp] theorem State.setCur_refused (s : State) (x : Strand) : (s.setCur x).refused = s.refused := rfl
@[simp] theorem State.setCur_leases (s : State) (x : Strand) : (s.setCur x).leases = s.leases := rfl
@[simp] theorem State.setCur_debugStatus (s : State) (x : Strand) : (s.setCur x).debugStatus = s.debugStatus := rfl
@[simp] theorem State.setCur_debugData (s : State) (x : Strand) : (s.setCur x).debugData = s.debugData := rfl
@[simp] theorem State.setCur_debugBreak (s : State) (x : Strand) : (s.setCur x).debugBreak = s.debugBreak := rfl
@[simp] theorem State.setCur_attest (s : State) (x : Strand) : (s.setCur x).attest = s.attest := rfl
@[simp] theorem State.setCur_attestState (s : State) (x : Strand) : (s.setCur x).attestState = s.attestState := rfl
@[simp] theorem State.setCur_attestAgain (s : State) (x : Strand) : (s.setCur x).attestAgain = s.attestAgain := rfl
@[simp] theorem State.setCur_attestDigest (s : State) (x : Strand) : (s.setCur x).attestDigest = s.attestDigest := rfl
@[simp] theorem State.setCur_posted (s : State) (x : Strand) : (s.setCur x).posted = s.posted := rfl
@[simp] theorem State.setCur_hostRead (s : State) (x : Strand) : (s.setCur x).hostRead = s.hostRead := rfl
@[simp] theorem State.setCur_flash (s : State) (x : Strand) : (s.setCur x).flash = s.flash := rfl
@[simp] theorem State.setCur_clockMHz (s : State) (x : Strand) : (s.setCur x).clockMHz = s.clockMHz := rfl
@[simp] theorem State.setCur_laneRetired (s : State) (x : Strand) : (s.setCur x).laneRetired = s.laneRetired := rfl
@[simp] theorem State.setCur_laneTransients (s : State) (x : Strand) : (s.setCur x).laneTransients = s.laneTransients := rfl
@[simp] theorem State.setCur_cur (s : State) (x : Strand) : (s.setCur x).cur = s.cur := rfl
@[simp] theorem State.setCur_agenda (s : State) (x : Strand) : (s.setCur x).agenda = s.agenda := rfl
@[simp] theorem State.setCur_evTurn (s : State) (x : Strand) : (s.setCur x).evTurn = s.evTurn := rfl
@[simp] theorem State.setCur_steps (s : State) (x : Strand) : (s.setCur x).steps = s.steps := rfl

/-! ## State.setCurRegion -/

@[simp] theorem State.setCurRegion_mem (s : State) (x : Region) : (s.setCurRegion x).mem = s.mem := rfl
@[simp] theorem State.setCurRegion_hostMem (s : State) (x : Region) : (s.setCurRegion x).hostMem = s.hostMem := rfl
@[simp] theorem State.setCurRegion_uncorr (s : State) (x : Region) : (s.setCurRegion x).uncorr = s.uncorr := rfl
@[simp] theorem State.setCurRegion_correctable (s : State) (x : Region) : (s.setCurRegion x).correctable = s.correctable := rfl
@[simp] theorem State.setCurRegion_stackTransients (s : State) (x : Region) : (s.setCurRegion x).stackTransients = s.stackTransients := rfl
@[simp] theorem State.setCurRegion_tiles (s : State) (x : Region) : (s.setCurRegion x).tiles = s.tiles := rfl
@[simp] theorem State.setCurRegion_clusters (s : State) (x : Region) : (s.setCurRegion x).clusters = s.clusters := rfl
@[simp] theorem State.setCurRegion_contexts (s : State) (x : Region) : (s.setCurRegion x).contexts = s.contexts := rfl
@[simp] theorem State.setCurRegion_registry (s : State) (x : Region) : (s.setCurRegion x).registry = s.registry := rfl
@[simp] theorem State.setCurRegion_frames (s : State) (x : Region) : (s.setCurRegion x).frames = s.frames := rfl
@[simp] theorem State.setCurRegion_pendingShoot (s : State) (x : Region) : (s.setCurRegion x).pendingShoot = s.pendingShoot := rfl
@[simp] theorem State.setCurRegion_shoots (s : State) (x : Region) : (s.setCurRegion x).shoots = s.shoots := rfl
@[simp] theorem State.setCurRegion_nextShoot (s : State) (x : Region) : (s.setCurRegion x).nextShoot = s.nextShoot := rfl
@[simp] theorem State.setCurRegion_dist (s : State) (x : Region) : (s.setCurRegion x).dist = s.dist := rfl
@[simp] theorem State.setCurRegion_hostRegs (s : State) (x : Region) : (s.setCurRegion x).hostRegs = s.hostRegs := rfl
@[simp] theorem State.setCurRegion_eqTail (s : State) (x : Region) : (s.setCurRegion x).eqTail = s.eqTail := rfl
@[simp] theorem State.setCurRegion_fqTail (s : State) (x : Region) : (s.setCurRegion x).fqTail = s.fqTail := rfl
@[simp] theorem State.setCurRegion_events (s : State) (x : Region) : (s.setCurRegion x).events = s.events := rfl
@[simp] theorem State.setCurRegion_time (s : State) (x : Region) : (s.setCurRegion x).time = s.time := rfl
@[simp] theorem State.setCurRegion_powered (s : State) (x : Region) : (s.setCurRegion x).powered = s.powered := rfl
@[simp] theorem State.setCurRegion_bootstat (s : State) (x : Region) : (s.setCurRegion x).bootstat = s.bootstat := rfl
@[simp] theorem State.setCurRegion_surplus (s : State) (x : Region) : (s.setCurRegion x).surplus = s.surplus := rfl
@[simp] theorem State.setCurRegion_moduleNumber (s : State) (x : Region) : (s.setCurRegion x).moduleNumber = s.moduleNumber := rfl
@[simp] theorem State.setCurRegion_fabricAddr (s : State) (x : Region) : (s.setCurRegion x).fabricAddr = s.fabricAddr := rfl
@[simp] theorem State.setCurRegion_domain (s : State) (x : Region) : (s.setCurRegion x).domain = s.domain := rfl
@[simp] theorem State.setCurRegion_unreachable (s : State) (x : Region) : (s.setCurRegion x).unreachable = s.unreachable := rfl
@[simp] theorem State.setCurRegion_measure (s : State) (x : Region) : (s.setCurRegion x).measure = s.measure := rfl
@[simp] theorem State.setCurRegion_offered (s : State) (x : Region) : (s.setCurRegion x).offered = s.offered := rfl
@[simp] theorem State.setCurRegion_accepted (s : State) (x : Region) : (s.setCurRegion x).accepted = s.accepted := rfl
@[simp] theorem State.setCurRegion_acceptWritten (s : State) (x : Region) : (s.setCurRegion x).acceptWritten = s.acceptWritten := rfl
@[simp] theorem State.setCurRegion_ktopo (s : State) (x : Region) : (s.setCurRegion x).ktopo = s.ktopo := rfl
@[simp] theorem State.setCurRegion_shadowRemoved (s : State) (x : Region) : (s.setCurRegion x).shadowRemoved = s.shadowRemoved := rfl
@[simp] theorem State.setCurRegion_topoRoutes (s : State) (x : Region) : (s.setCurRegion x).topoRoutes = s.topoRoutes := rfl
@[simp] theorem State.setCurRegion_shadowRoutes (s : State) (x : Region) : (s.setCurRegion x).shadowRoutes = s.shadowRoutes := rfl
@[simp] theorem State.setCurRegion_lateAns (s : State) (x : Region) : (s.setCurRegion x).lateAns = s.lateAns := rfl
@[simp] theorem State.setCurRegion_defects (s : State) (x : Region) : (s.setCurRegion x).defects = s.defects := rfl
@[simp] theorem State.setCurRegion_offCols (s : State) (x : Region) : (s.setCurRegion x).offCols = s.offCols := rfl
@[simp] theorem State.setCurRegion_offRows (s : State) (x : Region) : (s.setCurRegion x).offRows = s.offRows := rfl
@[simp] theorem State.setCurRegion_colCount (s : State) (x : Region) : (s.setCurRegion x).colCount = s.colCount := rfl
@[simp] theorem State.setCurRegion_rowCount (s : State) (x : Region) : (s.setCurRegion x).rowCount = s.rowCount := rfl
@[simp] theorem State.setCurRegion_gridVersion (s : State) (x : Region) : (s.setCurRegion x).gridVersion = s.gridVersion := rfl
@[simp] theorem State.setCurRegion_retirements (s : State) (x : Region) : (s.setCurRegion x).retirements = s.retirements := rfl
@[simp] theorem State.setCurRegion_retireCopies (s : State) (x : Region) : (s.setCurRegion x).retireCopies = s.retireCopies := rfl
@[simp] theorem State.setCurRegion_mapGood (s : State) (x : Region) : (s.setCurRegion x).mapGood = s.mapGood := rfl
@[simp] theorem State.setCurRegion_fusedMap (s : State) (x : Region) : (s.setCurRegion x).fusedMap = s.fusedMap := rfl
@[simp] theorem State.setCurRegion_toRetire (s : State) (x : Region) : (s.setCurRegion x).toRetire = s.toRetire := rfl
@[simp] theorem State.setCurRegion_retireFrozen (s : State) (x : Region) : (s.setCurRegion x).retireFrozen = s.retireFrozen := rfl
@[simp] theorem State.setCurRegion_links (s : State) (x : Region) : (s.setCurRegion x).links = s.links := rfl
@[simp] theorem State.setCurRegion_lightLast (s : State) (x : Region) : (s.setCurRegion x).lightLast = s.lightLast := rfl
@[simp] theorem State.setCurRegion_freeStack (s : State) (x : Region) : (s.setCurRegion x).freeStack = s.freeStack := rfl
@[simp] theorem State.setCurRegion_passEntries (s : State) (x : Region) : (s.setCurRegion x).passEntries = s.passEntries := rfl
@[simp] theorem State.setCurRegion_flying (s : State) (x : Region) : (s.setCurRegion x).flying = s.flying := rfl
@[simp] theorem State.setCurRegion_served (s : State) (x : Region) : (s.setCurRegion x).served = s.served := rfl
@[simp] theorem State.setCurRegion_leftPorts (s : State) (x : Region) : (s.setCurRegion x).leftPorts = s.leftPorts := rfl
@[simp] theorem State.setCurRegion_refused (s : State) (x : Region) : (s.setCurRegion x).refused = s.refused := rfl
@[simp] theorem State.setCurRegion_leases (s : State) (x : Region) : (s.setCurRegion x).leases = s.leases := rfl
@[simp] theorem State.setCurRegion_debugStatus (s : State) (x : Region) : (s.setCurRegion x).debugStatus = s.debugStatus := rfl
@[simp] theorem State.setCurRegion_debugData (s : State) (x : Region) : (s.setCurRegion x).debugData = s.debugData := rfl
@[simp] theorem State.setCurRegion_debugBreak (s : State) (x : Region) : (s.setCurRegion x).debugBreak = s.debugBreak := rfl
@[simp] theorem State.setCurRegion_attest (s : State) (x : Region) : (s.setCurRegion x).attest = s.attest := rfl
@[simp] theorem State.setCurRegion_attestState (s : State) (x : Region) : (s.setCurRegion x).attestState = s.attestState := rfl
@[simp] theorem State.setCurRegion_attestAgain (s : State) (x : Region) : (s.setCurRegion x).attestAgain = s.attestAgain := rfl
@[simp] theorem State.setCurRegion_attestDigest (s : State) (x : Region) : (s.setCurRegion x).attestDigest = s.attestDigest := rfl
@[simp] theorem State.setCurRegion_posted (s : State) (x : Region) : (s.setCurRegion x).posted = s.posted := rfl
@[simp] theorem State.setCurRegion_hostRead (s : State) (x : Region) : (s.setCurRegion x).hostRead = s.hostRead := rfl
@[simp] theorem State.setCurRegion_flash (s : State) (x : Region) : (s.setCurRegion x).flash = s.flash := rfl
@[simp] theorem State.setCurRegion_clockMHz (s : State) (x : Region) : (s.setCurRegion x).clockMHz = s.clockMHz := rfl
@[simp] theorem State.setCurRegion_laneRetired (s : State) (x : Region) : (s.setCurRegion x).laneRetired = s.laneRetired := rfl
@[simp] theorem State.setCurRegion_laneTransients (s : State) (x : Region) : (s.setCurRegion x).laneTransients = s.laneTransients := rfl
@[simp] theorem State.setCurRegion_cur (s : State) (x : Region) : (s.setCurRegion x).cur = s.cur := rfl
@[simp] theorem State.setCurRegion_agenda (s : State) (x : Region) : (s.setCurRegion x).agenda = s.agenda := rfl
@[simp] theorem State.setCurRegion_evTurn (s : State) (x : Region) : (s.setCurRegion x).evTurn = s.evTurn := rfl
@[simp] theorem State.setCurRegion_steps (s : State) (x : Region) : (s.setCurRegion x).steps = s.steps := rfl

/-! ## Tile.setStrand -/

@[simp] theorem Tile.setStrand_bound (t : Tile) (k : Fin 4) (x : Strand) : (t.setStrand k x).bound = t.bound := rfl
@[simp] theorem Tile.setStrand_code (t : Tile) (k : Fin 4) (x : Strand) : (t.setStrand k x).code = t.code := rfl
@[simp] theorem Tile.setStrand_spad (t : Tile) (k : Fin 4) (x : Strand) : (t.setStrand k x).spad = t.spad := rfl
@[simp] theorem Tile.setStrand_banks (t : Tile) (k : Fin 4) (x : Strand) : (t.setStrand k x).banks = t.banks := rfl
@[simp] theorem Tile.setStrand_l1 (t : Tile) (k : Fin 4) (x : Strand) : (t.setStrand k x).l1 = t.l1 := rfl
@[simp] theorem Tile.setStrand_dtlb (t : Tile) (k : Fin 4) (x : Strand) : (t.setStrand k x).dtlb = t.dtlb := rfl
@[simp] theorem Tile.setStrand_itlb (t : Tile) (k : Fin 4) (x : Strand) : (t.setStrand k x).itlb = t.itlb := rfl
@[simp] theorem Tile.setStrand_ktvec (t : Tile) (k : Fin 4) (x : Strand) : (t.setStrand k x).ktvec = t.ktvec := rfl
@[simp] theorem Tile.setStrand_handles (t : Tile) (k : Fin 4) (x : Strand) : (t.setStrand k x).handles = t.handles := rfl
@[simp] theorem Tile.setStrand_queues (t : Tile) (k : Fin 4) (x : Strand) : (t.setStrand k x).queues = t.queues := rfl
@[simp] theorem Tile.setStrand_ports (t : Tile) (k : Fin 4) (x : Strand) : (t.setStrand k x).ports = t.ports := rfl
@[simp] theorem Tile.setStrand_actors (t : Tile) (k : Fin 4) (x : Strand) : (t.setStrand k x).actors = t.actors := rfl
@[simp] theorem Tile.setStrand_rr (t : Tile) (k : Fin 4) (x : Strand) : (t.setStrand k x).rr = t.rr := rfl
@[simp] theorem Tile.setStrand_lastKind (t : Tile) (k : Fin 4) (x : Strand) : (t.setStrand k x).lastKind = t.lastKind := rfl
@[simp] theorem Tile.setStrand_wave (t : Tile) (k : Fin 4) (x : Strand) : (t.setStrand k x).wave = t.wave := rfl
@[simp] theorem Tile.setStrand_freezing (t : Tile) (k : Fin 4) (x : Strand) : (t.setStrand k x).freezing = t.freezing := rfl
@[simp] theorem Tile.setStrand_armed (t : Tile) (k : Fin 4) (x : Strand) : (t.setStrand k x).armed = t.armed := rfl
@[simp] theorem Tile.setStrand_spindle (t : Tile) (k : Fin 4) (x : Strand) : (t.setStrand k x).spindle = t.spindle := rfl
@[simp] theorem Tile.setStrand_lanes (t : Tile) (k : Fin 4) (x : Strand) : (t.setStrand k x).lanes = t.lanes := rfl
@[simp] theorem Tile.setStrand_laneCfg (t : Tile) (k : Fin 4) (x : Strand) : (t.setStrand k x).laneCfg = t.laneCfg := rfl
@[simp] theorem Tile.setStrand_deadSlots (t : Tile) (k : Fin 4) (x : Strand) : (t.setStrand k x).deadSlots = t.deadSlots := rfl
@[simp] theorem Tile.setStrand_matrix (t : Tile) (k : Fin 4) (x : Strand) : (t.setStrand k x).matrix = t.matrix := rfl
@[simp] theorem Tile.setStrand_inlay (t : Tile) (k : Fin 4) (x : Strand) : (t.setStrand k x).inlay = t.inlay := rfl
@[simp] theorem Tile.setStrand_slots (t : Tile) (k : Fin 4) (x : Strand) : (t.setStrand k x).slots = t.slots := rfl
@[simp] theorem Tile.setStrand_drops (t : Tile) (k : Fin 4) (x : Strand) : (t.setStrand k x).drops = t.drops := rfl
@[simp] theorem Tile.setStrand_released (t : Tile) (k : Fin 4) (x : Strand) : (t.setStrand k x).released = t.released := rfl
@[simp] theorem Tile.setStrand_bankTokens (t : Tile) (k : Fin 4) (x : Strand) : (t.setStrand k x).bankTokens = t.bankTokens := rfl
@[simp] theorem Tile.setStrand_stash (t : Tile) (k : Fin 4) (x : Strand) : (t.setStrand k x).stash = t.stash := rfl
@[simp] theorem Tile.setStrand_kflags (t : Tile) (k : Fin 4) (x : Strand) : (t.setStrand k x).kflags = t.kflags := rfl
@[simp] theorem Tile.setStrand_draws (t : Tile) (k : Fin 4) (x : Strand) : (t.setStrand k x).draws = t.draws := rfl
@[simp] theorem Tile.setStrand_pins (t : Tile) (k : Fin 4) (x : Strand) : (t.setStrand k x).pins = t.pins := rfl
@[simp] theorem Tile.setStrand_copy (t : Tile) (k : Fin 4) (x : Strand) : (t.setStrand k x).copy = t.copy := rfl
@[simp] theorem Tile.setStrand_netq (t : Tile) (k : Fin 4) (x : Strand) : (t.setStrand k x).netq = t.netq := rfl
@[simp] theorem Tile.setStrand_inject (t : Tile) (k : Fin 4) (x : Strand) : (t.setStrand k x).inject = t.inject := rfl
@[simp] theorem Tile.setStrand_flow (t : Tile) (k : Fin 4) (x : Strand) : (t.setStrand k x).flow = t.flow := rfl
@[simp] theorem Tile.setStrand_links (t : Tile) (k : Fin 4) (x : Strand) : (t.setStrand k x).links = t.links := rfl
@[simp] theorem Tile.setStrand_comb (t : Tile) (k : Fin 4) (x : Strand) : (t.setStrand k x).comb = t.comb := rfl
@[simp] theorem Tile.setStrand_recv (t : Tile) (k : Fin 4) (x : Strand) : (t.setStrand k x).recv = t.recv := rfl
@[simp] theorem Tile.setStrand_routes (t : Tile) (k : Fin 4) (x : Strand) : (t.setStrand k x).routes = t.routes := rfl
@[simp] theorem Tile.setStrand_chunks (t : Tile) (k : Fin 4) (x : Strand) : (t.setStrand k x).chunks = t.chunks := rfl
@[simp] theorem Tile.setStrand_transients (t : Tile) (k : Fin 4) (x : Strand) : (t.setStrand k x).transients = t.transients := rfl
@[simp] theorem Tile.setStrand_failing (t : Tile) (k : Fin 4) (x : Strand) : (t.setStrand k x).failing = t.failing := rfl

/-! ## Strand.setStatus, Strand.wg and Strand.wp -/

@[simp] theorem Strand.setStatus_g (x : Strand) (i : Nat) (b : Bool) : (x.setStatus i b).g = x.g := rfl
@[simp] theorem Strand.setStatus_p (x : Strand) (i : Nat) (b : Bool) : (x.setStatus i b).p = x.p := rfl
@[simp] theorem Strand.setStatus_pc (x : Strand) (i : Nat) (b : Bool) : (x.setStatus i b).pc = x.pc := rfl
@[simp] theorem Strand.setStatus_kcause (x : Strand) (i : Nat) (b : Bool) : (x.setStatus i b).kcause = x.kcause := rfl
@[simp] theorem Strand.setStatus_ktval (x : Strand) (i : Nat) (b : Bool) : (x.setStatus i b).ktval = x.ktval := rfl
@[simp] theorem Strand.setStatus_kepc (x : Strand) (i : Nat) (b : Bool) : (x.setStatus i b).kepc = x.kepc := rfl
@[simp] theorem Strand.setStatus_kscratch (x : Strand) (i : Nat) (b : Bool) : (x.setStatus i b).kscratch = x.kscratch := rfl
@[simp] theorem Strand.setStatus_kspill (x : Strand) (i : Nat) (b : Bool) : (x.setStatus i b).kspill = x.kspill := rfl
@[simp] theorem Strand.setStatus_tokens (x : Strand) (i : Nat) (b : Bool) : (x.setStatus i b).tokens = x.tokens := rfl
@[simp] theorem Strand.setStatus_spillq (x : Strand) (i : Nat) (b : Bool) : (x.setStatus i b).spillq = x.spillq := rfl
@[simp] theorem Strand.setStatus_interrupted (x : Strand) (i : Nat) (b : Bool) : (x.setStatus i b).interrupted = x.interrupted := rfl
@[simp] theorem Strand.setStatus_deferred (x : Strand) (i : Nat) (b : Bool) : (x.setStatus i b).deferred = x.deferred := rfl
@[simp] theorem Strand.setStatus_marks (x : Strand) (i : Nat) (b : Bool) : (x.setStatus i b).marks = x.marks := rfl
@[simp] theorem Strand.setStatus_trackValid (x : Strand) (i : Nat) (b : Bool) : (x.setStatus i b).trackValid = x.trackValid := rfl
@[simp] theorem Strand.setStatus_trackVer (x : Strand) (i : Nat) (b : Bool) : (x.setStatus i b).trackVer = x.trackVer := rfl
@[simp] theorem Strand.setStatus_trackMixed (x : Strand) (i : Nat) (b : Bool) : (x.setStatus i b).trackMixed = x.trackMixed := rfl
@[simp] theorem Strand.setStatus_firing (x : Strand) (i : Nat) (b : Bool) : (x.setStatus i b).firing = x.firing := rfl
@[simp] theorem Strand.setStatus_hold (x : Strand) (i : Nat) (b : Bool) : (x.setStatus i b).hold = x.hold := rfl
@[simp] theorem Strand.setStatus_parked (x : Strand) (i : Nat) (b : Bool) : (x.setStatus i b).parked = x.parked := rfl
@[simp] theorem Strand.setStatus_waited (x : Strand) (i : Nat) (b : Bool) : (x.setStatus i b).waited = x.waited := rfl
@[simp] theorem Strand.setStatus_nacked (x : Strand) (i : Nat) (b : Bool) : (x.setStatus i b).nacked = x.nacked := rfl
@[simp] theorem Strand.wg_p (x : Strand) (n : BitVec 6) (v : Word) : (x.wg n v).p = x.p := by unfold Strand.wg; split <;> rfl
@[simp] theorem Strand.wg_pc (x : Strand) (n : BitVec 6) (v : Word) : (x.wg n v).pc = x.pc := by unfold Strand.wg; split <;> rfl
@[simp] theorem Strand.wg_kstatus (x : Strand) (n : BitVec 6) (v : Word) : (x.wg n v).kstatus = x.kstatus := by unfold Strand.wg; split <;> rfl
@[simp] theorem Strand.wg_kcause (x : Strand) (n : BitVec 6) (v : Word) : (x.wg n v).kcause = x.kcause := by unfold Strand.wg; split <;> rfl
@[simp] theorem Strand.wg_ktval (x : Strand) (n : BitVec 6) (v : Word) : (x.wg n v).ktval = x.ktval := by unfold Strand.wg; split <;> rfl
@[simp] theorem Strand.wg_kepc (x : Strand) (n : BitVec 6) (v : Word) : (x.wg n v).kepc = x.kepc := by unfold Strand.wg; split <;> rfl
@[simp] theorem Strand.wg_kscratch (x : Strand) (n : BitVec 6) (v : Word) : (x.wg n v).kscratch = x.kscratch := by unfold Strand.wg; split <;> rfl
@[simp] theorem Strand.wg_kspill (x : Strand) (n : BitVec 6) (v : Word) : (x.wg n v).kspill = x.kspill := by unfold Strand.wg; split <;> rfl
@[simp] theorem Strand.wg_tokens (x : Strand) (n : BitVec 6) (v : Word) : (x.wg n v).tokens = x.tokens := by unfold Strand.wg; split <;> rfl
@[simp] theorem Strand.wg_spillq (x : Strand) (n : BitVec 6) (v : Word) : (x.wg n v).spillq = x.spillq := by unfold Strand.wg; split <;> rfl
@[simp] theorem Strand.wg_interrupted (x : Strand) (n : BitVec 6) (v : Word) : (x.wg n v).interrupted = x.interrupted := by unfold Strand.wg; split <;> rfl
@[simp] theorem Strand.wg_deferred (x : Strand) (n : BitVec 6) (v : Word) : (x.wg n v).deferred = x.deferred := by unfold Strand.wg; split <;> rfl
@[simp] theorem Strand.wg_marks (x : Strand) (n : BitVec 6) (v : Word) : (x.wg n v).marks = x.marks := by unfold Strand.wg; split <;> rfl
@[simp] theorem Strand.wg_trackValid (x : Strand) (n : BitVec 6) (v : Word) : (x.wg n v).trackValid = x.trackValid := by unfold Strand.wg; split <;> rfl
@[simp] theorem Strand.wg_trackVer (x : Strand) (n : BitVec 6) (v : Word) : (x.wg n v).trackVer = x.trackVer := by unfold Strand.wg; split <;> rfl
@[simp] theorem Strand.wg_trackMixed (x : Strand) (n : BitVec 6) (v : Word) : (x.wg n v).trackMixed = x.trackMixed := by unfold Strand.wg; split <;> rfl
@[simp] theorem Strand.wg_firing (x : Strand) (n : BitVec 6) (v : Word) : (x.wg n v).firing = x.firing := by unfold Strand.wg; split <;> rfl
@[simp] theorem Strand.wg_hold (x : Strand) (n : BitVec 6) (v : Word) : (x.wg n v).hold = x.hold := by unfold Strand.wg; split <;> rfl
@[simp] theorem Strand.wg_parked (x : Strand) (n : BitVec 6) (v : Word) : (x.wg n v).parked = x.parked := by unfold Strand.wg; split <;> rfl
@[simp] theorem Strand.wg_waited (x : Strand) (n : BitVec 6) (v : Word) : (x.wg n v).waited = x.waited := by unfold Strand.wg; split <;> rfl
@[simp] theorem Strand.wg_nacked (x : Strand) (n : BitVec 6) (v : Word) : (x.wg n v).nacked = x.nacked := by unfold Strand.wg; split <;> rfl
@[simp] theorem Strand.wp_g (x : Strand) (n : BitVec 3) (b : Bool) : (x.wp n b).g = x.g := by unfold Strand.wp; split <;> rfl
@[simp] theorem Strand.wp_pc (x : Strand) (n : BitVec 3) (b : Bool) : (x.wp n b).pc = x.pc := by unfold Strand.wp; split <;> rfl
@[simp] theorem Strand.wp_kstatus (x : Strand) (n : BitVec 3) (b : Bool) : (x.wp n b).kstatus = x.kstatus := by unfold Strand.wp; split <;> rfl
@[simp] theorem Strand.wp_kcause (x : Strand) (n : BitVec 3) (b : Bool) : (x.wp n b).kcause = x.kcause := by unfold Strand.wp; split <;> rfl
@[simp] theorem Strand.wp_ktval (x : Strand) (n : BitVec 3) (b : Bool) : (x.wp n b).ktval = x.ktval := by unfold Strand.wp; split <;> rfl
@[simp] theorem Strand.wp_kepc (x : Strand) (n : BitVec 3) (b : Bool) : (x.wp n b).kepc = x.kepc := by unfold Strand.wp; split <;> rfl
@[simp] theorem Strand.wp_kscratch (x : Strand) (n : BitVec 3) (b : Bool) : (x.wp n b).kscratch = x.kscratch := by unfold Strand.wp; split <;> rfl
@[simp] theorem Strand.wp_kspill (x : Strand) (n : BitVec 3) (b : Bool) : (x.wp n b).kspill = x.kspill := by unfold Strand.wp; split <;> rfl
@[simp] theorem Strand.wp_tokens (x : Strand) (n : BitVec 3) (b : Bool) : (x.wp n b).tokens = x.tokens := by unfold Strand.wp; split <;> rfl
@[simp] theorem Strand.wp_spillq (x : Strand) (n : BitVec 3) (b : Bool) : (x.wp n b).spillq = x.spillq := by unfold Strand.wp; split <;> rfl
@[simp] theorem Strand.wp_interrupted (x : Strand) (n : BitVec 3) (b : Bool) : (x.wp n b).interrupted = x.interrupted := by unfold Strand.wp; split <;> rfl
@[simp] theorem Strand.wp_deferred (x : Strand) (n : BitVec 3) (b : Bool) : (x.wp n b).deferred = x.deferred := by unfold Strand.wp; split <;> rfl
@[simp] theorem Strand.wp_marks (x : Strand) (n : BitVec 3) (b : Bool) : (x.wp n b).marks = x.marks := by unfold Strand.wp; split <;> rfl
@[simp] theorem Strand.wp_trackValid (x : Strand) (n : BitVec 3) (b : Bool) : (x.wp n b).trackValid = x.trackValid := by unfold Strand.wp; split <;> rfl
@[simp] theorem Strand.wp_trackVer (x : Strand) (n : BitVec 3) (b : Bool) : (x.wp n b).trackVer = x.trackVer := by unfold Strand.wp; split <;> rfl
@[simp] theorem Strand.wp_trackMixed (x : Strand) (n : BitVec 3) (b : Bool) : (x.wp n b).trackMixed = x.trackMixed := by unfold Strand.wp; split <;> rfl
@[simp] theorem Strand.wp_firing (x : Strand) (n : BitVec 3) (b : Bool) : (x.wp n b).firing = x.firing := by unfold Strand.wp; split <;> rfl
@[simp] theorem Strand.wp_hold (x : Strand) (n : BitVec 3) (b : Bool) : (x.wp n b).hold = x.hold := by unfold Strand.wp; split <;> rfl
@[simp] theorem Strand.wp_parked (x : Strand) (n : BitVec 3) (b : Bool) : (x.wp n b).parked = x.parked := by unfold Strand.wp; split <;> rfl
@[simp] theorem Strand.wp_waited (x : Strand) (n : BitVec 3) (b : Bool) : (x.wp n b).waited = x.waited := by unfold Strand.wp; split <;> rfl
@[simp] theorem Strand.wp_nacked (x : Strand) (n : BitVec 3) (b : Bool) : (x.wp n b).nacked = x.nacked := by unfold Strand.wp; split <;> rfl

/-! ## Reading back -/

@[simp] theorem State.tile_setTile_same (s : State) (n : Nat) (x : Tile) : (s.setTile n x).tile n = x :=
  tabGet_set_same _ _ _ _

theorem State.tile_setTile_other (s : State) {n m : Nat} (x : Tile) (h : m ≠ n) : (s.setTile n x).tile m = s.tile m :=
  tabGet_set_other _ _ _ h

@[simp] theorem State.setTile_setTile (s : State) (n : Nat) (x y : Tile) : (s.setTile n x).setTile n y = s.setTile n y := by
  simp [State.setTile]

@[simp] theorem State.region_setRegion_same (s : State) (h : BitVec 32) (r : Region) : (s.setRegion h r).region h = r :=
  tabGet_set_same _ _ _ _

theorem State.region_setRegion_other (s : State) {h k : BitVec 32} (r : Region) (n : k ≠ h) :
    (s.setRegion h r).region k = s.region k :=
  tabGet_set_other _ _ _ fun e => n (BitVec.eq_of_toNat_eq e)

@[simp] theorem State.setRegion_setRegion (s : State) (h : BitVec 32) (r q : Region) :
    (s.setRegion h r).setRegion h q = s.setRegion h q := by
  simp [State.setRegion]

@[simp] theorem State.cluster_setCluster_same (s : State) (n : Nat) (x : Cluster) : (s.setCluster n x).cluster n = x :=
  tabGet_set_same _ _ _ _

theorem State.cluster_setCluster_other (s : State) {n m : Nat} (x : Cluster) (h : m ≠ n) :
    (s.setCluster n x).cluster m = s.cluster m :=
  tabGet_set_other _ _ _ h

@[simp] theorem State.context_setContext_same (s : State) (c : BitVec 16) (x : Context) :
    (s.setContext c x).context c = some x := by
  simp [State.context, State.setContext]

@[simp] theorem State.weights_setWeights_same (s : State) (n : Nat) (x : WeightSet) : (s.setWeights n x).weights n = x :=
  tabGet_set_same _ _ _ _

@[simp] theorem Tile.strand_setStrand_same (t : Tile) (k : Fin 4) (x : Strand) : (t.setStrand k x).strand k = x := by
  simp [Tile.strand, Tile.setStrand]

theorem Tile.strand_setStrand_other (t : Tile) {k j : Fin 4} (x : Strand) (h : j ≠ k) :
    (t.setStrand k x).strand j = t.strand j := by
  have hv : k.val ≠ j.val := fun e => h (Fin.ext e.symm)
  simp [Tile.strand, Tile.setStrand, hv]

@[simp] theorem Tile.setStrand_setStrand (t : Tile) (k : Fin 4) (x y : Strand) :
    (t.setStrand k x).setStrand k y = t.setStrand k y := by
  simp [Tile.setStrand]

@[simp] theorem State.curTile_setCurTile (s : State) (x : Tile) : (s.setCurTile x).curTile = x :=
  State.tile_setTile_same _ _ _

@[simp] theorem State.setCurTile_setCurTile (s : State) (x y : Tile) : (s.setCurTile x).setCurTile y = s.setCurTile y :=
  State.setTile_setTile _ _ _ _

@[simp] theorem State.curStrand_setCur (s : State) (x : Strand) : (s.setCur x).curStrand = x := by
  simp only [State.curStrand, State.setCur, State.curTile_setCurTile]
  exact Tile.strand_setStrand_same _ _ _

@[simp] theorem State.setCur_setCur (s : State) (x y : Strand) : (s.setCur x).setCur y = s.setCur y := by
  simp [State.setCur]

@[simp] theorem Strand.setStatus_kstatus (x : Strand) (i : Nat) (b : Bool) :
    (x.setStatus i b).kstatus = setBit x.kstatus i b := rfl

@[simp] theorem Strand.rg_zero (x : Strand) : x.rg 0 = 0 := rfl

@[simp] theorem Strand.wg_zero (x : Strand) (v : Word) : x.wg 0 v = x := rfl

/-- A register written reads back, g0 apart. -/
theorem Strand.rg_wg (x : Strand) (n m : BitVec 6) (v : Word) :
    (x.wg n v).rg m = if m = n ∧ n ≠ 0 then v else x.rg m := by
  by_cases hn : n = 0
  · simp [hn, Strand.wg]
  · simp only [Strand.wg, Strand.rg, hn, if_false, ne_eq, not_false_eq_true, and_true]
    by_cases hm : m = 0
    · subst hm; rw [if_pos rfl, if_neg (fun e => hn e.symm)]; rfl
    · rw [if_neg hm, tabGet_set, if_neg hm]
      by_cases h : m = n
      · simp [h]
      · rw [if_neg h, if_neg fun e => h (BitVec.eq_of_toNat_eq e)]

end Sys2Proof.Machine
end

