-- ==== Sys2Proof/Laws/Ops.lean ====
section
/-!
SUPPORT. What the shared operations of Machine/Ops.lean do: retiring, transferring, waiting, taking an exception and returning
from one. Proofs cite these lemmas and unfold no operation.
-/
namespace Sys2Proof.Machine

/-- The strand that an instruction leaves which retires to an index. -/
def Strand.moved (x : Strand) (pc : BitVec 13) : Strand := ({ x with pc := pc, hold := .none, waited := 0 }).stepHalt

/-- The strand after a trap that nests nothing. -/
def Strand.trapped (x : Strand) (c : Cause) (tval : Word) (epc vec : BitVec 13) : Strand :=
  let z := ({ x with kcause := BitVec.ofNat 64 c.code, ktval := tval, kepc := epc.zeroExtend 64, pc := vec,
                     hold := .none, waited := 0 }).setStatus 0 true
  if x.sstep then z.setStatus 15 true else z

@[simp] theorem Strand.stepHalt_g (x : Strand) : x.stepHalt.g = x.g := by unfold Strand.stepHalt; split <;> rfl
@[simp] theorem Strand.stepHalt_p (x : Strand) : x.stepHalt.p = x.p := by unfold Strand.stepHalt; split <;> rfl
@[simp] theorem Strand.stepHalt_pc (x : Strand) : x.stepHalt.pc = x.pc := by unfold Strand.stepHalt; split <;> rfl
@[simp] theorem Strand.stepHalt_tokens (x : Strand) : x.stepHalt.tokens = x.tokens := by
  unfold Strand.stepHalt; split <;> rfl

theorem State.goTo_eq (s : State) (pc : BitVec 13) : s.goTo pc = s.setCur (s.curStrand.moved pc) := rfl

/-- Retiring anywhere but at the last index goes on at the next one. -/
theorem retire_eq (s : State) (h : s.curStrand.pc ≠ 8191) : retire s = s.setCur (s.curStrand.moved (s.curStrand.pc + 1)) :=
  if_neg h

/-- Retiring at the last index takes BRANCH_RANGE (R94). -/
theorem retire_last (s : State) (h : s.curStrand.pc = 8191) : retire s = takeTrap s .branchRange 8192 8191 :=
  if_pos h

/-- A trap with PRIV = 0. -/
theorem takeTrap_eq (s : State) (c : Cause) (v : Word) (epc : BitVec 13) (h : s.curStrand.priv = false) :
    takeTrap s c v epc = s.setCur (s.curStrand.trapped c v epc (s.curTile.ktvec.truncate 13)) := by
  simp only [takeTrap, h, Strand.trapped]
  rfl

/-- A trap with PRIV = 1 does not nest (R30). -/
theorem takeTrap_nested (s : State) (c : Cause) (v : Word) (epc : BitVec 13) (h : s.curStrand.priv = true) :
    takeTrap s c v epc =
      (s.setCur { s.curStrand with pc := epc, waited := 0 }).freezeRegion s.curTile.handle (some .nestedTrap) (some c) [] := by
  simp [takeTrap, h]

/-- An instruction without a scoreboard token on a register that it names ends in its effect. -/
theorem issue_eq (s : State) (rs : List (BitVec 6)) (e : Eff) (h : s.curStrand.holdsAny rs = false) :
    issue s rs e = .next (finish e) := by
  simp [issue, h]

/-- An instruction with a scoreboard token on a register that it names waits (R161). -/
theorem issue_wait (s : State) (rs : List (BitVec 6)) (e : Eff) (h : s.curStrand.holdsAny rs = true) :
    issue s rs e = .next (waitHere s) := by
  simp [issue, h]

/-- An instruction that replaces the issuing strand, keeping its PC, retires. -/
theorem issueStrand_eq (s : State) (rs : List (BitVec 6)) (x : Strand) (h : s.curStrand.holdsAny rs = false)
    (hp : x.pc ≠ 8191) : issueStrand s rs x = .next (s.setCur (x.moved (x.pc + 1))) := by
  rw [issueStrand, issue_eq s rs _ h, finish, retire_eq _ (by simpa using hp)]
  simp

theorem finish_done (s : State) (h : s.curStrand.pc ≠ 8191) :
    finish (.done s) = s.setCur (s.curStrand.moved (s.curStrand.pc + 1)) := retire_eq s h

end Sys2Proof.Machine
end

