-- ==== Sys2Proof/Tests/Slice0.lean ====
section
/-!
SUPPORT. The model's own tests: words of the spec's encodings, ill-formed instructions that are refused, single steps on small
states with results from the spec's tables, and for every statement with hypotheses a state and operands that meet them.
-/
namespace Sys2Proof.Tests
open Sys2Proof.Machine Sys2Proof.Claims

/-! ## Decoding -/

/-- Every word of a list decodes to the instruction beside it. -/
noncomputable def decodesAll (l : List (Word × Instr)) : Bool := l.all fun e => decode e.1 == .ok e.2

/-- Table 3.8 and R121 to R129: words laid out by hand decode to their instructions. -/
theorem test_words_integer1 : decodesAll [
    (0x00042B5A00000000, .add 33 22 45),
    (0x00842B00FFFFFF85, .addI 33 22 0xffffff85),
    (0x01042B5A00000000, .sub 33 22 45),
    (0x01842B00FFFFFF85, .subI 33 22 0xffffff85),
    (0x02042B5A00000000, .mul 33 22 45),
    (0x02842B00FFFFFF85, .mulI 33 22 0xffffff85),
    (0x03042B5A00100000, .mulh 33 22 45 true),
    (0x03842B02FFFFFF85, .mulhI 33 22 true 0xffffff85),
    (0x04042B5A00100000, .div 33 22 45 true),
    (0x04842B02FFFFFF85, .divI 33 22 true 0xffffff85),
    (0x05042B5A00100000, .rem 33 22 45 true),
    (0x05842B02FFFFFF85, .remI 33 22 true 0xffffff85),
    (0x06042B5A00000000, .and 33 22 45),
    (0x06842B00FFFFFF85, .andI 33 22 0xffffff85),
    (0x07042B5A00000000, .or 33 22 45),
    (0x07842B00FFFFFF85, .orI 33 22 0xffffff85),
    (0x08042B5A00000000, .xor 33 22 45),
    (0x08842B00FFFFFF85, .xorI 33 22 0xffffff85),
    (0x09042B5A00000000, .andn 33 22 45),
    (0x09842B00FFFFFF85, .andnI 33 22 0xffffff85),
    (0x0A042B5A00000000, .shl 33 22 45),
    (0x0A842B00FFFFFF85, .shlI 33 22 0xffffff85)] = true := by decide

/-- Table 3.8 and R121 to R129: words laid out by hand decode to their instructions. -/
theorem test_words_integer2 : decodesAll [
    (0x0B042B5A00000000, .shr 33 22 45),
    (0x0B842B00FFFFFF85, .shrI 33 22 0xffffff85),
    (0x0C042B5A00000000, .sar 33 22 45),
    (0x0C842B00FFFFFF85, .sarI 33 22 0xffffff85),
    (0x0D042B5A00000000, .rot 33 22 45),
    (0x0D842B00FFFFFF85, .rotI 33 22 0xffffff85),
    (0x0E042B5A00100000, .min 33 22 45 true),
    (0x0E842B02FFFFFF85, .minI 33 22 true 0xffffff85),
    (0x0F042B5A00100000, .max 33 22 45 true),
    (0x0F842B02FFFFFF85, .maxI 33 22 true 0xffffff85),
    (0x1000CB5A00900000, .cmp 6 22 45 .geu),
    (0x1080CB12FFFFFF85, .cmpI 6 22 .geu 0xffffff85),
    (0x11042B5A00D00000, .sel 33 22 45 true 5),
    (0x11842B1AFFFFFF85, .selI 33 22 true 5 0xffffff85),
    (0x12042B5A00000000, .padd 33 22 45),
    (0x12842B00FFFFFF85, .paddI 33 22 0xffffff85),
    (0x13042B5A00000000, .psub 33 22 45),
    (0x13842B00FFFFFF85, .psubI 33 22 0xffffff85),
    (0x14042B0000000000, .clz 33 22),
    (0x14842B0000000000, .popc 33 22),
    (0x15042B0000000000, .mov 33 22),
    (0x15842000FFFFFF85, .movi 33 0xffffff85)] = true := by decide

/-- Table 3.8 and R121 to R129: words laid out by hand decode to their instructions. -/
theorem test_words_integer3 : decodesAll [
    (0x16042B00FFFFFF85, .movhi 33 22 0xffffff85),
    (0x16842B4CA8000000, .extb 33 22 38 21),
    (0x17042B4CA8000000, .insb 33 22 38 21),
    (0x17842B4C00000000, .sext 33 22 38),
    (0x18042B4C00000000, .zext 33 22 38),
    (0x18842B2C28000000, .pfmt 33 22 22 5),
    (0x19042B0000000000, .pmeta 33 22),
    (0x1980CB2C00000000, .pchk 6 22 22),
    (0x1A00C18A00000000, .pand 6 3 5),
    (0x1A80C18A00000000, .por 6 3 5),
    (0x1B00C18A00000000, .pxor 6 3 5),
    (0x1B80C18000000000, .pnot 6 3),
    (0x1C042B5A00000000, .addW 33 22 45),
    (0x1C842B00FFFFFF85, .addWI 33 22 0xffffff85),
    (0x1D042B5A00000000, .subW 33 22 45),
    (0x1D842B5A00000000, .mulW 33 22 45),
    (0x1E042B00FFFFFF85, .mulWI 33 22 0xffffff85),
    (0x1E842B5A00000000, .shlW 33 22 45),
    (0x1F042B5A00000000, .shrW 33 22 45),
    (0x1F842B5A00000000, .sarW 33 22 45)] = true := by decide

/-- Table 3.8 and R130 to R134: words laid out by hand decode to their instructions. -/
theorem test_words_control : decodesAll [
    (0x20000001FFFFFF85, .br true 0xffffff85),
    (0x20800183FFFFFF85, .brp 3 true true 0xffffff85),
    (0x21042001FFFFFF85, .call 33 true 0xffffff85),
    (0x21800B0000000000, .ret 22),
    (0x22042B0000000000, .jmpr 33 22),
    (0x2280000000000000, .yield),
    (0x2304200080000005, .waitany 33 0x80000005),
    (0x2380000000000000, .endfire)] = true := by decide

/-- Table 3.8 and R136 to R144: words laid out by hand decode to their instructions. -/
theorem test_words_float1 : decodesAll [
    (0x24042B5A03000000, .faddF32 33 22 45 .rdn),
    (0x24842B06FFFFFF85, .faddF32I 33 22 .rdn 0xffffff85),
    (0x25042B5A03000000, .fsubF32 33 22 45 .rdn),
    (0x25842B06FFFFFF85, .fsubF32I 33 22 .rdn 0xffffff85),
    (0x26042B5A03000000, .fmulF32 33 22 45 .rdn),
    (0x26842B06FFFFFF85, .fmulF32I 33 22 .rdn 0xffffff85),
    (0x27042B5BD3000000, .ffmaF32 33 22 45 58 .rdn),
    (0x27842B5A03000000, .fdivF32 33 22 45 .rdn),
    (0x28042B0003000000, .fsqrtF32 33 22 .rdn),
    (0x28842B0000000000, .frsqrtF32 33 22),
    (0x29042B0000000000, .fexp2F32 33 22),
    (0x29842B0000000000, .flog2F32 33 22),
    (0x2A042B0000000000, .fsinF32 33 22),
    (0x2A842B0000000000, .fcosF32 33 22),
    (0x2B042B5A00000000, .fminF32 33 22 45),
    (0x2B842B00FFFFFF85, .fminF32I 33 22 0xffffff85),
    (0x2C042B5A00000000, .fmaxF32 33 22 45),
    (0x2C842B00FFFFFF85, .fmaxF32I 33 22 0xffffff85),
    (0x2D00CB5A00600000, .fcmpF32 6 22 45 .un),
    (0x2D80CB0CFFFFFF85, .fcmpF32I 6 22 .un 0xffffff85),
    (0x2E042B0000000000, .fclassF32 33 22),
    (0x2E842B102A800000, .fcvt 33 22 .int64 .int8 true .rup)] = true := by decide

/-- Table 3.8 and R136 to R144: words laid out by hand decode to their instructions. -/
theorem test_words_float2 : decodesAll [
    (0x2F042B0000000000, .fabsF32 33 22),
    (0x2F842B0000000000, .fnegF32 33 22),
    (0x30042B5A03000000, .faddF16 33 22 45 .rdn),
    (0x30842B5A03000000, .fsubF16 33 22 45 .rdn),
    (0x31042B5A03000000, .fmulF16 33 22 45 .rdn),
    (0x31842B5BD3000000, .ffmaF16 33 22 45 58 .rdn),
    (0x32042B5A03000000, .fdivF16 33 22 45 .rdn),
    (0x32842B0003000000, .fsqrtF16 33 22 .rdn),
    (0x33042B0003000000, .frsqrtF16 33 22 .rdn),
    (0x33842B0003000000, .fexp2F16 33 22 .rdn),
    (0x34042B0003000000, .flog2F16 33 22 .rdn),
    (0x34842B0003000000, .fsinF16 33 22 .rdn),
    (0x35042B0003000000, .fcosF16 33 22 .rdn),
    (0x35842B5A00000000, .fminF16 33 22 45),
    (0x36042B5A00000000, .fmaxF16 33 22 45),
    (0x3680CB5A00600000, .fcmpF16 6 22 45 .un),
    (0x37042B0000000000, .fclassF16 33 22),
    (0x38042B5A03000000, .faddBf16 33 22 45 .rdn),
    (0x38842B5A03000000, .fsubBf16 33 22 45 .rdn),
    (0x39042B5A03000000, .fmulBf16 33 22 45 .rdn),
    (0x39842B5BD3000000, .ffmaBf16 33 22 45 58 .rdn),
    (0x3A042B5A03000000, .fdivBf16 33 22 45 .rdn)] = true := by decide

/-- Table 3.8 and R136 to R144: words laid out by hand decode to their instructions. -/
theorem test_words_float3 : decodesAll [
    (0x3A842B0003000000, .fsqrtBf16 33 22 .rdn),
    (0x3B042B0003000000, .frsqrtBf16 33 22 .rdn),
    (0x3B842B0003000000, .fexp2Bf16 33 22 .rdn),
    (0x3C042B0003000000, .flog2Bf16 33 22 .rdn),
    (0x3C842B0003000000, .fsinBf16 33 22 .rdn),
    (0x3D042B0003000000, .fcosBf16 33 22 .rdn),
    (0x3D842B5A00000000, .fminBf16 33 22 45),
    (0x3E042B5A00000000, .fmaxBf16 33 22 45),
    (0x3E80CB5A00600000, .fcmpBf16 6 22 45 .un),
    (0x3F042B0000000000, .fclassBf16 33 22)] = true := by decide

/-- Table 3.8 and R151 to R163, R271: words laid out by hand decode to their instructions. -/
theorem test_words_memory : decodesAll [
    (0x40042B5B697FFF85, .ld 33 22 45 5 true 2 .acq .waf 0x1fff85),
    (0x40842B5B4A7FFF85, .st 33 22 45 5 2 .rel .waf 0x1fff85),
    (0x41042B5B497FFF85, .ldx 33 22 45 5 .bf16 .acq .waf 0x1fff85),
    (0x41842B5B4A7FFF85, .stx 33 22 45 5 .bf16 .rel .waf 0x1fff85),
    (0x42042B5B693FFF85, .lds 33 22 45 5 true 2 .acq .til 0x1fff85),
    (0x42842B5B4A3FFF85, .sts 33 22 45 5 2 .rel .til 0x1fff85),
    (0x43000B5B401FFF85, .pref 22 45 5 0x1fff85),
    (0x43800B5B401FFF85, .clean 22 45 5 0x1fff85),
    (0x44000B5B401FFF85, .inval 22 45 5 0x1fff85),
    (0x4480000003600000, .fence .ar .waf),
    (0x45042B5B641FFF85, .spb 33 22 45 5 9 0x1fff85),
    (0x45842B5B641FFF85, .fla 33 22 45 5 9 0x1fff85),
    (0x4600000000000000, .spw),
    (0x46842B5BD6F40000, .copy 33 22 45 58 true true .rdn true 5),
    (0x47042B0000000000, .ctest 33 22),
    (0x47842B0000000000, .cwait 33 22)] = true := by decide

/-- Table 3.8 and R167 to R170: words laid out by hand decode to their instructions. -/
theorem test_words_atomic : decodesAll [
    (0x48042B5B4B7FFF85, .amoadd 33 22 45 5 2 .ar .waf 0x1fff85),
    (0x48842B5B4B7FFF85, .amomin 33 22 45 5 2 .ar .waf 0x1fff85),
    (0x49042B5B4B7FFF85, .amomax 33 22 45 5 2 .ar .waf 0x1fff85),
    (0x49842B5B4B7FFF85, .amoand 33 22 45 5 2 .ar .waf 0x1fff85),
    (0x4A042B5B4B7FFF85, .amoor 33 22 45 5 2 .ar .waf 0x1fff85),
    (0x4A842B5B4B7FFF85, .amoxor 33 22 45 5 2 .ar .waf 0x1fff85),
    (0x4B042B5B4B7FFF85, .amoswap 33 22 45 5 2 .ar .waf 0x1fff85),
    (0x4B842B5B4B7FFF85, .cas 33 22 45 5 2 .ar .waf 0x1fff85),
    (0x4C042B5B4B7FFF85, .amofaddF32 33 22 45 5 .ar .waf 0x1fff85),
    (0x50042B5B4B3FFF85, .amoaddSpad 33 22 45 5 2 .ar .til 0x1fff85),
    (0x50842B5B4B3FFF85, .amominSpad 33 22 45 5 2 .ar .til 0x1fff85),
    (0x51042B5B4B3FFF85, .amomaxSpad 33 22 45 5 2 .ar .til 0x1fff85),
    (0x51842B5B4B3FFF85, .amoandSpad 33 22 45 5 2 .ar .til 0x1fff85),
    (0x52042B5B4B3FFF85, .amoorSpad 33 22 45 5 2 .ar .til 0x1fff85),
    (0x52842B5B4B3FFF85, .amoxorSpad 33 22 45 5 2 .ar .til 0x1fff85),
    (0x53042B5B4B3FFF85, .amoswapSpad 33 22 45 5 2 .ar .til 0x1fff85),
    (0x53842B5B4B3FFF85, .casSpad 33 22 45 5 2 .ar .til 0x1fff85),
    (0x54042B5B4B3FFF85, .amofaddF32Spad 33 22 45 5 .ar .til 0x1fff85)] = true := by decide

/-- Table 3.8 and R171 to R178: words laid out by hand decode to their instructions. -/
theorem test_words_queue : decodesAll [
    (0x60026B0000000009, .qpush 19 22 9),
    (0x60826000FFFFFF85, .qpushI 19 0xffffff85),
    (0x61026B0000000009, .qpushs 19 22 9),
    (0x61826000FFFFFF85, .qpushsI 19 0xffffff85),
    (0x62042A8000000009, .qpop 33 21 9),
    (0x62842A8000000009, .qpeek 33 21 9),
    (0x63042A8A00000009, .qtry 33 21 5 9),
    (0x63842A8000000000, .qstat 33 21),
    (0x64026B0000000009, .chsend 19 22 9),
    (0x64826000FFFFFF85, .chsendI 19 0xffffff85),
    (0x65042A8000000009, .chrecv 33 21 9),
    (0x6580035A00000000, .cbwaitF 6 45),
    (0x6600030000001000, .cbwaitFI 6 0x1000),
    (0x6680035A00000000, .cbwaitE 6 45),
    (0x6700030000001000, .cbwaitEI 6 0x1000),
    (0x6780035A00000000, .cbadvP 6 45),
    (0x6800030000001000, .cbadvPI 6 0x1000),
    (0x6880035A00000000, .cbadvC 6 45),
    (0x6900030000001000, .cbadvCI 6 0x1000),
    (0x69812B5A00000000, .cbset 9 22 45),
    (0x6A042301D0000000, .cbget 33 6 58)] = true := by decide

/-- Table 3.8 and R199 to R201: words laid out by hand decode to their instructions. -/
theorem test_words_lane : decodesAll [
    (0x8000005A00000000, .vcfg 45),
    (0x80800000FFFFFF85, .vcfgI 0xffffff85),
    (0x8300405A00000000, .vloop 2 45),
    (0x83804000FFFFFF85, .vloopI 2 0xffffff85),
    (0x8400400000000000, .vend 2),
    (0x8480000000000000, .vsync),
    (0x8101231BC0000000, .vrunHh 9 6 (.reg 13) true 2),
    (0x8182630120008001, .vrunHq 19 6 (.imm 0x8001) true 1),
    (0x82012A8060007FFE, .vrunQh 9 21 (.imm 0x7FFE) false 3),
    (0x82826AD880000000, .vrunQq 19 21 (.reg 44) false)] = true := by decide

/-- Table 3.8 and R210 to R222: words laid out by hand decode to their instructions. -/
theorem test_words_matrix : decodesAll [
    (0xA0000080B4000000, .mldsS 1 .int8 5),
    (0xA0800300A0000000, .mldsH 6 .int8),
    (0xA100000000000000, .mswap),
    (0xA1804300B1580000, .maccNH 2 6 .int8 17 11),
    (0xA2004A80B1580000, .maccNQ 2 21 .int8 17 11),
    (0xA2804300B1580000, .maccTH 2 6 .int8 17 11),
    (0xA3004A80B1580000, .maccTQ 2 21 .int8 17 11),
    (0xA380400000000000, .mzero 2),
    (0xA4000B0100000000, .mscale 22 true),
    (0xA4800000000001A5, .mscaleI true 0xa5),
    (0xA580000120000000, .mgang 9),
    (0xA6000B0000000000, .mperm 22),
    (0xA680408000000000, .mxchg 2 1),
    (0xA501210072000000, .mdrain (.ring 9) 2 .log6 .sr true),
    (0xA502A080FD000000, .mdrain (.queue 21) 1 .int32 .dyn false)] = true := by decide

/-- Table 3.8 and R231 to R235: words laid out by hand decode to their instructions. -/
theorem test_words_inlay : decodesAll [
    (0xA8042B0000000000, .iload 33 22),
    (0xA88003002AC00000, .irunH 6 2 43),
    (0xA9000A802AC00000, .irunQ 21 2 43),
    (0xAA04200100000000, .istat 33 4),
    (0xAA80000020000000, .iunload 2),
    (0xA98120000AD00000, .idrain (.ring 9) .int16 43),
    (0xA982A0002AE00000, .idrain (.queue 21) .int8 43)] = true := by decide

/-- Table 3.8 and R243 to R257: words laid out by hand decode to their instructions. -/
theorem test_words_network : decodesAll [
    (0xC0000B014B400000, .nsend 22 0xa5 5),
    (0xC08003014A200000, .nsendH 6 0xa5 0x1000),
    (0xC10420014B400000, .nrecv 33 0xa5 5),
    (0xC18120014A200000, .nrecvH 9 0xa5 0x1000),
    (0xC2000B014B400000, .nred 22 0xa5 5),
    (0xC28003014A200000, .nredH 6 0xa5 0x1000),
    (0xC3000B014B400000, .nbcast 22 0xa5 5),
    (0xC38003014A200000, .nbcastH 6 0xa5 0x1000),
    (0xC4000B0000000000, .ntok 22),
    (0xC4800000FFFFFF85, .ntokI 0xffffff85),
    (0xC5042B5A00000000, .narm 33 22 45),
    (0xC5842000FFFFFF85, .narmI 33 0xffffff85),
    (0xC600000000000000, .nfence),
    (0xC7000B0000000000, .vnrel 22),
    (0xC7800000FFFFFF85, .vnrelI 0xffffff85),
    (0xC6842B0120000000, .vnwait 33 (.expected 22) 9),
    (0xC6842000D0000000, .vnwait 33 .any 6)] = true := by decide

/-- Table 3.8 and R259 to R270: words laid out by hand decode to their instructions. -/
theorem test_words_version : decodesAll [
    (0xC8042B0100000000, .bar 33 22 true),
    (0xC8842000B6D1006C, .barI 33 44 true 0xb6d1),
    (0xC9042B0000000000, .pvget 33 22),
    (0xC9842000FFFFFF85, .pvgetI 33 0xffffff85),
    (0xCA042B0000000000, .pvpin 33 22),
    (0xCA800B0000000000, .pvunpin 22),
    (0xCB042B0000000000, .pvpubRes 33 22),
    (0xCB042B0100000000, .pvpubCom 33 22),
    (0xCB842B0000000000, .pvswitch 33 22),
    (0xCC042B0000000000, .pvtag 33 22),
    (0xCC800B5A00000000, .stash 22 45),
    (0xCD042B5A00000000, .unstash 33 22 45),
    (0xCD800B0140000000, .srseed 22 5),
    (0xCE00000160000000, .gradarm 44)] = true := by decide

/-- Table 3.8 and R277 to R286: words laid out by hand decode to their instructions. -/
theorem test_words_system : decodesAll [
    (0xE0000B0000000000, .trap 22),
    (0xE0800000FFFFFF85, .trapI 0xffffff85),
    (0xE100000000000000, .eret),
    (0xE184200129800000, .krd 33 0x253),
    (0xE2000B0129800000, .kwr 22 0x253),
    (0xE2800B0000000000, .tlbinv 22),
    (0xE3000B5A00000000, .tlbinvr 22 45),
    (0xE3842B5A00000000, .shoot 33 22 45),
    (0xE4042B0000000000, .freeze 33 22),
    (0xE4842B0000000000, .thaw 33 22),
    (0xE5042B0000000000, .featrd 33 22),
    (0xE5842000FFFFFF85, .featrdI 33 0xffffff85),
    (0xE60000000000B6D1, .brk 0xb6d1),
    (0xE6800B0000000000, .dhalt 22),
    (0xE7000B0000000000, .dresume 22),
    (0xE7842B5A00740000, .bwdderive 33 22 45 58)] = true := by decide

/-- R97: a word with no code, with a one in a field that must be zero, and with a reserved modifier is refused, each by its check. -/
theorem test_refused_words :
    decode 0x7F80000000000000 = .illegalOpcode ∧ decode 0x0000820800000001 = .reservedField ∧
    decode 0x2400000005000000 = .illegalModifier ∧
    decode 0x2400000004000000 = .illegalModifier ∧ decode 0xA18021805F080000 = .illegalModifier := by decide

/-- R72 and Table 3.8 give no instruction to a step of another agent: no word decodes to one. -/
theorem test_events_have_no_word : encode ⟨false, 0⟩ (.firingDispatch 0) = none ∧ encode ⟨false, 0⟩ .gridRetire = none := by decide

/-! ## Well-formed instructions -/

/-- One ill-formed term for each check of wellFormed (R90, R92, R95, Table 5.2 and the entries' own reserved values). -/
theorem test_ill_formed : ([
    .maccNH 0 0 .fp32 31 1, .maccNQ 0 0 .fp32 1 31, .maccTH 0 0 .fp32 16 16, .maccTQ 0 0 .fp32 31 31,
    .mdrain (.ring 0) 0 .fp32 .sr false, .mgang 0, .waitany 1 0,
    .faddF32 1 1 1 .sr, .fsubF32I 1 1 .sr 0, .ffmaF16 1 1 1 1 .sr, .fsqrtBf16 1 1 .sr, .fsinF16 1 1 .sr,
    .fcvt 1 1 .fp32 .int8 true .rne, .fcvt 1 1 .int8 .int16 true .rne, .fcvt 1 1 .fp16 .fp32 false .sr,
    .ld 1 1 1 0 true 3 .plain .str 0, .ld 1 1 1 0 false 0 .rel .waf 0, .ld 1 1 1 0 false 0 .plain .til 0,
    .st 1 1 1 0 0 .acq .waf 0, .ldx 1 1 1 0 .fp32 .ar .waf 0, .stx 1 1 1 0 .fp32 .acq .waf 0,
    .lds 1 1 1 0 false 0 .acq .clu 0, .lds 1 1 1 0 true 3 .plain .str 0, .sts 1 1 1 0 0 .rel .dom 0,
    .fence .plain .str, .spb 49 1 1 0 15 0, .fla 63 1 1 0 1 0, .copy 1 1 1 1 true true .sr false 0,
    .amoadd 1 1 1 0 1 .plain .str 0, .cas 1 1 1 0 2 .plain .waf 0, .amofaddF32 1 1 1 0 .plain .til 0,
    .amoaddSpad 1 1 1 0 3 .ar .clu 0, .casSpad 1 1 1 0 0 .plain .str 0, .amofaddF32Spad 1 1 1 0 .acq .dom 0,
    .qpush 0 63 1, .qpushs 0 49 15, .qpop 63 0 1, .qpeek 60 0 4, .qtry 62 0 0 2, .chsend 0 63 15, .chrecv 63 0 1,
    .cbwaitFI 0 4097, .cbwaitEI 0 4097, .cbadvPI 0 8191, .cbadvCI 0 4097,
    .istat 1 5, .nsend 63 0 1, .nrecv 57 0 7, .nred 60 0 4, .nbcast 62 0 2,
    .nsendH 0 0 4097, .nrecvH 0 0 4097, .nredH 0 0 4097, .nbcastH 0 0 8191, .vnwait 1 .any 0 ] : List Instr).all
      (fun i => !wellFormed i) = true := by decide

/-- The same checks at the values that still pass. -/
theorem test_well_formed : ([
    .maccNH 0 0 .fp32 31 0, .maccTQ 0 0 .fp32 16 15, .mdrain (.ring 0) 0 .bf16 .sr false, .mgang 1, .waitany 1 1,
    .fcvt 1 1 .int16 .int8 true .rne, .fcvt 1 1 .fp32 .fp16 false .sr, .ld 1 1 1 0 true 2 .acq .dom 0, .ld 1 1 1 0 false 3 .plain .str 0,
    .sts 1 1 1 0 3 .rel .til 0, .fence .acq .str, .spb 48 1 1 0 15 0, .amoadd 1 1 1 0 2 .ar .dom 0, .casSpad 1 1 1 0 3 .rel .til 0,
    .qpush 0 48 15, .qpop 63 0 0, .cbwaitFI 0 4096, .istat 1 4, .nsend 56 0 7, .nrecvH 0 0 4096, .vnwait 1 .any 1 ] : List Instr).all
      wellFormed = true := by decide

/-! ## Values of the number formats -/

/-- R73: FP32 0.3 to LOG6 under RNE is 0x09 with NX, and -0.3 is 0x29. -/
theorem test_log6_of_float : convert .fp32 .log6 false .rne 0 0x3E99999A = ⟨0x09, 0x10⟩ ∧
    convert .fp32 .log6 false .rne 0 0xBE99999A = ⟨0x29, 0x10⟩ := by decide

/-- R77: FP32 1/3 to BF16 under SR rounds up for the draw 0x1234 and down for 0xC000, both with NX. -/
theorem test_stochastic_rounding : convert .fp32 .bf16 false .sr 0x1234 0x3EAAAAAB = ⟨0x3EAB, 0x10⟩ ∧
    convert .fp32 .bf16 false .sr 0xC000 0x3EAAAAAB = ⟨0x3EAA, 0x10⟩ := by decide

/-- R66: the codes 0x09, 0x29, 0x10 and 0x20 form the group 0x810A49. -/
theorem test_log6_group : [0, 1, 2, 3].map (fun k => elemCode 7 k 0x810A49) = [0x09, 0x29, 0x10, 0x20] := by decide

/-- R80: the sums 1 + 2^24, then + 1, then - 2^24 round to 2^24, 2^24 and +0. -/
theorem test_port_order_sum :
    let add (a b : Nat) : Nat := (fAdd f32 .rne (unpack f32 a) (unpack f32 b)).bits
    add 0x3F800000 0x4B800000 = 0x4B800000 ∧ add 0x4B800000 0x3F800000 = 0x4B800000 ∧ add 0x4B800000 0xCB800000 = 0 := by decide

/-- The FP32 product 4 × 1.0e38 overflows to infinity with OF and NX (Table 6.10). -/
theorem test_overflow : fMul f32 .rne (unpack f32 0x40800000) (unpack f32 0x7E967699) = ⟨0x7F800000, 0x14⟩ := by decide

/-- R141: the classes of -infinity, the largest normal value, the smallest subnormal, -0 and the two kinds of NaN. -/
theorem test_classes : [0xFF800000, 0x7F7FFFFF, 1, 0x80000000, 0x7F800001, 0x7FC00000].map (fClass f32) =
    [0x001, 0x040, 0x020, 0x008, 0x100, 0x200] := by decide

/-- R137 and Table 4.9: exact results carry no flag. -/
theorem test_exact_functions : fnF32 .exp2 (unpack f32 0x40400000) = ⟨0x41000000, 0⟩ ∧
    fnF32 .log2 (unpack f32 0x41000000) = ⟨0x40400000, 0⟩ ∧ fnF32 .rsqrt (unpack f32 0x40800000) = ⟨0x3F000000, 0⟩ ∧
    fnF32 .sin (unpack f32 0) = ⟨0, 0⟩ ∧ fnF32 .cos (unpack f32 0) = ⟨0x3F800000, 0⟩ := by decide +kernel

/-- SHA-256 of the three bytes of "abc", the digest that FIPS 180-4 prints. -/
theorem test_sha256 : sha256 [0x61, 0x62, 0x63] = [
    0xBA, 0x78, 0x16, 0xBF, 0x8F, 0x01, 0xCF, 0xEA, 0x41, 0x41, 0x40, 0xDE, 0x5D, 0xAE, 0x22, 0x23,
    0xB0, 0x03, 0x61, 0xA3, 0x96, 0x17, 0x7A, 0x9C, 0xB4, 0x10, 0xFF, 0x61, 0xF2, 0x00, 0x15, 0xAD ] := by decide +kernel

/-! ## Single steps on small states -/

/-- The machine after reset with tile 0 as given. -/
def withTile (x : Tile) : State := { State.reset with tiles := [(0, x)] }

/-- The machine after reset with strand 0 of tile 0 as given. -/
def withStrand (x : Strand) : State := withTile (Tile.idle.setStrand 0 x)

/-- The machine after reset with g registers of the issuing strand. -/
def withRegs (g : Table Word) : State := withStrand { Strand.idle 0 with g := g }

/-- Tile 0 bound by region 1, which runs. -/
def inRegion (r : Region) (x : Tile) : State :=
  { State.reset with
    tiles := [(0, { x with bound := some ⟨1, 0, 0⟩ })]
    regions := [(1, { r with info := { r.info with handle := 1 }, phase := .running })] }

/-- A register of the issuing strand in the next state. -/
def regAfter (i : Instr) (s : State) (n : BitVec 6) : Option Word :=
  match exec i s with
  | .next t => some (t.curStrand.rg n)
  | _ => none

/-- Something of the next state. -/
def ofNext {α : Type} (i : Instr) (s : State) (f : State → α) : Option α :=
  match exec i s with
  | .next t => some (f t)
  | _ => none

/-- Table 4.3: the worked integer results. -/
theorem test_table_4_3 :
    regAfter (.div 4 5 6 true) (withRegs [(5, 7)]) 4 = some 0xFFFFFFFFFFFFFFFF ∧
    regAfter (.div 4 5 6 true) (withRegs [(5, 0x8000000000000000), (6, -1)]) 4 = some 0x8000000000000000 ∧
    regAfter (.rem 4 5 6 true) (withRegs [(5, 0x8000000000000000), (6, -1)]) 4 = some 0 ∧
    regAfter (.div 4 5 6 true) (withRegs [(5, -7), (6, 2)]) 4 = some (-3) ∧
    regAfter (.rem 4 5 6 true) (withRegs [(5, -7), (6, 2)]) 4 = some (-1) ∧
    regAfter (.div 4 5 6 false) (withRegs [(5, -1), (6, 2)]) 4 = some 0x7FFFFFFFFFFFFFFF ∧
    regAfter (.rem 4 5 6 false) (withRegs [(5, -1), (6, 2)]) 4 = some 1 ∧
    regAfter (.mulh 4 5 6 false) (withRegs [(5, -1), (6, -1)]) 4 = some 0xFFFFFFFFFFFFFFFE ∧
    regAfter (.mulh 4 5 6 true) (withRegs [(5, -1), (6, -1)]) 4 = some 0 ∧
    regAfter (.addW 4 5 6) (withRegs [(5, 0x7FFFFFFF), (6, 1)]) 4 = some 0xFFFFFFFF80000000 ∧
    regAfter (.shl 4 5 6) (withRegs [(5, 1), (6, 65)]) 4 = some 2 := by decide

/-- Table 4.3: REM.S of 7 by 0 with DZT = 1 leaves 7 and traps DIVZERO with KTVAL 7 and KEPC the next index. -/
theorem test_rem_by_zero_traps :
    ofNext (.rem 4 5 6 true) (withStrand { Strand.idle 0 with g := [(5, 7)], kstatus := 2, pc := 9 })
      (fun t => (t.curStrand.rg 4, t.curStrand.kcause, t.curStrand.ktval, t.curStrand.kepc)) = some (7, 0x30, 7, 10) := by decide

/-- R124: the example of MOVI, MOVHI and EXTB. -/
theorem test_moves :
    regAfter (.movi 4 0x9ABCDEF0) State.reset 4 = some 0xFFFFFFFF9ABCDEF0 ∧
    regAfter (.movhi 4 4 0x12345678) (withRegs [(4, 0xFFFFFFFF9ABCDEF0)]) 4 = some 0x123456789ABCDEF0 ∧
    regAfter (.extb 5 4 60 7) (withRegs [(4, 0x123456789ABCDEF0)]) 5 = some 1 := by decide

/-- R69: the pointer of a BF16 array in blocks of 256 elements. -/
theorem test_pfmt : regAfter (.pfmt 4 5 5 3) (withRegs [(5, 0x0000123456000000)]) 4 = some 0x2B00123456000000 := by decide

/-- R131: CALL of 40 at index 9 goes to 49 and links 10; a target above 8,191 traps and links nothing. -/
theorem test_call :
    ofNext (.call 63 true 40) (withStrand { Strand.idle 0 with pc := 9 }) (fun t => (t.curStrand.pc, t.curStrand.rg 63)) = some (49, 10) ∧
    ofNext (.call 63 true 40) (withStrand { Strand.idle 0 with pc := 8152 })
      (fun t => (t.curStrand.rg 63, t.curStrand.kcause, t.curStrand.ktval)) = some (0, 5, 8192) := by decide

/-- R277: TRAP #0x21 at index 9 saves the next index and goes to KTVEC in handler mode. -/
theorem test_trap :
    ofNext (.trapI 0x21) (withTile { Tile.idle.setStrand 0 { Strand.idle 0 with pc := 9 } with ktvec := 0x100 })
      (fun t => (t.curStrand.pc, t.curStrand.kepc, t.curStrand.kcause, t.curStrand.ktval, t.curStrand.kstatus)) =
      some (0x100, 10, 7, 0x21, 1) := by decide

/-- R278: ERET in a handler goes back to KEPC; outside one it takes PRIVILEGE. -/
theorem test_eret :
    ofNext .eret (withStrand { Strand.idle 0 with kstatus := 1, kepc := 77 }) (fun t => (t.curStrand.pc, t.curStrand.kstatus)) = some (77, 0) ∧
    ofNext .eret State.reset (fun t => t.curStrand.kcause) = some 3 := by decide

/-- R45: KGRID at row 1, column 2 of a 4 × 4 region on the grid of 176 × 168. -/
theorem test_kgrid :
    let s := inRegion { Region.idle with info := { Launch.idle with rows := 4, cols := 4 } } Tile.idle
    regAfter (.krd 4 0x032) { s with
      tiles := [(0, { Tile.idle with bound := some ⟨1, 1, 2⟩ })]
      colCount := [(0, 22), (1, 22), (2, 22), (3, 22), (4, 22), (5, 22), (6, 22), (7, 22)]
      rowCount := [(0, 28), (1, 28), (2, 28), (3, 28), (4, 28), (5, 28)] } 4 = some 0x000001020404A8B0 := by decide

/-- A state whose context 0 maps the page of an address at level 2, as the example of Table 10.1 has it. -/
def mapped : State :=
  { State.reset with
    contexts := [(0, some ⟨0, 0x100000, 0, 0, 0, [], false, 0, [], none⟩)]
    mem := writeNat (writeNat (writeNat [] 0x100000 8 0x200001) 0x200918 8 0x300001) 0x301158 8 0x42000007 }

/-- Table 10.1: the first load through the leaf sets A, and the first store sets D. -/
theorem test_walk_sets_a_and_d :
    ofNext (.ld 4 5 0 0 false 3 .plain .str 0) { mapped with tiles := (withRegs [(5, 0x0000123456000000)]).tiles }
      (fun t => readNat t.mem 0x301158 8) = some 0x4200000F ∧
    ofNext (.st 4 5 0 0 3 .plain .str 0) { mapped with tiles := (withRegs [(5, 0x0000123456000000)]).tiles }
      (fun t => readNat t.mem 0x301158 8) = some 0x4200001F := by decide

/-- R151: a load of an unmapped address takes PAGE_FAULT with KTVAL the address, a misaligned one MISALIGNED. -/
theorem test_load_faults :
    ofNext (.ld 4 5 0 0 false 3 .plain .str 8) (withRegs [(5, 0x5000)]) (fun t => (t.curStrand.kcause, t.curStrand.ktval)) =
      some (0x11, 0x5008) ∧
    ofNext (.ld 4 5 0 0 false 3 .plain .str 4) (withRegs [(5, 0x5000)]) (fun t => (t.curStrand.kcause, t.curStrand.ktval)) =
      some (0x10, 0x5004) := by decide

/-- R153: element 37 of a SCALED pointer in blocks of 32 lies behind the scale byte at VA + 28, in group 1 at VA + 35, field 1. -/
theorem test_scaled_element : elemAt 0x4800200000000000 37 = ⟨0x0000200000000023, 1, some 0x000020000000001C⟩ := by decide

/-- R154: its value 1.414214 × 4 as FP32. -/
theorem test_scaled_value : fromMem 9 .fp32 .rne 0 0x81 (elemCode 9 1 0x000480) = ⟨0x40B504F3, 0⟩ := by decide

/-- R156: LDS.S16 sign-extends what the scratchpad holds; the last offset of a bank that is L1 takes SPAD_RANGE. -/
theorem test_scratchpad :
    regAfter (.lds 4 0 0 0 true 1 .plain .str 0x10) (withTile { Tile.idle with spad := [(0x11, 0x80)] }) 4 = some 0xFFFFFFFFFFFF8000 ∧
    ofNext (.sts 0 0 0 0 0 .plain .str 0xFFFF) (withTile { Tile.idle with banks := 0xFFE }) (fun t => t.curStrand.kcause) = some 0x17 := by
  decide

/-- R169: AMOMIN.SPAD compares as signed numbers and gives the old word. -/
theorem test_amomin :
    ofNext (.amominSpad 4 0 0 0 2 .plain .str 0) (withTile { Tile.idle.setStrand 0 { Strand.idle 0 with g := [(4, 5)] } with
      spad := [(0, 0xFE), (1, 0xFF), (2, 0xFF), (3, 0xFF)] })
      (fun t => (t.curStrand.rg 4, readNat t.curTile.spad 0 4)) = some (0xFFFFFFFE, 0xFFFFFFFE) := by decide

/-- R174: QSTAT of an output port that holds a flagged scale token. -/
theorem test_qstat :
    regAfter (.qstat 4 3) (withTile { Tile.idle with queues := [(3, .output 1)], ports := [(1, [⟨9, true, true, ⟨0, 0, 255, 0, 0⟩⟩])] }) 4 =
      some 0x100E4 := by decide

/-- R177: CBADV.P past COUNT slots takes RING_OVERFLOW with KTVAL n and the handle. -/
theorem test_ring_overflow :
    ofNext (.cbadvPI 2 1) (withTile { Tile.idle with handles := [(2, ⟨0, 0, 3, 0x1000, 0⟩)] })
      (fun t => (t.curStrand.kcause, t.curStrand.ktval)) = some (0x44, 0x12) ∧
    ofNext (.cbadvPI 2 1) (withTile { Tile.idle with handles := [(2, ⟨0, 0, 3, 3, 0⟩)] })
      (fun t => (t.curTile.ring 2).fill) = some 0x1000 := by decide

/-- Table 6.10, lanes 0 and 1: 4 × 1.5 is 6.0, 4 × 1.0e38 is infinity with OF and NX, and a value below 0 steers to K1. -/
theorem test_lanes :
    let mul : LaneEntry := ⟨0x03, 0, 1, 0, false, 0, 0, 0, 0x40800000⟩
    let slt : LaneEntry := ⟨0x18, 0, 1, 0, false, 0, 0, 0, 0⟩
    mul.apply 127 0 0x3FC00000 0x40800000 = (0x40C00000, 0) ∧ mul.apply 127 0 0x7E967699 0x40800000 = (0x7F800000, 0x14) ∧
    slt.apply 127 0 0xC1000000 0 = (0, 0) ∧ slt.apply 127 0 0x40C00000 0 = (0x40C00000, 0) := by decide

/-- The sums of cell (0, 0) of the matrix example: 2^24, 1, -2^24 and 1 leave 1.0. -/
theorem test_matrix_order :
    let w : Table Nat := (upFrom 0 32).map fun k => (32 * k, 0x3F80)
    (accumulate (cellProducts ⟨w, 2, 127⟩ false 2 ⟨[0x4B80, 0x3F80, 0xCB80, 0x3F80], 127, false⟩ 0) 0 0).1 = 0x3F800000 := by decide +kernel

/-- The shift-and-add graph of the spec's example. -/
def sharedGraph : List (BitVec 32) := [0xE0182080, 0x22400800, 0x22401000, 0xA1000000, 0xA1001002, 0, 0, 0]

/-- R231: the graph is well formed, of depth 2. -/
theorem test_graph_depth : checkGraph sharedGraph = .ok 2 := by decide

/-- R234: the vectors (10, -3) and (-128, 127) give (30, 57) and (-384, -641). -/
theorem test_graph_outputs :
    let x := Inlay.idle.install 0 0 2 sharedGraph
    (x.graph 0).map (fun g => (x.eval g [(10, false), (-3, false)]).vals) = some [(0x1E, false), (0x39, false)] ∧
    (x.graph 0).map (fun g => (x.eval g [(-128, false), (127, false)]).vals) = some [(0xFFFFFE80, false), (0xFFFFFD7F, false)] := by
  decide +kernel

/-- R239: the codes of the Inlay fabric, of the registry and of the backward derivation need feature bits 2, 5 and 8. -/
theorem test_gates : gateOf 0x150 = some 2 ∧ gateOf 0x155 = some 2 ∧ gateOf 0x156 = none ∧ gateOf 0x192 = some 5 ∧ gateOf 0x198 = some 5 ∧
    gateOf 0x199 = none ∧ gateOf 0x1CF = some 8 := by decide

/-- R86 and R97: a step runs the word at PC, here ADDI g4, g4, #1; a false guard only moves PC on; a word without a code takes
ILLEGAL_OPCODE with the word as KTVAL. -/
theorem test_steps :
    let after (w : Nat) : Option (BitVec 13 × Word × Word) := match step (State.reset.withFetchWord 64 w) with
      | .next t => some (((t.tile 0).strand 0).pc, ((t.tile 0).strand 0).rg 4, ((t.tile 0).strand 0).ktval)
      | _ => none
    after 0x0080820000000001 = some (1, 1, 0) ∧ after 0x00C0820000000001 = some (1, 0, 0) ∧
    after 0x7F80000000000000 = some (0, 0, 0x7F80000000000000) := by decide

/-! ## States that meet the hypotheses of the statements

Each theorem names a statement and shows, clause by clause, a state and operands that meet the clause's hypotheses, at a boundary of
its range where it has one.
-/

/-- The strand of tile 0 with a control status. -/
def withStatus (k : Word) : State := withStrand { Strand.idle 0 with kstatus := k }

theorem wit_DivisionResults :
    (Ready (withRegs [(3, 1)]) [1, 2, 3] ∧ (withRegs [(3, 1)]).curStrand.rg 3 ≠ 0) ∧
    (Ready State.reset [1, 2, 3] ∧ State.reset.curStrand.rg 3 = 0 ∧ State.reset.curStrand.kstatus.getLsbD 1 = false) ∧
    (Ready (withStatus 2) [1, 2, 3] ∧ (withStatus 2).curStrand.rg 3 = 0 ∧ (withStatus 2).curStrand.kstatus.getLsbD 1 = true) ∧
    (1 : BitVec 32) ≠ 0 := by unfold Ready Free; decide

theorem wit_IntegerForms : Ready State.reset [1, 2, 3] ∧ Ready State.reset [1, 2] := by unfold Ready Free; decide

theorem wit_MoveAndPointerForms :
    Ready (withStrand { Strand.idle 0 with pc := 8190 }) [63, 62, 61] ∧ Ready State.reset [63] ∧ Ready State.reset [] := by
  unfold Ready Free; decide

theorem wit_FloatResults :
    (∃ p, fpDoes State.reset (.fdivF32 1 2 3 .rne) = some p ∧ Ready State.reset p.regs ∧ NoTrap State.reset p.res.fl ∧ p.res.fl = 1) ∧
    ∃ p, fpDoes (withStatus 8) (.faddF32I 1 2 .dyn 0x3F800000) = some p ∧ Ready (withStatus 8) p.regs ∧ NoTrap (withStatus 8) p.res.fl :=
  ⟨⟨_, rfl, by unfold Ready Free NoTrap; decide⟩, ⟨_, rfl, by unfold Ready Free NoTrap; decide⟩⟩

theorem wit_RoundingKeepsValues :
    (0xFF800000 < 2 ^ (f32.eb + f32.mb + 1) ∧ (unpack f32 0xFF800000).isNan = false) ∧
    (1 < 2 ^ (f16.eb + f16.mb + 1) ∧ (unpack f16 1).isNan = false) ∧ 0x7F7F < 2 ^ (b16.eb + b16.mb + 1) ∧ (unpack b16 0x7F7F).isNan = false := by
  decide

/-- The strand of tile 0 with a control status, on a machine that has accepted some features. -/
def withFeatures (k : Word) (f : BitVec 256) : State := { withStatus k with accepted := f }

theorem wit_ConvertResults :
    (Ready State.reset [1, 2] ∧ NoTrap State.reset (convert .fp32 .int8 false .rne 0 0).fl) ∧
    (Ready (withStatus 0x40) [1, 2] ∧ CvtFmt.int8.narrowing .fp32 = false) ∧
    (Ready (withFeatures 0 0x40) [1, 2] ∧ (withFeatures 0 0x40).accepted.getLsbD 6 = true) ∧
    (Ready (withFeatures 0xC0 0x40) [1, 2] ∧ (withFeatures 0xC0 0x40).curStrand.kstatus.toNat / 16 % 8 = 4 ∧
      CvtFmt.fp32.narrowing .fp16 = true ∧ (withFeatures 0xC0 0x40).curStrand.kstatus.getLsbD 7 = true) ∧
    (Ready (withStatus 0x40) [1, 2] ∧ (withStatus 0x40).curStrand.kstatus.toNat / 16 % 8 = 4 ∧
      (withStatus 0x40).curStrand.kstatus.getLsbD 7 = false) ∧
    (Ready (withStatus 8) [1, 2] ∧ ¬ NoTrap (withStatus 8) (convert .fp32 .int8 false .rne 0 0x43000000).fl) := by
  unfold Ready Free NoTrap; decide

theorem wit_FloatCompareRules :
    (Ready State.reset [1, 2] ∧ NoTrap State.reset 1) ∧
    (Ready (withStatus 8) [1, 2] ∧ ¬ NoTrap (withStatus 8) 1) ∧
    (0xFF800000 / 2 ^ 23 % 2 ^ 8 = 255 ∧ 0xFF800000 % 2 ^ 23 = 0) ∧ (0 < 0x00800000 / 2 ^ 23 % 2 ^ 8 ∧ 0x7F7FFFFF / 2 ^ 23 % 2 ^ 8 < 255) ∧
    (1 / 2 ^ 23 % 2 ^ 8 = 0 ∧ 1 % 2 ^ 23 ≠ 0) ∧ (0x80000000 / 2 ^ 23 % 2 ^ 8 = 0 ∧ 0x80000000 % 2 ^ 23 = 0) ∧
    (0x7FBFFFFF / 2 ^ 23 % 2 ^ 8 = 255 ∧ 0x7FBFFFFF % 2 ^ 23 < 2 ^ 22) ∧ 2 ^ 22 ≤ 0x7FC00000 % 2 ^ 23 := by
  unfold Ready Free NoTrap; decide

theorem wit_FloatExceptions :
    (∃ p, fpDoes (withStatus 8) (.fdivF32 1 2 3 .rne) = some p ∧ Ready (withStatus 8) p.regs ∧
      (withStatus 8).curStrand.kstatus.getLsbD 3 = true ∧ p.res.fl &&& 0x67 ≠ 0) ∧
    (FpNum.nan true).isNan = true ∧ (1 : Nat) ≠ 0 := by
  refine ⟨⟨_, rfl, ?_⟩, rfl, by decide⟩
  unfold Ready Free; decide

theorem wit_ControlFlow :
    State.reset.curStrand.pc ≠ 8191 ∧ (withStrand { Strand.idle 0 with pc := 8191 }).curStrand.pc = 8191 ∧
    ((0 : Int) ≤ 8191 + (0 : BitVec 32).toInt ∧ 8191 + (0 : BitVec 32).toInt ≤ (8191 : Int)) ∧
    ¬ (8191 + (1 : BitVec 32).toInt ≤ (8191 : Int)) ∧ ¬ ((0 : Int) ≤ 0 + (-1 : BitVec 32).toInt) ∧
    State.reset.curStrand.rp 0 ≠ false ∧ State.reset.curStrand.rp 1 = false ∧ Free State.reset [1, 2] ∧
    ((withRegs [(2, 8191)]).curStrand.rg 2).toNat ≤ 8191 ∧ 8191 < ((withRegs [(2, 8192)]).curStrand.rg 2).toNat := by
  unfold Free; decide

theorem wit_ChecksBeforeIssue :
    (let s := withStrand { Strand.idle 0 with tokens := 0x8000000000000002 }
     (1 ∈ gNames (.add 2 3 1) ∧ 63 ∈ gNames (.qpop 48 3 15)) ∧ s.curStrand.tokens.getLsbD 1 = true ∧ s.curStrand.tokens.getLsbD 63 = true ∧
       (Free s [2, 3] ∧ (s.ea 2 3 0 8).toNat % 8 = 0 ∧ 63 ∈ span 48 16)) ∧
    (Free State.reset [2, 3] ∧ (State.reset.ea 2 3 0 8).toNat % 8 = 0 ∧ Free State.reset (span 48 16) ∧ State.reset.curStrand.pc ≠ 8191 ∧
      State.reset.curStrand.tokens.getLsbD 0 = false) ∧
    (Free State.reset [1, 2, 3] ∧ State.reset.curStrand.kstatus.getLsbD 0 = false ∧
      (0x012 : BitVec 10).toNat ∈ [0x001, 0x002, 0x003, 0x004, 0x008, 0x009, 0x00A, 0x00B, 0x012]) := by unfold Free; decide

/-- A region of one tile that runs, with tile 0 in it. -/
def running (x : Tile) : State := inRegion { Region.idle with tiles := [0] } x

theorem wit_TrapsAndReturns :
    State.reset.curStrand.kstatus.getLsbD 0 = false ∧
    (let s := running (Tile.idle.setStrand 0 { Strand.idle 0 with kstatus := 1 })
     s.curStrand.kstatus.getLsbD 0 = true ∧ s.live s.curTile.handle = true ∧ (s.region s.curTile.handle).phase = .running) ∧
    Free State.reset [1] ∧
    (let x := (withStatus 1).curStrand
     x.kstatus.getLsbD 0 = true ∧ x.kspill.getLsbD 6 = false) ∧
    (let x := (withStrand { Strand.idle 0 with kstatus := 1, kspill := 0x4C }).curStrand
     x.kstatus.getLsbD 0 = true ∧ x.kspill.getLsbD 6 = true) ∧
    (let x := (withStrand { Strand.idle 0 with kstatus := 1, kepc := 8191, parked := some (8191, .arrived 4) }).curStrand
     x.parked = some (x.kepc.truncate 13, .arrived 4)) := by unfold Free; decide

theorem wit_ControlRegisterReads :
    (Ready State.reset [1] ∧ ((0x010 : BitVec 10).toNat, 0) ∈ kregs State.reset ∧ (0x010 : BitVec 10).toNat ∉ privRegs) ∧
    (((0x012 : BitVec 10).toNat, 0) ∈ kregs (withStatus 1) ∧ (withStatus 1).curStrand.kstatus.getLsbD 0 = true) ∧
    (Free State.reset [1, 2] ∧ (0x041 : BitVec 10).toNat ∉ (kregs State.reset).map (·.1) ∧
      (0x3FF : BitVec 10).toNat ∉ (kregs State.reset).map (·.1)) := by unfold Ready Free; decide

theorem wit_ControlAndStatusWrites :
    (Ready (withStatus 1) [1] ∧ (withStatus 1).curStrand.kstatus.getLsbD 0 = true) ∧
    ((0x040 : BitVec 10).toNat ∈ [0x011, 0x020, 0x021, 0x022, 0x023, 0x024, 0x025, 0x026, 0x027, 0x030, 0x031, 0x032, 0x040]) ∧
    (∃ i ∈ [15, 13, 12, 11, 0], ((withRegs [(1, 0x8000)]).curStrand.rg 1).getLsbD i ≠ (withRegs [(1, 0x8000)]).curStrand.kstatus.getLsbD i) ∧
    ((∀ i ∈ [15, 13, 12, 11, 0], ((withRegs [(1, 0x80)]).curStrand.rg 1).getLsbD i = (withRegs [(1, 0x80)]).curStrand.kstatus.getLsbD i) ∧
      ((withRegs [(1, 0x80)]).curStrand.rg 1).getLsbD 7 ≠ (withRegs [(1, 0x80)]).curStrand.kstatus.getLsbD 7 ∧
      (withRegs [(1, 0x80)]).curStrand.kstatus.getLsbD 0 = false) ∧
    (∀ i ∈ [15, 13, 12, 11, 0], ((withRegs [(1, 0x7A)]).curStrand.rg 1).getLsbD i = (withRegs [(1, 0x7A)]).curStrand.kstatus.getLsbD i) ∧
    (∀ i ∈ [7, 14], ((withRegs [(1, 0x7A)]).curStrand.rg 1).getLsbD i = (withRegs [(1, 0x7A)]).curStrand.kstatus.getLsbD i) := by
  unfold Ready Free; decide

theorem wit_TranslationShootdown :
    (Ready (withStatus 1) [1, 2, 3] ∧ (withStatus 1).curStrand.kstatus.getLsbD 0 = true ∧ (withStatus 1).curStrand.rg 2 = 0) ∧
    (let s := withStrand { Strand.idle 0 with kstatus := 1, g := [(2, 1)] }
     Ready s [1, 2] ∧ s.curStrand.kstatus.getLsbD 0 = true ∧ s.curStrand.rg 2 ≠ 0) ∧
    (let s := { withStrand { Strand.idle 0 with kstatus := 1, hold := .shoot 4 } with shoots := [(4, some ⟨⟨0, false, 0, 1⟩, [], [], 2⟩)] }
     s.curStrand.hold = .shoot 4 ∧ s.shootOf 4 = some ⟨⟨0, false, 0, 1⟩, [], [], 2⟩) ∧
    (let s := { withStrand { Strand.idle 0 with kstatus := 1, hold := .shoot 4 } with shoots := [(4, some ⟨⟨0, false, 0, 1⟩, [1], [], 0⟩)] }
     s.curStrand.hold = .shoot 4 ∧ s.shootOf 4 = some ⟨⟨0, false, 0, 1⟩, [1], [], 0⟩ ∧ [1] ≠ ([] : List Nat)) ∧
    (withStatus 1).curStrand.hold = .none := by unfold Ready Free; decide

/-- A strand in a trap handler of a context whose table has its root in a module, with module 1 in the domain but out of reach. -/
def shooting (root : BitVec 56) : State :=
  { withStatus 1 with accepted := 0x80, domain := [0, 1], unreachable := [1], contexts := [(0, some ⟨0, root, 0, 0, 0, [], false, 0, [], none⟩)] }

theorem wit_TranslationShootdown_home :
    ((shooting 0x100000).isHome (shooting 0x100000).curRegion.info.ctx = true ∧
      ((shooting 0x100000).others).Nodup ∧ (shooting 0x100000).unreachable.contains 1 = true ∧
      tabGet [] (shooting 0x100000).pendingShoot 1 = []) ∧
    ((shooting 0x100000).holders 0).Nodup ∧
    (Config.holdsContext 1 0 0 = true → 1 ∈ (shooting 0x100000).holders 0) ∧
    (shooting 0x1000000000000).isHome (shooting 0x1000000000000).curRegion.info.ctx = false := by
  have o : (shooting 0x100000).others = [1] := by decide
  have z : (shooting 0x100000).steps = 0 := rfl
  refine ⟨by decide, List.Pairwise.filter _ (by rw [o]; decide), fun h => ?_, by decide⟩
  · simp only [State.holders, o, z, h, List.filter_cons, if_true, List.mem_cons, true_or]

/-- A machine with a region 2 of context 0 in a phase; tile 0 belongs to no region, and its strand handles a trap and holds. -/
def besideRegion (p : Phase) (h : Hold) : State :=
  { withStrand { Strand.idle 0 with kstatus := 1, hold := h } with
    regions := [(2, { Region.idle with info := { Launch.idle with handle := 2 }, phase := p })] }

theorem wit_MachineControlInstructions :
    (Ready State.reset [1, 2] ∧ State.reset.context State.reset.curRegion.info.ctx = none) ∧
    ({ State.reset with contexts := [(0, some ⟨0, 0, 0, 0, 0, [], true, 0, [], none⟩)] } : State).context 0 = some ⟨0, 0, 0, 0, 0, [], true, 0, [], none⟩ ∧
    (Ready (withStatus 1) [1] ∧ (withStatus 1).curStrand.kstatus.getLsbD 0 = true) ∧
    (Free (withStatus 1) [1, 2] ∧ (withStatus 1).curStrand.hold = .none ∧ (withStatus 1).regionsOf 0 = []) ∧
    ((besideRegion .frozen .none).regionsOf 0 ≠ [] ∧ ∀ q ∈ (besideRegion .frozen .none).regionsOf 0, q.phase = .frozen) ∧
    ((besideRegion .running .none).regionsOf 0 ≠ [] ∧ ∀ q ∈ (besideRegion .running .none).regionsOf 0, q.phase ≠ .frozen) ∧
    (let s := running (Tile.idle.setStrand 0 { Strand.idle 0 with kstatus := 1 })
     ∃ r, s.regionsOf 0 = [r] ∧ r.phase ≠ .frozen ∧ r.info.handle = s.curTile.handle) ∧
    (∃ r, (besideRegion .running .none).regionsOf 0 = [r] ∧ r.phase ≠ .frozen ∧
      r.info.handle ≠ (besideRegion .running .none).curTile.handle ∧ (besideRegion .running .none).region r.info.handle = r ∧
      r.phase ≠ .freezing) ∧
    (∃ r, (besideRegion .frozen .none).regionsOf 0 = [r] ∧ r.phase = .frozen ∧ (besideRegion .frozen .none).region r.info.handle = r ∧
      r.awaiting = false) ∧
    (let s := besideRegion .frozen .none
     ∃ r, ({ s with regions := [(2, { s.region 2 with awaiting := true })] } : State).regionsOf 0 = [r] ∧ r.phase = .frozen ∧ r.awaiting = true) ∧
    ((besideRegion .freezing (.freezing 2 0)).curStrand.hold = .freezing 2 0 ∧ (besideRegion .freezing (.freezing 2 0)).live 2 = true ∧
      ((besideRegion .freezing (.freezing 2 0)).region 2).saves = 0 ∧ ((besideRegion .frozen (.freezing 2 1)).region 2).saves ≠ 1) ∧
    ((besideRegion .thawing (.thawing 2 0)).live 2 = true ∧ ((besideRegion .thawing (.thawing 2 0)).region 2).thaws = 0 ∧
      ((besideRegion .running (.thawing 2 1)).region 2).thaws ≠ 1) ∧
    (withStrand { Strand.idle 0 with kstatus := 1, hold := .thawing 2 0 }).live 2 = false := by
  refine ⟨?_, ?_, ?_, ?_, ?_, ?_, ⟨_, rfl, ?_⟩, ⟨_, rfl, ?_⟩, ⟨_, rfl, ?_⟩, ⟨_, rfl, ?_⟩, ?_⟩ <;> (try unfold Ready) <;> (try unfold Free) <;> decide

/-- The machine of the example of Table 10.1 with g registers of its strand. -/
def mappedWith (g : Table Word) : State := { mapped with tiles := (withRegs g).tiles }

theorem wit_LoadsAndStores :
    (Free (mappedWith [(5, 0x123456000001)]) [4, 5, 0] ∧ (eaOf (mappedWith [(5, 0x123456000001)]) 5 0 0 0).toNat % 2 ≠ 0) ∧
    (let s := mappedWith [(5, 0x123456000000)]
     let va := eaOf s 5 0 0 0
     va.toNat % 8 = 0 ∧
     (∃ s1 pa s2 bs, Translates s va false s1 pa ∧ readPas false (va.zeroExtend 64) s1 (upFrom pa 8) = .ok (s2, bs)) ∧
     ∃ s1 pa, Translates s va true s1 pa) := by
  refine ⟨by unfold Free; decide, by decide, ⟨_, _, _, _, rfl, rfl⟩, ⟨_, _, rfl⟩⟩

/-- A strand that loads from page 1 of a context without a table, with marks of its own, and requests of its cluster. -/
def faulting (recs waits : List FaultRec) (marks : List Mark) : State :=
  { withStrand { Strand.idle 0 with g := [(5, 0x5000)], marks := marks } with
    clusters := [(0, { Cluster.idle with records := recs, waiting := waits })] }

/-- A request of context 0 for an address, of a tag. -/
def requested (va : BitVec 56) (tag : Nat) : FaultRec := ⟨0, 0, 1, false, tag, va, 0, 0, 0, 0, 0, 0, true⟩

theorem wit_LoadsAndStores_faults :
    let page := (eaOf (faulting [] [] []) 5 0 0 0).toNat / 16384
    (let s := faulting [] [] [⟨0, 7, 2, .waiting, false⟩]
     Free s [4, 5, 0] ∧ (eaOf s 5 0 0 0).toNat % 8 = 0 ∧ Misses s (eaOf s 5 0 0 0) ∧ ∀ m ∈ s.curStrand.marks, m.page ≠ page) ∧
    ((faulting [requested 0x8000 0] [] []).cluster 0).outstanding 0 page = none ∧
    ((faulting (List.replicate 63 (requested 0x8000 0)) [] []).cluster 0).records.length < 64 ∧
    ((faulting [requested 0x7FFF 5] [] []).cluster 0).outstanding 0 page = some (requested 0x7FFF 5) ∧
    (let c := (faulting (List.replicate 64 (requested 0x8000 0)) [] []).cluster 0
     c.outstanding 0 page = none ∧ 64 ≤ c.records.length) ∧
    (∀ a ∈ [Answer.waiting, .mapped, .denied], ∀ o,
      let m : Mark := ⟨0, 5, 1, a, o⟩
      (faulting [] [] [⟨0, 7, 2, .waiting, false⟩, m]).curStrand.marks.find? (fun m => m.page == page) = some m) ∧
    (∃ q ∈ ((faulting [] [requested 0x5000 5] []).cluster 0).waiting, q.tag = 5) ∧
    (∀ q ∈ ((faulting [] [requested 0x5000 6] []).cluster 0).waiting, q.tag ≠ 5) := by
  refine ⟨?_, by decide, ?_, by decide, ?_, by decide, by decide, by decide⟩
  · unfold Free Misses; decide
  · exact Nat.lt_of_le_of_lt (Nat.le_of_eq List.length_replicate) (by decide)
  · exact ⟨by decide +kernel, Nat.le_of_eq List.length_replicate.symm⟩

/-- A tile whose L1 holds line 3, dirty in its last byte. -/
def dirtyLine : Tile := { Tile.idle with l1 := [(3, ⟨0, 0x80000000⟩)], banks := 0xFFE }

theorem wit_MemoryFrames :
    (let s := mappedWith [(5, 0x123456000000)]
     let va := eaOf s 5 0 0 0
     Ready s [4, 5, 0] ∧ va.toNat % 8 = 0 ∧
     (∃ s1 pa s2 bs, Translates s va false s1 pa ∧ readPas false (va.zeroExtend 64) s1 (upFrom pa 8) = .ok (s2, bs)) ∧
     (∃ s1 pa, Translates s va true s1 pa) ∧ InPte s va 0x30115F) ∧
    ¬ DirtyAt (withTile dirtyLine) 0 126 ∧ DirtyAt (withTile dirtyLine) 0 127 := by
  refine ⟨⟨by unfold Ready Free; decide, by decide, ⟨_, _, _, _, rfl, rfl⟩, ⟨_, _, rfl⟩, ⟨0x301158, 0x42000007, 25, by decide, by decide, by decide⟩⟩, ?_, ⟨_, rfl, by decide⟩⟩
  rintro ⟨l, h, d⟩
  cases h
  revert d; decide

theorem wit_ScratchpadAccess :
    (Ready State.reset [4, 0, 0] ∧ (eaOf State.reset 0 0 0 0xBFFFE).toNat % 2 = 0 ∧ InSpad State.reset.curTile (eaOf State.reset 0 0 0 0xBFFFE).toNat) ∧
    (eaOf State.reset 0 0 0 1).toNat % 2 ≠ 0 ∧
    (let s := withTile { Tile.idle with slots := [(3, { Slot.idle with state := .full })] }
     (eaOf s 0 0 0 0xC3FFF).toNat < 0xC4000 ∧ (s.curTile.slot 3).state = .full ∧ (s.curTile.slot 0).state ≠ .full) ∧
    (¬ InSpad (withTile { Tile.idle with banks := 0x7FF }).curTile 0xB0000 ∧ ¬ InSpad State.reset.curTile 0xC4000) := by
  (try unfold Ready); (try unfold Free); unfold InSpad; decide

theorem wit_LineOperations :
    (let s := mappedWith [(5, 0x123456000000)]
     Free s [5, 0] ∧ s.peekPa s.cur.tile (eaOf s 5 0 0 0) = some 0x42000000) ∧
    (State.reset.peekPa State.reset.cur.tile (eaOf State.reset 5 0 0 0) = none) ∧ DirtyAt (withTile dirtyLine) 0 127 ∧ 127 / 32 = 3 := by
  refine ⟨?_, ?_, ⟨_, rfl, by decide⟩, rfl⟩
  · unfold Free; decide
  · decide

theorem wit_ElementLoadsAndStores :
    (let s := mappedWith [(5, 0x3000123456000000)]
     let p := elemAt (s.curStrand.rg 5) 0
     Free s [4, 5, 0] ∧ ∃ m s1 spa s2 pas s3 e8 s4 bs, ldxStart s (s.curStrand.rg 5) .fp32 false p = .ok m ∧
       strandPas false s p.scaleAt.toList = .ok (s1, spa) ∧ strandPas false s1 (vaRange p.addr 4) = .ok (s2, pas) ∧
       readScale false s2 p spa = .ok (s3, e8) ∧ readPas false (p.addr.zeroExtend 64) s3 pas = .ok (s4, bs)) ∧
    (let s := mappedWith [(5, 0x3000123456000000)]
     let p := elemAt (s.curStrand.rg 5) 0
     ∃ m s1 spa s2 pas s3 e8 s4 old, ldxStart s (s.curStrand.rg 5) .fp32 true p = .ok m ∧
       strandPas false s p.scaleAt.toList = .ok (s1, spa) ∧ strandPas true s1 (vaRange p.addr 4) = .ok (s2, pas) ∧
       readScale false s2 p spa = .ok (s3, e8) ∧ (.ok (s3, []) : M (State × List Byte)) = .ok (s4, old)) ∧
    ¬ NoTrap (withStatus 8) 1 ∧
    (9 < (0x5000000000000000 : Word).toNat / 2 ^ 59 ∧ Free (withRegs [(5, 0x5000000000000000)]) [4, 5, 0] ∧
      (withRegs [(5, 0x5000000000000000)]).curStrand.rg 5 = 0x5000000000000000) := by
  refine ⟨⟨by unfold Free; decide, _, _, _, _, _, _, _, _, _, rfl, rfl, rfl, rfl, rfl⟩, ⟨_, _, _, _, _, _, _, _, _, rfl, rfl, rfl, rfl, rfl⟩, ?_⟩
  unfold Free NoTrap; decide

theorem wit_TranslationAndMemory :
    (let e : TlbEntry := ⟨0, 0, 14, 1, 0x4000, true, false, true⟩
     let x := { Tile.idle with dtlb := [e] }
     let s := withTile x
     (x.strand 0).marks = [] ∧
     x.dtlb.find? (fun e => e.ctx == (s.regionOf 0).info.ctx && e.gen == s.genOf 0 && e.vpage == (0x7FFF : BitVec 56).toNat / 2 ^ e.z) = some e ∧
     s.reach (e.pa.toNat + (0x7FFF : BitVec 56).toNat % 2 ^ e.z) = .ok) ∧
    (let e : TlbEntry := ⟨0, 0, 14, 1, 0x1000000004000, true, false, true⟩
     let x := { Tile.idle.setStrand 0 { Strand.idle 0 with nacked := true } with dtlb := [e] }
     let s := { withTile x with accepted := 0x80, domain := [0, 1] }
     let pa := e.pa.toNat + (0x7FFF : BitVec 56).toNat % 2 ^ e.z
     s.reach pa = .ok ∧ (x.strand 0).nacked = true ∧ pa / 2 ^ 48 % 256 ≠ s.moduleNumber.toNat) ∧
    Memory.wf [(0, 1), (9, 255)] = true := by decide

theorem wit_Atomics :
    (let s := mappedWith [(5, 0x123456000000)]
     let va := eaOf s 5 0 0 0
     Free s (gNames (.cas 4 5 0 0 3 .ar .waf 0)) ∧ va.toNat % 8 = 0 ∧ ∃ s1 pa s3 old r, Translates s va true s1 pa ∧
       readPas true (va.zeroExtend 64) ((s1.releaseFor .ar .waf).invalLine s.cur.tile (pa / 32)) (upFrom pa 8) = .ok (s3, old) ∧
       amoResult (.cas 4 5 0 0 3 .ar .waf 0) 64 (leNat old) (s3.curStrand.rg 4).toNat (s3.curStrand.rg 5).toNat = some r) ∧
    (Ready State.reset (gNames (.casSpad 4 5 0 0 2 .plain .str 0)) ∧
      Ready (withStrand { Strand.idle 0 with tokens := 0x20 }) (gNames (.amomaxSpad 4 3 0 0 2 .plain .str 0)) ∧ amoResult (.amomaxSpad 4 5 0 0 2 .plain .str 0) 32 0 0x80000000 0 = some 0 ∧
      InSpad State.reset.curTile 0xBFFFC ∧ ¬ InSpad State.reset.curTile 0xC0000) ∧
    (Free State.reset [4, 5, 0] ∧ (eaOf State.reset 5 0 0 2).toNat % 4 ≠ 0 ∧ (eaOf State.reset 5 0 0 0xC0000).toNat % 4 = 0 ∧
      ¬ InSpad State.reset.curTile (eaOf State.reset 5 0 0 0xC0000).toNat) ∧
    NoTrap State.reset 1 ∧ ¬ NoTrap (withStatus 8) 1 := by
  refine ⟨⟨by unfold Free; decide, by decide, _, _, _, _, _, rfl, rfl, rfl⟩, ?_, ?_, ?_⟩
  · (try unfold Ready); (try unfold Free); unfold InSpad; decide
  · unfold Free InSpad; decide
  · unfold NoTrap; decide

theorem wit_DeferredFaultsAndWalks :
    ((withStrand { Strand.idle 0 with deferred := [⟨.divZero, 0⟩] }).curStrand.deferred = ⟨.divZero, 0⟩ :: [] ∧
      (withStrand { Strand.idle 0 with deferred := [⟨.divZero, 0⟩], hold := .shoot 1 }).curStrand.hold = .shoot 1) ∧
    (let s := { running Tile.idle with contexts := mapped.contexts, mem := mapped.mem }
     s.active 0 = true ∧ s.walk (s.regionOf 0).info.ctx 0x123456000000 = .leaf 0x301158 0x42000007 25 ∧ ptePO 0x42000007 = false ∧
       pteW 0x42000007 = true ∧ (0x42000007 : Word).getLsbD 3 = false ∧ s.reach 0x42000000 = .ok) ∧
    (let s := { running Tile.idle with contexts := mapped.contexts, mem := writeNat mapped.mem 0x301158 8 0x1000042000007 }
     s.walk (s.regionOf 0).info.ctx 0x123456000000 = .leaf 0x301158 0x1000042000007 25 ∧
       s.reach ((0x1000042000007 : Word).toNat / 2 ^ 14 % 2 ^ 42 * 16384) ≠ .ok) := by decide

/-- A transfer of the spill engine. -/
def transfer (fill : Bool) : Transfer := ⟨fill, 8, 2, 0x123456000000, 0⟩

theorem wit_SpillRules :
    (let s := mappedWith [(5, 0x123456000000)]
     Ready s [5, 0] ∧ (48 : BitVec 6).toNat + (15 : BitVec 4).toNat < 64 ∧ (eaOf s 5 0 0 0).toNat % 8 = 0 ∧ s.curStrand.tokens = 0) ∧
    (eaOf State.reset 0 0 0 7).toNat % 8 ≠ 0 ∧
    (let s := withStrand { Strand.idle 0 with tokens := 0x8000000000000000 }
     Free s [5, 0] ∧ s.curStrand.tokens.getLsbD 63 = true ∧ (48 : BitVec 6).toNat ≤ 63 ∧ 63 ≤ (48 : BitVec 6).toNat + (15 : BitVec 4).toNat) ∧
    (State.reset.curStrand.spillq = [] ∧ State.reset.curStrand.interrupted = none) ∧
    (withStrand { Strand.idle 0 with spillq := [transfer true] }).curStrand.spillq ≠ [] ∧
    (∀ f, let s := { mapped with tiles := (withStrand { Strand.idle 0 with spillq := [transfer f] }).tiles }
     (s.strandOf 0 0).spillq = transfer f :: [] ∧ (transfer f).next < (transfer f).count) ∧
    (let s := { mapped with tiles := (withStrand { Strand.idle 0 with spillq := [transfer true] }).tiles }
     ∃ s1 pa s2 bs, s.strandTrans 0 0 2 0x123456000000 false = (s1, .ok pa) ∧ readViaAll 0 s1 (upFrom pa 8) = (s2, some bs)) ∧
    (let s := { mapped with tiles := (withStrand { Strand.idle 0 with spillq := [transfer false] }).tiles }
     (∃ s1 pa, s.strandTrans 0 0 2 0x123456000000 true = (s1, .ok pa)) ∧ ∃ s1 c, s.strandTrans 0 0 2 0 true = (s1, .fault c)) ∧
    (running Tile.idle).active 0 = true := by
  refine ⟨?_, by decide, ?_, by decide, by decide, by decide, ⟨_, _, _, _, rfl, rfl⟩, ⟨⟨_, _, rfl⟩, ⟨_, _, rfl⟩⟩, by decide⟩
  · unfold Ready Free; decide
  · unfold Free; decide

/-- A tile with one queue register bound, an engine port's contents, and a firing of actor 0 that takes 2 tokens of channel 5 and gives 2
to channel 6. -/
def queueTile (b : QBind) (port : List Token) : Tile :=
  { Tile.idle.setStrand 0 { Strand.idle 0 with firing := some ⟨0, 0, [], [], []⟩, kstatus := 0x2000 } with
    queues := if b = .unbound then [] else [(3, b)]
    ports := [(1, port)]
    actors := [(0, { Actor.idle with valid := true, ins := [⟨5, 2⟩], outs := [⟨6, 2⟩] })] }

/-- A token of a payload. -/
def tok (v : Word) (scale exc : Bool) : Token := ⟨v, scale, exc, ⟨0, 0, 255, 0, 0⟩⟩

theorem wit_QueueSendRules :
    (Free State.reset (gRange 4 1) ∧ State.reset.curTile.queue 3 = .unbound) ∧
    (((withTile (queueTile (.output 1) [])).curTile.queue 3).kind ∈ [2, 4, 5]) ∧
    (let s := withTile (queueTile (.producer 6) [])
     s.curTile.queue 3 = .producer 6 ∧ 2 ≤ s.avail (.producer 6) ∧ s.avail (.producer 6) < 3 ∧ s.avail (.producer 7) = 0 ∧
       ((s.curTile.queue 3).kind ∈ [1, 3]) ∧ s.curStrand.firing = some ⟨0, 0, [], [], []⟩) ∧
    (let s := withTile (queueTile (.input 1) (List.replicate 16 (tok 0 false false)))
     s.avail (.input 1) = 0 ∧ s.curTile.queue 3 = .input 1) ∧
    (let s := { running (queueTile (.consumer 5) []) with
       regions := [(1, { Region.idle with channels := [(5, { Channel.idle with fifo := [tok 1 false false] })] })] }
     1 ≤ ((s.region s.curTile.handle).channel 5).fifo.length) ∧
    (∀ n, n < 2 →
      let s := { running (queueTile (.producer 6) []) with
        regions := [(1, { Region.idle with channels := [(6, { Channel.idle with prod := .queue 0 3, cons := .queue n 4 })] })] }
      ((s.region s.curTile.handle).channel 6).local = decide (n = 0)) := by unfold Free; decide

theorem wit_QueueReceiveRules :
    (Free State.reset (gRange 4 1) ∧ (State.reset.curTile.queue 3).kind = 0) ∧
    (((withTile (queueTile (.producer 6) [])).curTile.queue 3).kind ∈ [1, 3]) ∧
    (let s := withTile (queueTile (.consumer 5) [])
     s.curTile.queue 3 = .consumer 5 ∧ s.avail (.consumer 5) < 3 ∧ 2 ≤ s.avail (.consumer 5) ∧ ((s.curTile.queue 3).kind ∈ [2, 4, 5])) ∧
    (let s := withTile (queueTile (.output 1) [tok 9 true true])
     ((s.curTile.queue 3).kind ∈ [4, 5]) ∧ s.avail (.output 1) < 2 ∧ 1 ≤ s.avail (.output 1) ∧
       (queueHead (.output 1) s 1).head? = some (tok 9 true true)) ∧
    Ready State.reset [4] ∧
    (let s := withTile (queueTile (.consumer 7) [])
     (0x8 : BitVec 32).getLsbD 3 = true ∧ s.curTile.queue 3 = .consumer 7 ∧ s.avail (.consumer 7) = 0) ∧
    (let s := withTile (queueTile (.output 1) [tok 9 true true])
     (∀ i, i < 32 → (0x8 : BitVec 32).getLsbD i = true → s.curTile.queue i ≠ .unbound) ∧ 0 < s.avail (s.curTile.queue 3) ∧
       ∀ i, i < 3 → (0x8 : BitVec 32).getLsbD i = true → s.avail (s.curTile.queue i) = 0) ∧
    (let s := withTile (queueTile (.output 1) [])
     (∀ i, i < 32 → (0x8 : BitVec 32).getLsbD i = true → s.curTile.queue i ≠ .unbound ∧ s.avail (s.curTile.queue i) = 0) ∧
       3 ≤ (s.curTile.queue 3).kind) := by (try unfold Ready); (try unfold Free); decide

/-- A tile whose ring 2 has 4 slots, some of them filled. -/
def ringTile (fill : BitVec 13) : Tile := { Tile.idle with handles := [(2, ⟨0, 0, 3, fill, 0⟩)] }

theorem wit_RingRules :
    (Ready (withTile (ringTile 0)) [1, 2, 3, 4] ∧ ((withTile (ringTile 0)).curTile.ring 2).count < 5) ∧
    (let x := (withTile (ringTile 0x1000)).curTile.ring 2
     4 ≤ x.filled ∧ 4 ≤ x.count ∧ x.free < 1 ∧ x.filled ≤ x.count ∧ x.fill.toNat % 4096 < x.count ∧ x.drain.toNat % 4096 < x.count) ∧
    (let x := (withTile (ringTile 0)).curTile.ring 2
     4 ≤ x.free ∧ x.filled < 1 ∧ 1 ≤ x.count) ∧
    Tile.idle.ringOk (Handle.ofBits ((0 : BitVec 10) ++ (0 : BitVec 64))) = true ∧
    Tile.idle.ringOk (Handle.ofBits ((0x200 : BitVec 10) ++ (0xFFFF : BitVec 64))) = false := by
  (try unfold Ready); (try unfold Free); decide

/-- Tile 0 in a running region, with its Spindle as given. -/
def withSpindle (x : Spindle) : State := running { queueTile (.consumer 5) [] with spindle := x }

theorem wit_SpindleFront :
    (Ready State.reset [1] ∧ SpindleReady State.reset ∧ (State.reset.curStrand.rg 1).toNat ≤ 3 ∧
      State.reset.curTile.badLane 3 (State.reset.accepted.getLsbD 6) = none) ∧
    ((0xFFFF : BitVec 16).toNat ≠ 0 ∧ (2 : BitVec 4) ≠ 1) ∧
    (((withTile (queueTile (.producer 6) [])).curTile.queue 3).kind = 1 ∧ ((withTile (queueTile (.consumer 5) [])).curTile.queue 3).kind = 2) ∧
    (3 ∉ (owned State.reset).openLoops ∧
      (owned (withSpindle { Spindle.idle with owner := .strand 0, openLoops := [3, 0] })).openLoops = 3 :: [0]) ∧
    (3 < (4 : BitVec 32).toNat) ∧
    (∃ bad, ({ Tile.idle with laneCfg := [(0, BitVec.ofNat 256 (63 * 2 ^ 250))] } : Tile).badLane 0 false = some bad) ∧
    (let x := (withSpindle { Spindle.idle with owner := .strand 1, places := [0] }).curTile.spindle
     x.owner = .strand 1 ∧ (1 : Fin 4) ≠ 0 ∧ (0 : Fin 4) ∈ x.places) ∧
    (let x := (withSpindle { Spindle.idle with owner := .strand 0, openLoops := [2] }).curTile.spindle
     x.owner = .strand 0 ∧ x.openLoops.head? ≠ some 3 ∧ 2 ∈ x.openLoops ∧ x.openLoops ≠ []) ∧
    (let x := (withSpindle { Spindle.idle with owner := .strand 0, entries := [.cfg 0] }).curTile.spindle
     x.openLoops = [] ∧ x.entries ≠ []) ∧
    (let x := State.reset.curTile.spindle
     x.owner = .none ∧ x.openLoops = [] ∧ x.entries = [] ∧ x.runs = [] ∧ x.places = [] ∧ State.reset.curStrand.pc ≠ 8191) := by
  refine ⟨?_, by decide, by decide, by decide, by decide, ⟨0, by decide⟩, by decide, by decide, by decide, by decide⟩
  unfold Ready Free SpindleReady; decide

theorem wit_SpindleExecutes :
    (let s := withSpindle { Spindle.idle with entries := [.cfg 3] }
     let x := (s.tile 0).spindle
     s.active 0 = true ∧ x.pipe = [] ∧ x.entries = .cfg 3 :: [] ∧ x.pos = 0 ∧ x.loops = [] ∧ x.runs = []) ∧
    (let x := ((withSpindle { Spindle.idle with entries := [.loop 2 1] }).tile 0).spindle
     x.entries = .loop 2 1 :: [] ∧ x.pos = 0 ∧ x.loops = []) ∧
    (let x := ((withSpindle { Spindle.idle with entries := [.loop 2 0] }).tile 0).spindle
     x.entries = .loop 2 0 :: [] ∧ x.pos = 0 ∧ x.loops = []) ∧
    (let x := ((withSpindle { Spindle.idle with entries := [.loop 2 2, .back 2], pos := 1, loops := [(2, 0)], counters := [(2, 2)] }).tile 0).spindle
     x.entries[x.pos]? = some (.back 2) ∧ x.loops = [(2, 0)] ∧ tabGet (0#32) x.counters 2 - 1 ≠ 0) ∧
    (let x := ((withSpindle { Spindle.idle with entries := [.loop 2 2, .back 2], pos := 1, loops := [(2, 0)], counters := [(2, 1)] }).tile 0).spindle
     x.entries[x.pos]? = some (.back 2) ∧ x.loops = [(2, 0)] ∧ tabGet (0#32) x.counters 2 - 1 = 0) := by decide

/-- A run of five 4-byte elements, of entry 0 (R189), and the Spindle of strand 0 that executes it. -/
def aRun (src dst : Side) : Run := ⟨0, 0, src, dst, 5, false, 4, 8191, 0, 0, 0, 0, 0, 0⟩
def runSpindle (src : Side) : Spindle := { Spindle.idle with owner := .strand 0, entries := [.run 0 src (.ring 2) 5 false 4 8191] }

/-- Tile 0 in a running region, with a queue register, an engine port's contents, rings 2 and 4, and a Spindle. -/
def rowState (b : QBind) (port : List Token) (x : Spindle) : State :=
  running { queueTile b port with spindle := x, handles := [(2, ⟨0x300, 0, 0, 0, 0⟩), (4, ⟨0x340, 0, 0, 0x1000, 0⟩)] }

theorem wit_SpindleExecutes_takes :
    (∃ r y, RowRuns (rowState .unbound [] (runSpindle (.ring 2))) 0 r y ∧ r.src = .ring 2 ∧ r.srcPos = 0 ∧
      (((rowState .unbound [] (runSpindle (.ring 2))).tile 0).ring 2).filled = 0) ∧
    (∃ r y, RowRuns (rowState .unbound [] { runSpindle (.ring 4) with runs := [aRun (.ring 4) (.ring 2)] }) 0 r y ∧ r.src = .ring 4 ∧
      (((rowState .unbound [] (runSpindle (.ring 4))).tile 0).ring 4).filled ≠ 0) ∧
    (∃ r y, RowRuns (rowState (.arrive 1) [] (runSpindle (.queue 3))) 0 r y ∧ r.src = .queue 3 ∧
      ((rowState (.arrive 1) [] (runSpindle (.queue 3))).tile 0).queue 3 = .arrive 1) ∧
    (let s := rowState (.output 1) [tok 9 true true] (runSpindle (.queue 3))
     (s.tile 0).queue 3 = .output 1 ∧ (s.tile 0).port 1 = tok 9 true true :: [] ∧ s.active 0 = true ∧ (s.tile 0).spindle.pipe = []) ∧
    (let s := rowState (.consumer 5) [] (runSpindle (.queue 3))
     let f : Firing := ⟨0, 0, [], [], []⟩
     (s.tile 0).queue 3 = .consumer 5 ∧ (s.tile 0).spindle.owner = .strand 0 ∧ (s.strandOf 0 0).firing = some f ∧
       (s.tile 0).leftIn f 5 ≠ 0 ∧ (s.tile 0).leftIn f 6 = 0) ∧
    (let s := { rowState (.consumer 5) [] (runSpindle (.queue 3)) with
       regions := [(1, { Region.idle with channels := [(5, { Channel.idle with fifo := [tok 1 false false] })] })] }
     ((s.region (s.tile 0).handle).channel 5).fifo = tok 1 false false :: []) := by
  refine ⟨⟨_, _, ⟨0, .ring 2, .ring 2, 5, false, 4, 8191, rfl, by decide, .inr ⟨rfl, rfl, rfl⟩⟩, rfl, rfl, by decide⟩,
    ⟨aRun (.ring 4) (.ring 2), _, ⟨0, .ring 4, .ring 2, 5, false, 4, 8191, rfl, by decide, .inl ⟨rfl, rfl, by decide, rfl⟩⟩, rfl, by decide⟩,
    ⟨_, _, ⟨0, .queue 3, .ring 2, 5, false, 4, 8191, rfl, by decide, .inr ⟨rfl, rfl, rfl⟩⟩, rfl, by decide⟩, by decide, by decide, by decide⟩

/-- A value in the row, flagged or not, and an element that stands before the exit of run 0. -/
def atExit (scale exc : Bool) : RowElem := ⟨0, 4, 95, ⟨5, exc, 0⟩, ⟨5, exc, 0⟩, ⟨5, exc, 0⟩, 0, false, scale⟩

theorem wit_SpindleExecutes_puts :
    (∀ b,
      let s := rowState (.input 1) []
        { Spindle.idle with owner := .strand 0, runs := [{ aRun (.queue 3) (.ring 2) with left := 4, dstPos := 1 }], pipe := [atExit b (!b)] }
      let x := s.tile 0
      s.active 0 = true ∧ x.spindle.entries = [] ∧ x.spindle.runs = [{ aRun (.queue 3) (.ring 2) with left := 4, dstPos := 1 }] ∧
        x.spindle.pipe = [atExit b (!b)] ∧ (atExit b (!b)).run = 0 ∧ (atExit b (!b)).place = 95 ∧ x.spindle.owner = .strand 0 ∧
        (atExit b (!b)).scale = b ∧ (x.ring 2).free ≠ 0 ∧ (x.ring 4).free = 0 ∧ x.queue 3 = .input 1) ∧
    (rowState (.input 1) [] Spindle.idle).curTile.portRoom 1 ≠ 0 ∧
    (rowState (.input 1) (List.replicate 16 (tok 0 false false)) Spindle.idle).curTile.portRoom 1 = 0 := by
  refine ⟨?_, by decide, by decide⟩
  rintro (_ | _) <;> exact ⟨rfl, rfl, rfl, rfl, rfl, rfl, rfl, rfl, by decide, by decide, rfl⟩

theorem wit_SpindleExecutes_moves :
    (let s := rowState .unbound [] { Spindle.idle with owner := .strand 0, runs := [aRun (.ring 2) (.ring 4)], pipe := [atExit false true] }
     s.active 0 = true ∧ (s.tile 0).spindle.pipe = atExit false true :: [] ∧ (atExit false true).place = 95 ∧
       (s.tile 0).spindle.runs.find? (fun q => q.id == 0) = some (aRun (.ring 2) (.ring 4))) ∧
    runPut (rowState .unbound [] Spindle.idle) 0 (aRun (.ring 2) (.ring 4)) (atExit false true) = .wait ∧
    (let e := { atExit false false with place := 94 }
     let s := rowState .unbound [] { Spindle.idle with pipe := [e, { e with place := 0 }] }
     (s.tile 0).spindle.pipe = e :: [{ e with place := 0 }] ∧ (s.tile 0).spindle.entries = [] ∧
       (∀ y ∈ e :: [{ e with place := 0 }], y.place < 95) ∧ e.place % 6 ≠ 0) ∧
    ({ atExit true false with place := 90 }.place = 6 * 15 ∧ (atExit true false).scale = true) := by
  refine ⟨by decide, rfl, by decide, by decide⟩

theorem wit_LaneOperations :
    (∃ e : LaneEntry, e.fmt = 3 ∧ e.op < 0x30 ∧ e.op = 0x2F) ∧ (∃ e : LaneEntry, e.fmt < 3 ∧ e.op < 0x30 ∧ e.op = 0x1F ∧ e.scaled = false) ∧
    ∃ e : LaneEntry, e.op = 0x3B ∧ e.scaled = true :=
  ⟨⟨⟨0x2F, 3, 0, 0, false, 0, 0, 0, 0⟩, by decide⟩, ⟨⟨0x1F, 2, 0, 0, false, 0, 0, 0, 0⟩, by decide⟩, ⟨⟨0x3B, 0, 0, 0, true, 0, 0, 0, 0⟩, by decide⟩⟩

theorem wit_EndOfFiring :
    State.reset.curStrand.firing = none ∧
    (let x := (withStrand { Strand.idle 0 with firing := some ⟨0, 0, [], [], []⟩, kstatus := 0x2001 }).curStrand
     x.firing = some ⟨0, 0, [], [], []⟩ ∧ x.kstatus.getLsbD 0 = true) ∧
    (let s := withTile (queueTile (.consumer 5) [])
     let x := s.curStrand
     x.firing = some ⟨0, 0, [], [], []⟩ ∧ x.kstatus.getLsbD 13 = true ∧ x.kstatus.getLsbD 0 = false ∧
       s.curTile.spindle.owner ≠ .strand s.cur.strand ∧ x.tokens = 0 ∧ x.spillq = [] ∧ x.interrupted = none) ∧
    (withStrand { Strand.idle 0 with tokens := 1 }).curStrand.tokens ≠ 0 ∧
    ((withTile (queueTile (.consumer 5) [])).curTile.underRate ⟨0, 0, [(5, 2)], [(6, 2)], []⟩).min? = none ∧
    ((withTile (queueTile (.consumer 5) [])).curTile.underRate ⟨0, 0, [(5, 1)], [(6, 2)], []⟩).min? = some 5 ∧
    (let s := withSpindle { Spindle.idle with owner := .strand 0, openLoops := [3, 0] }
     let x := s.curStrand
     x.firing = some ⟨0, 0, [], [], []⟩ ∧ x.kstatus.getLsbD 13 = true ∧ x.kstatus.getLsbD 0 = false ∧
       s.curTile.spindle.owner = .strand s.cur.strand ∧ s.curTile.spindle.openLoops ≠ []) ∧
    (let c : Channel := { Channel.idle with prod := .queue 0 1, cons := .queue 0 2, arriving := [2], placed := 1 }
     c.local = true ∧ c.placed < 2 ∧ 1 ≤ c.placed) ∧
    ({ Channel.idle with prod := .queue 0 1, cons := .queue 1 2 } : Channel).local = false ∧
    (∀ b, let f : Flight := ⟨1, if b then .space 5 2 else .tokens 5 [tok 1 false false], 1, 1, []⟩
     let s : State := { State.reset with flying := [⟨1, .tokens 5 [], 0, 0, [1]⟩, f] }
     s.landedOn 1 5 b = some f ∧ s.landedOn 1 5 (!b) = none) := by decide

/-- Tile 0 in a running region of four columns, with a matrix slice. -/
def withMatrix (m : Matrix) : State :=
  inRegion { Region.idle with info := { Launch.idle with rows := 1, cols := 4 }, tiles := [0, 1, 2, 3] } { Tile.idle with matrix := m }

/-- A matrix slice with one entry at the head of its queue. -/
def heading (op : MxOp) (who : Issuer) : Matrix := { Matrix.idle with queue := [⟨op, who⟩] }

/-- An entry of an actor without a strand, and one of strand 0. -/
def byActor : Issuer := ⟨none, 0, 0, 0⟩
def byStrand : Issuer := ⟨some 0, 0, 0, 8191⟩

theorem wit_MatrixFront :
    (State.reset.curStrand.pc ≠ 8191 ∧ State.reset.curTile.matrix.queue.length < 8 ∧ FmtOk State.reset .int8 ∧
      FmtOk { State.reset with accepted := 2 } .log6) ∧
    (let t := (withTile { Tile.idle with handles := [(2, ⟨0, 3, 31, 0, 0⟩)] }).curTile
     (128 * mxBits 0 + (t.ring 2).slotBytes - 1) / (t.ring 2).slotBytes ≤ (t.ring 2).count ∧ 4 * mxBits 0 ≤ (t.ring 2).slotBytes) ∧
    (((withTile (queueTile (.output 1) [])).curTile.queue 3).kind = 4 ∧ ((withTile (queueTile (.input 1) [])).curTile.queue 3).kind = 3) ∧
    (Free State.reset [1] ∧ permOk 0xE4 = true ∧ permOk (BitVec.ofNat 8 0xE5) = false) ∧
    (drainCode State.reset .rdn = some 3 ∧ drainCode (withStatus 0x30) .dyn = some 3) ∧
    (gangOk (withMatrix Matrix.idle).curRegion (withMatrix Matrix.idle).curTile 15 = true ∧
      gangOk State.reset.curRegion State.reset.curTile 1 = false ∧ gangOk State.reset.curRegion State.reset.curTile 15 = false) ∧
    8 ≤ (withMatrix { Matrix.idle with queue := List.replicate 8 ⟨.swap, byActor⟩ }).curTile.matrix.queue.length ∧
    State.reset.accepted.getLsbD 1 = false ∧
    (State.reset.curTile.ring 0).slotBytes < 4 * mxBits 0 ∧ State.reset.curTile.queue 3 = .unbound := by
  unfold FmtOk Free; decide

theorem wit_MatrixExecution :
    (let s := withMatrix (heading .swap byActor)
     s.active 0 = true ∧ (s.tile 0).matrix.queue = ⟨.swap, byActor⟩ :: []) ∧
    (∀ w, ((withMatrix (heading (.scale w 200) byActor)).tile 0).matrix.queue = ⟨.scale w 200, byActor⟩ :: []) ∧
    ((withMatrix (heading (.perm 0xE4) byActor)).tile 0).matrix.queue = ⟨.perm 0xE4, byActor⟩ :: [] ∧
    ((withMatrix (heading (.zero 3) byActor)).tile 0).matrix.queue = ⟨.zero 3, byActor⟩ :: [] ∧
    (let x := { Tile.idle with matrix := heading (.loadRing 2 0) byActor, handles := [(2, ⟨0, 127, 0, 0x1000, 0⟩)] }
     x.matrix.queue = ⟨.loadRing 2 0, byActor⟩ :: [] ∧ planeSlots (x.ring 2) 0 ≤ (x.ring 2).filled) ∧
    (let x := { Tile.idle with matrix := heading (.loadSlot 3 0 0) byActor, slots := [(3, { Slot.idle with state := .landing })] }
     x.matrix.queue = ⟨.loadSlot 3 0 0, byActor⟩ :: [] ∧ (x.slot 3).state = .landing) ∧
    (let x := { Tile.idle with matrix := heading (.loadSlot 3 1 1) byActor, slots := [(3, { Slot.idle with state := .full })] }
     x.matrix.queue = ⟨.loadSlot 3 1 1, byActor⟩ :: [] ∧ (x.slot 3).state = .full ∧ byActor.strand = none ∧
       0 + 1 * (128 * mxBits 1) + 128 * mxBits 1 ≤ 4096) ∧
    (let m := heading (.gang 1) byActor
     m.queue = ⟨.gang 1, byActor⟩ :: [] ∧ m.prog.joined = none) := by decide

theorem wit_MatrixExecution_macc :
    (let m := { heading (.macc 1 false (.ring 2) 0 31 1) byActor with prog := { MxProgress.idle with rows := [⟨[], 127, false⟩] } }
     m.queue = ⟨.macc 1 false (.ring 2) 0 31 1, byActor⟩ :: [] ∧ m.prog.rows.length = 1 ∧ m.prog.retry = false ∧
       mxPairOk m.active.pf 0 = true ∧ 31 + 1 ≤ 32 ∧ checkCells (maccCells m 1 false 0 31 m.prog.rows) = none) ∧
    (let s := { withMatrix (heading (.macc 1 false (.ring 2) 1 0 1) byStrand) with
       tiles := [(0, { Tile.idle.setStrand 0 { Strand.idle 0 with firing := some ⟨0, 0, [], [], []⟩ } with
         matrix := heading (.macc 1 false (.ring 2) 1 0 1) byStrand, bound := some ⟨1, 0, 0⟩ })] }
     (s.tile 0).matrix.prog.retry = false ∧ mxPairOk (s.tile 0).matrix.active.pf 1 = false ∧ byStrand.strand = some 0 ∧
       s.issuerRuns 0 byStrand = true ∧ s.active 0 = true) := by decide +kernel

/-- Four tiles of a gang whose masks stand at the join, each with an entry. -/
def gangOf (op : Nat → MxOp) : State :=
  let t (n : Nat) : Tile := { Tile.idle with
    bound := some ⟨1, 0, n⟩
    matrix := { heading (op n) byActor with prog := { MxProgress.idle with arrived := true }, perm := 0xE4 } }
  { withMatrix Matrix.idle with tiles := [(0, t 0), (1, t 1), (2, t 2), (3, t 3)] }

/-- A firing of actor 0 by strand 0 of tile 0, with a matrix entry of that strand and four slots filled or free. -/
def strandEntry (op : MxOp) : State :=
  running { queueTile (.producer 6) [] with
    matrix := heading op byStrand, handles := [(2, ⟨0x300, 0, 7, 0, 0⟩)], slots := [(3, { Slot.idle with state := .full })] }

theorem wit_MatrixExecution_strand :
    (let s := strandEntry (.loadSlot 3 1 1)
     (s.tile 0).matrix.queue = ⟨.loadSlot 3 1 1, byStrand⟩ :: [] ∧ byStrand.strand = some 0 ∧ ((s.tile 0).slot 3).state = .full ∧
       0 + 1 * (128 * mxBits 1) + 128 * mxBits 1 ≤ 4096 ∧ 4096 < 0 + 7 * (128 * mxBits 1) + 128 * mxBits 1 ∧
       ((s.tile 0).slot 0).state = .free ∧ s.issuerRuns 0 byStrand = true ∧ s.active 0 = true) ∧
    (let s := strandEntry (.drain 0 (.ring 2) 0 0 true)
     s.active 0 = true ∧ (s.tile 0).matrix.queue = ⟨.drain 0 (.ring 2) 0 0 true, byStrand⟩ :: [] ∧ (s.tile 0).matrix.prog.done < 32 ∧
       ((s.tile 0).ring 2).free ≠ 0 ∧ ((s.tile 0).ring 4).filled = ((s.tile 0).ring 4).count - ((s.tile 0).ring 4).free) ∧
    ((withTile (queueTile (.input 1) [])).curTile.queue 3 = .input 1 ∧ (withTile (queueTile (.input 1) [])).curTile.portRoom 1 ≠ 0 ∧
      (withTile (queueTile (.input 1) (List.replicate 16 (tok 0 false false)))).curTile.portRoom 1 = 0 ∧ 511 * mxPerToken 0 < 1024) ∧
    ({ MxProgress.idle with done := 32 }.done = 32 ∧ 1024 ≤ 512 * mxPerToken 0) ∧
    (let s := strandEntry (.drain 0 (.queue 3) 0 0 false)
     let f : Firing := ⟨0, 0, [], [(6, 2)], []⟩
     (s.tile 0).queue 3 = .producer 6 ∧ (s.strandOf 0 0).firing.isSome ∧ (s.tile 0).leftOut f 6 = 0 ∧ 0 * mxPerToken 0 < 1024) := by
  decide

theorem wit_MatrixChecksAndJoins :
    (let m := { heading (.macc 1 false (.ring 2) 0 0 32) byActor with prog := { MxProgress.idle with rows := List.replicate 32 ⟨[], 127, false⟩ } }
     m.queue = ⟨.macc 1 false (.ring 2) 0 0 32, byActor⟩ :: [] ∧ m.prog.rows.length = 32 ∧ 0 + 32 ≤ 32) ∧
    (let s := gangOf fun n => .gang (if n = 3 then 7 else 15)
     s.active 0 = true ∧ (s.tile 0).arrivedMask = some 15 ∧ (0, 0) ∈ s.quartet 0 ∧
       ∃ e ∈ s.quartet 0, (s.tile e.2).arrivedMask = some 7 ∧ (7 : BitVec 4) ≠ 15) ∧
    (let s := gangOf fun _ => .gang 15
     (∀ e ∈ s.quartet 0, (s.tile e.2).arrivedMask = some 15 ∧ (s.tile e.2).exchangeAcc true = none) ∧
       ∀ n, n < 4 → ∃ e ∈ s.quartet 0, e.1 = n ∧ (s.tile e.2).arrivedMask = some 15) ∧
    (let s := gangOf fun n => .exchange n (3 - n)
     s.quartet 0 = [(0, 0), (1, 1), (2, 2), (3, 3)] ∧ [0, 1, 2, 3].Nodup ∧ permOk 0xE4 = true ∧
       ∀ n, n < 4 → (s.tile n).arrivedMask = some 15 ∧ (s.tile n).exchangeAcc true = some n ∧
         (s.tile n).exchangeAcc false = some (3 - n) ∧ (s.tile n).matrix.perm = 0xE4) := by decide

/-- A tile with the example's graph in slot 0, its image at 0x200 and an input vector in ring 2. -/
def graphTile (x : Inlay) : Tile :=
  { Tile.idle with
    inlay := x
    handles := [(2, ⟨0x300, 0, 0, 0x1000, 0⟩)]
    spad := writeBytes [] 0x200 (sharedGraph.flatMap fun w => natLe 4 w.toNat) }

theorem wit_InlayRules :
    (State.reset.curStrand.pc ≠ 8191 ∧ State.reset.curTile.inlay.queue.length < 8 ∧ State.reset.curTile.inlay.queue = []) ∧
    (((withTile (queueTile (.arrive 1) [])).curTile.queue 3).kind = 5 ∧ ((withTile (queueTile (.input 1) [])).curTile.queue 3).kind = 3) ∧
    8 ≤ (List.replicate 8 (⟨.run (.ring 0) 0 1, byActor⟩ : InEntry)).length ∧ Free State.reset [4, 5] ∧
    (((withRegs [(5, 0x210)]).curStrand.rg 5).toNat % 32 ≠ 0 ∧ ((withRegs [(5, 0xBFFE0)]).curStrand.rg 5).toNat % 32 = 0) ∧
    (Tile.idle.inBanks 0xC0000 32 = false ∧ Tile.idle.inBanks 0xBFFE0 32 = true ∧ headerOk 0 = false) ∧
    ((graphTile Inlay.idle).inBanks 0x200 32 = true ∧ headerOk 0xE0182080 = true) ∧
    (∃ i r, checkGraph [0xE0182080, 0, 0, 0, 0, 0, 0, 0] = .malformed i r) ∧ checkGraph sharedGraph = .ok 2 ∧
    (∀ i, i < 4 → (Inlay.idle.graph i) = none) ∧
    (∀ i, i < 4 → (({ Inlay.idle with graphs := [(0, some ⟨0, 4, 2, 2, 2, 0⟩), (1, some ⟨5, 4, 2, 2, 2, 0⟩), (2, some ⟨10, 4, 2, 2, 2, 0⟩),
      (3, some ⟨15, 4, 2, 2, 2, 0⟩)] } : Inlay).graph i).isSome = true) := by
  refine ⟨by decide, by decide, by decide, by unfold Free; decide, by decide, by decide, by decide, ⟨_, _, rfl⟩, by decide, by decide, by decide⟩

theorem wit_InlayRules_execution :
    (Inlay.idle.place 1 = some 0 ∧ ({ Inlay.idle with graphs := [(0, some ⟨0, 2047, 1, 1, 1, 0⟩)] } : Inlay).place 1 = none) ∧
    (let g : Graph := ⟨0, 4, 32, 2, 2, 0⟩
     let x := { Inlay.idle with graphs := [(0, some g)], queue := [⟨.run (.ring 2) 0 1, byActor⟩] }
     let y := graphTile x
     x.queue = ⟨.run (.ring 2) 0 1, byActor⟩ :: [] ∧ x.done = 0 ∧ x.slotPos = 0 ∧ x.graph 0 = some g ∧ x.out.length < 64 ∧
       vectorBytes g ≤ (y.ring 2).slotBytes ∧ (y.ring 2).slotBytes < 2 * vectorBytes g ∧ 0 < (y.ring 2).filled ∧
       (running y).active 0 = true) ∧
    (let x := { Inlay.idle with queue := [⟨.run (.ring 2) 3 1, byStrand⟩] }
     let y := running { Tile.idle.setStrand 0 { Strand.idle 0 with firing := some ⟨0, 0, [], [], []⟩ } with inlay := x }
     y.active 0 = true ∧ (y.tile 0).inlay.queue = ⟨.run (.ring 2) 3 1, byStrand⟩ :: [] ∧ x.done < 1 ∧ x.graph 3 = none ∧
       byStrand.strand = some 0 ∧ y.issuerRuns 0 byStrand = true) := by decide +kernel

theorem wit_InlayRules_drain :
    (let v : OutVec := ⟨List.replicate 32 (300, false)⟩
     let x := { Inlay.idle with queue := [⟨.drain (.ring 2) 2 1, byStrand⟩], out := [v] }
     let s := running { queueTile (.input 1) [] with inlay := x, handles := [(2, ⟨0x300, 0, 0, 0, 0⟩)] }
     s.active 0 = true ∧ (s.tile 0).inlay.queue = ⟨.drain (.ring 2) 2 1, byStrand⟩ :: [] ∧ x.done = 0 ∧ x.slotPos = 0 ∧ x.out = v :: [] ∧
       1 ≤ x.out.length ∧ x.part = [] ∧ byStrand.strand = some 0 ∧ s.issuerRuns 0 byStrand = true ∧
       v.vals.length * 8 / 8 ≤ ((s.tile 0).ring 2).slotBytes ∧ ((s.tile 0).ring 2).slotBytes < 2 * (v.vals.length * 8 / 8) ∧
       ((s.tile 0).ring 2).slotBytes < v.vals.length * 16 / 8 ∧ ((s.tile 0).ring 2).free ≠ 0 ∧ (s.tile 0).queue 3 = .input 1 ∧ (s.tile 0).portRoom 1 ≠ 0) := by
  decide

/-- A region of one row and two columns on tiles 0 and 1, which runs. -/
def pairOf (r : Region) (a b : Tile) : State :=
  { State.reset with
    tiles := [(0, { a with bound := some ⟨1, 0, 0⟩ }), (1, { b with bound := some ⟨1, 0, 1⟩ })]
    regions := [(1, { r with info := { r.info with handle := 1, rows := 1, cols := 2 }, phase := .running, tiles := [0, 1] })] }

/-- A tile with one route, at number 9. -/
def routed (e : Word) : Tile := { Tile.idle with routes := [(9, e)] }

/-- A packet of words on route 9. -/
def packet (words : List Word) (last : Bool) : Packet := ⟨9, words, last, false, false, 0, some 0, 0, 0, []⟩
/-- The same, in a router that sends it to one output port. -/
def leaving (k : Nat) : Packet := { packet [7] true with outs := [k] }

/-- Route entries (Table 8.1): out to the east, delivered from the west, a broadcast source, and a reduction of the tile's own input
and the west's by the wrapping sum of 32-bit elements. -/
def eastRoute : Word := 0x9240000000000000
def hereRoute : Word := 0x8820000000000000
def castRoute : Word := 0xB240000000000000
def sumRoute : Word := 0xC861000000000000

/-- A lane that holds nothing has room. -/
theorem room_empty {s : State} {a n : Nat} {c : Cargo} {rest : List Nat}
    (h : ((s.tile n).linkLane (facing (dirOf a n)) c.vc (s.leavesNext c (n :: rest))).length
      + (s.flightsIn n (facing (dirOf a n)) c.vc (s.leavesNext c (n :: rest))).length = 0) : s.roomAhead a c (n :: rest) = true := by
  simp only [State.roomAhead, State.laneRoom, h, Nat.zero_le, decide_true]

/-- A lane that holds more packets than the depth has none. -/
theorem room_full {s : State} {a n : Nat} {c : Cargo} {rest : List Nat}
    (h : Config.laneDepth < (s.flightsIn n (facing (dirOf a n)) c.vc (s.leavesNext c (n :: rest))).length) :
    s.roomAhead a c (n :: rest) = false := by
  simp only [State.roomAhead, State.laneRoom, decide_eq_false_iff_not]; omega

/-- A router where packets of some channels wait to be received. -/
def arriving (vcs : List Nat) : State :=
  let links := vcs.map fun v => (laneKey 1 v true, [{ leaving 0 with vc := v }])
  { pairOf Region.idle (routed eastRoute) { routed hereRoute with links := links } with served := [(8, 0)] }

/-- A token of tile 0 for a chunk of tile 1. -/
def flowPair : State := pairOf Region.idle { Tile.idle with flow := [⟨0, 1, 3, 15, none⟩] } Tile.idle

theorem wit_NetworkSteps_turns :
    flowPair.offers 0 2 3 = true ∧
    (∀ vcs ∈ [[1, 2, 0], [2, 0], [0], []], tabGet 2 (arriving vcs).served (1 * 8 + 0) = 0 ∧ (arriving vcs).offers 1 0 3 = false) ∧
    ((arriving [1, 2, 0]).offers 1 0 1 = true ∧
      ((arriving [2, 0]).offers 1 0 1 = false ∧ (arriving [2, 0]).offers 1 0 2 = true) ∧
      ((arriving [0]).offers 1 0 1 = false ∧ (arriving [0]).offers 1 0 2 = false ∧ (arriving [0]).offers 1 0 3 = false) ∧
      ((arriving []).offers 1 0 1 = false ∧ (arriving []).offers 1 0 2 = false ∧ (arriving []).offers 1 0 0 = false)) := by
  refine ⟨?_, by decide, by decide⟩
  have h : flowPair.roomAhead 0 (.flow ⟨0, 1, 3, 15, none⟩) [1] = true := room_empty (by decide)
  have f : flowPair.pickFlow 0 2 = some ⟨0, 1, 3, 15, none⟩ := by
    have a : flowPair.flowAt 0 2 = some ⟨0, 1, 3, 15, none⟩ := by decide
    have p : flowPair.flowPath 0 ⟨0, 1, 3, 15, none⟩ = [1] := by decide
    simp only [State.pickFlow, a, Option.filter, p, h, if_true]
  have g : flowPair.active 0 = true := by decide
  simp [State.offers, State.offersOwn, f, g]

/-- Tile 0 of the pair with a packet in an injection buffer, and the routers that a hop between the tiles passes. -/
def sending (e : Word) (vc : Nat) (outs : List Nat) (pass : List PassEntry) (sent : Nat) : State :=
  { pairOf { Region.idle with sent := [(9 * 65536, sent)] }
      { routed e with inject := [(vc, [{ leaving 0 with vc := vc, outs := outs }, packet [1] true])] } (routed hereRoute) with
    passEntries := pass }

/-- Only the packet's own input of a router holds anything. -/
theorem only_input {s : State} {t vc key : Nat} (h : ∀ c, c < 3 → ∀ k ∈ inputKeys c, (c ≠ vc ∨ k ≠ key) → (s.tile t).input c k = [])
    (c : (s.tile t).comb = []) (f : (s.tile t).flow = []) (g : s.flying = []) : OnlyInput s t vc key :=
  ⟨fun n k hn hk hv => h n hn k hk hv, c, f, by rw [g]; exact fun _ m => absurd m (List.not_mem_nil)⟩

theorem wit_NetworkSteps_packets :
    (∀ vc, vc < 3 → ∀ pass ∈ [[], [⟨9, 1, 0, 1, 1⟩]], ∀ outs ∈ [[2], [1, 2]],
      let s := sending eastRoute vc outs pass 0
      let p : Packet := { leaving 0 with vc := vc, outs := outs }
      s.active 0 = true ∧ (0 ∈ inputKeys vc) ∧ (s.tile 0).input vc 0 = p :: [packet [1] true] ∧ OnlyInput s 0 vc 0 ∧
        (2 ∈ p.outs) ∧ s.physPort 0 2 = 2 ∧ (∀ k ∈ p.outs, s.physPort 0 k = 2 → k = 2) ∧
        s.outPath 0 2 = (if pass = [] then [1] else [9, 1]) ∧ s.roomAhead 0 (.packet p) (s.outPath 0 2) = true ∧
        (upFrom 0 5).filter (rOut ((s.tile 1).route 9)) = [0]) ∧
    ((upFrom 0 5).filter (rOut (((sending eastRoute 0 [2] [] 0).tile 0).route 9)) = [2] ∧
      (sending eastRoute 0 [2] [] 0).hasCredit 1 9 0 = true ∧ (sending eastRoute 0 [2] [] 1).hasCredit 1 9 0 = false) ∧
    (∀ vc, vc < 3 →
      let s := arriving [vc]
      let key := laneKey 1 vc true
      s.active 1 = true ∧ (key ∈ inputKeys vc) ∧ (s.tile 1).input vc key = { leaving 0 with vc := vc } :: [] ∧ OnlyInput s 1 vc key ∧
        s.physPort 1 0 = 0 ∧ key ≠ 0 ∧ ((s.tile 1).received 9).length < rDepth ((s.tile 1).route 9) ∧
        rDepth ((s.tile 1).route 9) ≤ (({ s.tile 1 with recv := [(9, [packet [1] true])] } : Tile).received 9).length) := by
  refine ⟨fun vc hv pass hp outs ho => ?_, by decide, fun vc hv => ?_⟩
  · simp only [List.mem_cons, List.not_mem_nil, or_false] at hp ho
    obtain rfl | rfl | rfl : vc = 0 ∨ vc = 1 ∨ vc = 2 := by omega
    all_goals
      obtain rfl | rfl := hp <;> obtain rfl | rfl := ho <;>
        exact ⟨by decide, by decide, by decide, only_input (by decide) rfl rfl rfl, by decide, by decide, by decide, by decide,
          room_empty (by decide), by decide⟩
  · obtain rfl | rfl | rfl : vc = 0 ∨ vc = 1 ∨ vc = 2 := by omega
    all_goals exact ⟨by decide, by decide, by decide, only_input (by decide) rfl rfl rfl, by decide, by decide, by decide, by decide⟩

/-- Packets between routers: one at router 5 whose path goes on at router 6. -/
def between (c : Cargo) (path : List Nat) (l : List Flight) : State :=
  { pairOf Region.idle (routed eastRoute) (routed hereRoute) with flying := ⟨1, c, 5, 1, 6 :: path⟩ :: l }

theorem wit_NetworkSteps_flights :
    (∀ c ∈ [Cargo.packet (packet [7] true), .combined 1 (packet [7] true), .tokens 3 [], .space 3 1, .flow ⟨0, 1, 3, 15, none⟩],
      ∀ path ∈ [[], [7]],
      let s := between c path []
      let f : Flight := ⟨1, c, 5, 1, 6 :: path⟩
      s.flying.filter (fun g => g.router == 5) = [f] ∧ f.path = 6 :: path ∧ c.vc < 4 ∧ s.offersOwn 5 (dirOf 5 6) c.vc = false ∧
        s.active 5 = false ∧ s.roomAhead 5 c f.path = true) ∧
    (∀ vc, (between (.space 3 1) [7] []).offersOwn 5 (dirOf 5 6) vc = false) ∧
    (let s := between (.space 3 1) [7] (List.replicate (Config.laneDepth + 1) ⟨1, .space 4 1, 6, 1, [7]⟩)
     s.flying.filter (fun g => g.router == 5) = [⟨1, .space 3 1, 5, 1, 6 :: [7]⟩] ∧ s.roomAhead 5 (.space 3 1) (6 :: [7]) = false) := by
  refine ⟨fun c hc path hp => ?_, fun _ => rfl, ?_, room_full ?_⟩
  · simp only [List.mem_cons, List.not_mem_nil, or_false] at hc hp
    obtain rfl | rfl | rfl | rfl | rfl := hc <;> obtain rfl | rfl := hp <;>
      exact ⟨by decide, by decide, by decide, by decide, by decide, room_empty (by decide)⟩
  · simp [between]
  · have : (List.replicate (Config.laneDepth + 1) (⟨1, .space 4 1, 6, 1, [7]⟩ : Flight)).length = Config.laneDepth + 1 := List.length_replicate
    simp [State.flightsIn, between, State.leavesNext, dirOf, pcolOf, facing, Cargo.vc]

theorem wit_NetworkSteps_flow :
    (let s := flowPair
     let x := s.tile 0
     s.active 0 = true ∧ x.flow = ⟨0, 1, 3, 15, none⟩ :: [] ∧
       s.tilePath (s.region x.handle) (logicalOf (s.region x.handle) x) (0 * (s.region x.handle).info.cols + 1) = 1 :: [] ∧
       (∀ g ∈ s.flying, g.router = 0 → g.cargo.vc ≠ 3) ∧ inLane s 1 (facing (dirOf 0 1)) 3 true = 0) ∧
    (∀ n ∈ [0, 254, 255],
      let g : Flight := ⟨1, .flow ⟨0, 1, 3, 15, none⟩, 1, 1, []⟩
      let x : Tile := { Tile.idle with chunks := [(3, { Chunk.idle with counters := [(15, n)] })] }
      let s := { pairOf Region.idle Tile.idle x with flying := [g] }
      s.active 1 = true ∧ s.landedFlow 1 = some (g, ⟨0, 1, 3, 15, none⟩) ∧ tabGet 0 ((s.tile 1).chunk 3).counters 15 = n) ∧
    (let s := pairOf Region.idle { Tile.idle with flow := [⟨0, 0, 3, 15, none⟩] } Tile.idle
     s.active 0 = true ∧ s.landedFlow 0 = none ∧ (s.tile 0).flow = ⟨0, 0, 3, 15, none⟩ :: [] ∧ (s.tile 0).row = 0 ∧ (s.tile 0).col = 0 ∧
       tabGet 0 ((s.tile 0).chunk 3).counters 15 ≤ 255) := by
  refine ⟨by decide, by decide, by decide⟩

/-- A reduction of the tile's own input and the east's that goes on to the east. -/
def sumEast : Word := 0xC261000000000000

theorem wit_NetworkSteps_reduction :
    let x (p q : List Packet) : Tile := { routed sumRoute with comb := [(9 * 8, p), (9 * 8 + 1, q)] }
    let s (p q : List Packet) : State := pairOf Region.idle (x p q) (routed hereRoute)
    let e := (x [] []).route 9
    (rKind e = 2 ∧ rIn e 0 = true ∧ rIn e 1 = true ∧ (∀ k ∈ [2, 3, 4], rIn e k = false) ∧ rOut e 0 = true ∧ rRule e = 2) ∧
    ((s [] [packet [1] true]).active 0 = true ∧ (x [] [packet [1] true]).combine 9 0 = [] ∧
      (x [] [packet [1] true]).combine 9 1 = packet [1] true :: []) ∧
    (let y := x [packet [1, 2] true] [packet [1] true]
     y.combine 9 0 = packet [1, 2] true :: [] ∧ y.combine 9 1 = packet [1] true :: [] ∧
       (packet [1, 2] true).words.length ≠ (packet [1] true).words.length ∧ (s [packet [1, 2] true] [packet [1] true]).live 1 = true) ∧
    (let z := s [packet [5] true] [packet [1] true]
     let y := z.tile 0
     y.combine 9 0 = packet [5] true :: [] ∧ y.combine 9 1 = packet [1] true :: [] ∧ (y.received 9).length < rDepth e ∧
       y.injected 2 = [] ∧ z.waitsAt 0 0 = false ∧ z.active 0 = true ∧ z.flying = []) ∧
    (let y := { x [] [] with inject := [(2, [packet [5] true])] }
     y.injected 2 = packet [5] true :: [] ∧ (y.combine 9 0).length < 2 ∧ y.combine 9 1 = []) ∧
    (let f : Flight := ⟨1, .combined 1 (packet [5] true), 0, 2, []⟩
     let z := { s [] [] with flying := [f] }
     z.active 0 = true ∧ z.flying.filter (fun g => g.router == 0) = [f] ∧ (z.tile 0).combine 9 0 = [] ∧ (z.tile 0).injected 2 = []) := by decide

theorem wit_NetworkSteps_onward :
    let x : Tile := { routed sumEast with comb := [(9 * 8, [packet [5] true]), (9 * 8 + 1, [packet [1] true])] }
    let s := pairOf Region.idle x (routed sumRoute)
    let e := (s.tile 0).route 9
    rKind e = 2 ∧ rIn e 0 = true ∧ rIn e 1 = true ∧ (∀ k ∈ [2, 3, 4], rIn e k = false) ∧ (∀ k, k < 5 → (rOut e k = true ↔ k = 2)) ∧
      (s.region (s.tile 0).handle).beside (s.tile 0) 2 = some 1 ∧ s.passPath (s.tile 0).handle 0 1 = 1 :: [] ∧
      s.waitsAt 0 (dirOf 0 1) = false ∧ ((s.tile 1).combine 9 (facing 2)).length + (s.combining 1 9 (facing 2)).length < 2 ∧
      inLane s 1 (facing (dirOf 0 1)) 2 true = 0 ∧ s.active 0 = true ∧ s.flying = [] := by decide

theorem wit_NetworkSteps_engines :
    (let e : NetEntry := ⟨false, 9, 2, 1, 0, 0, 0, false, 0, byStrand⟩
     let x := { routed eastRoute with handles := [(2, ⟨0, 1, 0, 0x1000, 0⟩)], netq := [e] }
     (running x).active 0 = true ∧ x.netq = [e] ∧ (x.ring 2).slotBytes = 64 ∧ 0 < (x.ring 2).filled ∧ rVc (x.route 9) = 0 ∧ (x.injected 0).length < 8) ∧
    (let e : NetEntry := ⟨true, 9, 2, 1, 0, 0, 0, false, 0, byStrand⟩
     let x := { routed hereRoute with handles := [(2, ⟨0, 1, 0, 0, 0⟩)], netq := [e], recv := [(9, [packet [1, 2, 3, 4, 5, 6, 7, 8] true])] }
     (running x).active 0 = true ∧ x.netq = [e] ∧ x.received 9 = packet [1, 2, 3, 4, 5, 6, 7, 8] true :: [] ∧ 0 < (x.ring 2).free ∧
       8 * (packet [1, 2, 3, 4, 5, 6, 7, 8] true).words.length ≤ (x.ring 2).slotBytes) ∧
    (let k : Chunk := { Chunk.idle with armed := true, mask := 0x8001, counters := [(0, 1), (15, 2)], count := 4096 }
     let x := { Tile.idle with chunks := [(3, k)], inject := [(2, List.replicate 8 (packet [0] true))] }
     (running x).active 0 = true ∧ (x.chunk 3).armed = true ∧ (x.chunk 3).left = 0 ∧ (x.chunk 3).fault = none ∧
       (∀ n, n < 16 → (x.chunk 3).mask.getLsbD n → 1 ≤ tabGet 0 (x.chunk 3).counters n) ∧ 8 ≤ (x.injected 2).length ∧
       0 < (x.chunk 3).count) := by decide

/-- Tile 0 with its landing slots from n on FULL, and a waiting strand that expects the block of group 5 and number 2^32 - 1. -/
def slotTile (n : Nat) : State :=
  withTile { Tile.idle.setStrand 0 { Strand.idle 0 with g := [(2, 0x5FFFFFFFF)] } with
    slots := (upFrom n (4 - n)).map fun m => (m, { Slot.idle with state := .full, group := 5, blockId := 0xFFFFFFFF }) }

/-- A strand that expects block 7 of group 5 on a tile without a block. -/
def slotDrop (d : List Drop) : State := withTile { Tile.idle.setStrand 0 { Strand.idle 0 with g := [(2, 0x500000007)] } with drops := d }

theorem wit_VeneerRules :
    (∀ n, n < 4 → Ready (slotTile n) [1, 2] ∧ (0xF : BitVec 4).getLsbD n = true ∧ ((slotTile n).curTile.slot n).state = .full ∧
      ((slotTile n).curTile.slot n).group = ((slotTile n).curStrand.rg 2).extractLsb' 32 12 ∧
      ((slotTile n).curTile.slot n).blockId = ((slotTile n).curStrand.rg 2).extractLsb' 0 32 ∧
      ((slotTile n).curTile.slot n).loads = 0 ∧ (∀ m, m < n → ((slotTile n).curTile.slot m).state ≠ .full)) ∧
    (∀ m, m < 4 → ((slotTile 4).curTile.slot m).state ≠ .full) ∧
    (Ready (slotDrop [⟨false, 5, 7⟩]) [1, 2] ∧ (∀ m, m < 4 → ((slotDrop [⟨false, 5, 7⟩]).curTile.slot m).state ≠ .full) ∧
      ∃ e ∈ (slotDrop [⟨false, 5, 7⟩]).curTile.drops, e.hdrBad = false ∧
        e.group = ((slotDrop [⟨false, 5, 7⟩]).curStrand.rg 2).extractLsb' 32 12 ∧
        e.blockId = ((slotDrop [⟨false, 5, 7⟩]).curStrand.rg 2).extractLsb' 0 32) ∧
    (Ready (slotDrop []) [1, 2] ∧ (slotDrop []).curTile.drops = [] ∧ ∀ m, m < 4 → ((slotDrop []).curTile.slot m).state ≠ .full) ∧
    (let s := slotDrop [⟨true, 0, 0⟩]
     s.curTile.drops = [] ++ ⟨true, 0, 0⟩ :: [] ∧ ∀ e ∈ s.curTile.drops, ¬ (e.hdrBad = false)) ∧
    (let s := withTile { Tile.idle.setStrand 0 { Strand.idle 0 with g := [(2, 0x500000007)] } with
       slots := [(3, { Slot.idle with state := .full, group := 5, blockId := 0x80000006 })] }
     Ready s [1, 2] ∧ (s.curTile.slot 3).state = .full ∧ (s.curTile.slot 3).group = (s.curStrand.rg 2).extractLsb' 32 12 ∧
       ((s.curTile.slot 3).blockId - (s.curStrand.rg 2).extractLsb' 0 32).toNat = 2 ^ 31 - 1) ∧
    (let y := { Slot.idle with state := .full, loads := 1 }
     y.state = .full ∧ y.loads ≠ 0 ∧ Slot.idle.state ≠ .full ∧ (4 : BitVec 32).toNat % 4 = 0 ∧ (3 : BitVec 32).toNat % 4 = 3) := by
  unfold Ready Free; refine ⟨?_, ?_, ?_, ?_, ?_, ?_, ?_⟩ <;> decide

theorem wit_VeneerRules_blocks :
    (let b := Block.make 7 3 2 false 1 2 0 []
     let s (x : Tile) : State := { withTile Tile.idle with
       tiles := [(4, x)]
       clusters := [(1, { Cluster.idle with incoming := [b], members := [⟨1, 7, 5, 1⟩] })] }
     let full : Tile := { Tile.idle with slots := (upFrom 0 4).map fun k => (k, { Slot.idle with state := .full }) }
     let last : Tile := { Tile.idle with slots := (upFrom 0 3).map fun k => (k, { Slot.idle with state := .full }) }
     ((s Tile.idle).cluster 1).incoming = b :: [] ∧ ((s Tile.idle).cluster 1).members = [⟨1, 7, 5, 1⟩] ∧ clusterTiles 1 1 = [4] ∧
       b.w1.getLsbD (54 + 1 % 4) = true ∧ 7 = (b.w0.extractLsb' 4 12).toNat ∧ (((s Tile.idle).tile 4).slot 0).state = .free ∧
       ((((s last).tile 4).slot 3).state = .free ∧ ∀ k, k < 3 → (((s last).tile 4).slot k).state ≠ .free) ∧
       ∀ k, k < 4 → (((s full).tile 4).slot k).state ≠ .free) ∧
    (((withTile { Tile.idle with slots := [(3, { Slot.idle with state := .landing })] }).tile 0).slot 3).state = .landing ∧
    (let g : Group := ⟨5, 7, 0, [0], [], 0, 0⟩
     let p : FPort := { FPort.idle with groups := [g] }
     let s := inRegion { Region.idle with ports := [(2, p)], tiles := [0] } Tile.idle
     s.live 1 = true ∧ (s.region 1).phase = .running ∧ (s.region 1).ports = [(2, p)] ∧ p.groups = [g]) := by decide +kernel

theorem wit_VeneerRules_crc :
    (let b := Block.make 7 3 2 false 1 2 0 []
     b.w3.extractLsb' 0 32 = crcWords [b.w0, b.w1, b.w2] ∧ (b.w3 ^^^ 1).extractLsb' 0 32 ≠ crcWords [b.w0, b.w1, b.w2]) ∧
    (let c := crc32 (readBytes (damagedPayload [] []) 0 4096)
     crc32 (readBytes (damagedPayload [] []) 0 4096) = ({ Slot.idle with state := .landing, crc := c } : Slot).crc ∧
       crc32 (readBytes (damagedPayload [] []) 0 4096) ≠ ({ Slot.idle with state := .landing, crc := ~~~c } : Slot).crc) := by
  refine ⟨by decide +kernel, rfl, fun h => ?_⟩
  have := congrArg (BitVec.getLsbD · 0) h
  simp at this

/-- R390: the check value of CRC-32 over the characters 1 to 9. -/
theorem test_crc : crc32 [0x31, 0x32, 0x33, 0x34, 0x35, 0x36, 0x37, 0x38, 0x39] = 0xCBF43926 := by decide +kernel

/-- A tile with a route and n packets in each injection buffer. -/
def injecting (e : Word) (n : Nat) : State :=
  withTile { routed e with inject := [(0, List.replicate n (packet [0] true)), (2, List.replicate n (packet [0] true))] }

theorem wit_RouteAndNetworkInstructions_routes :
    (Free (injecting eastRoute 7) (gRange 56 8) ∧ Claims.InjectReady (injecting eastRoute 7) 0) ∧
    (Free (injecting castRoute 7) (gRange 56 8) ∧ Claims.InjectReady (injecting castRoute 7) 0) ∧
    (Free (injecting sumRoute 7) (gRange 56 8) ∧ Claims.InjectReady (injecting sumRoute 7) 2) ∧
    ([eastRoute, hereRoute, castRoute, sumRoute, 0].all fun e => decide ((injecting e 7).curStrand.pc ≠ 8191 ∧
      8 ≤ ((injecting e 8).curTile.injected 0).length ∧ 8 ≤ ((injecting e 8).curTile.injected 2).length ∧
      (injecting e 7).curTile.route 9 = e ∧ (injecting e 7).curTile.received 9 = [])) = true ∧
    ((rValid eastRoute && rKind eastRoute == 0 && rSrc eastRoute) = true ∧ (rValid castRoute && rKind castRoute == 1 && rSrc castRoute) = true ∧
      (rValid sumRoute && rKind sumRoute == 2 && rIn sumRoute 0) = true ∧ (rValid hereRoute && rOut hereRoute 0) = true ∧ rValid 0 = false) ∧
    (let t := (withTile { routed hereRoute with recv := [(9, [packet [1, 2] true])] }).curTile
     t.received 9 = packet [1, 2] true :: [] ∧ (packet [1, 2] true).words.length ≠ 8 ∧ (packet [1, 2] true).words.length = 2 ∧
       (packet [1, 2] true).exc = false) := by
  unfold Free Claims.InjectReady; refine ⟨?_, ?_, ?_, ?_, ?_, ?_⟩ <;> decide

/-- A tile with a ring of 4 slots, a route and n entries in the network queue. -/
def queuing (n : Nat) (e : Word) : Tile := { routed e with
  handles := [(2, ⟨0, 1, 3, 0, 0⟩)]
  netq := List.replicate n ⟨false, 9, 2, 1, 0, 0, 0, false, 0, byStrand⟩ }

/-- Strand 0 with the words of NARM, and a chunk 3. -/
def arming (k : Chunk) : State := withTile ({ routed sumRoute with chunks := [(3, k)] }.setStrand 0 { Strand.idle 0 with
  g := [(1, 64), (2, 0x0900010008000003), (3, 0x0900018000000003), (4, 1), (5, 0x0900010000000003), (6, 0x0900018008000003), (7, 3)] })

theorem wit_RouteAndNetworkInstructions_network :
    ([eastRoute, hereRoute, castRoute, sumRoute].all fun e => decide ((withTile (queuing 7 e)).curStrand.pc ≠ 8191 ∧ (withTile (queuing 7 e)).curTile.route 9 = e ∧
      4 ≤ ((withTile (queuing 7 e)).curTile.ring 2).count ∧ ((withTile (queuing 7 e)).curTile.ring 2).count < 5 ∧ (queuing 7 e).netq.length < 8 ∧
      8 ≤ (queuing 8 e).netq.length)) = true ∧
    (let s := inRegion { Region.idle with info := { Launch.idle with rows := 1, cols := 2 } } (Tile.idle.setStrand 0 { Strand.idle 0 with g := [(1, 0x100000000), (2, 0x200000000)] })
     Free s [1] ∧ Free s [2] ∧ s.curStrand.pc ≠ 8191 ∧ s.curTile.flow.length < 8 ∧
       (s.curStrand.rg 1).toNat / 2 ^ 40 % 256 < s.curRegion.info.rows ∧ (s.curStrand.rg 1).toNat / 2 ^ 32 % 256 < s.curRegion.info.cols ∧
       s.curRegion.info.cols ≤ (s.curStrand.rg 2).toNat / 2 ^ 32 % 256 ∧ s.curTile.row < s.curRegion.info.rows ∧ s.curTile.col < s.curRegion.info.cols) ∧
    (let z := arming { Chunk.idle with stored := true }
     let r (n : Nat) : Nat := (z.curStrand.rg (BitVec.ofNat 6 n)).toNat / 2 ^ 27 % 2 ^ 13
     Free z [8, 1, 2] ∧ Free z [8, 1, 3] ∧ Free z [8, 4, 2] ∧ Free z [8, 1, 7] ∧ Free z [8, 1, 5] ∧ Free z [8, 1, 6] ∧ z.curStrand.pc ≠ 8191 ∧
       (z.curStrand.rg 4).toNat % 64 ≠ 0 ∧ (z.curStrand.rg 1).toNat % 64 = 0 ∧ rValid (z.curTile.route 0) = false ∧ z.curTile.route 9 = sumRoute ∧
       r 2 = 1 ∧ r 3 = 4096 ∧ r 5 = 0 ∧ r 6 = 4097 ∧ (z.curTile.chunk 3).stored = true ∧ (z.curTile.chunk 3).armed = false ∧
       ((arming { Chunk.idle with stored := true, armed := true }).curTile.chunk 3).armed = true ∧
       ((arming Chunk.idle).curTile.chunk 3).stored = false) ∧
    (State.reset.curTile.injecting State.reset.cur.strand = false) ∧
    (let s := withTile { Tile.idle with inject := [(0, [packet [1] true])] }
     s.curTile.injecting s.cur.strand = true) := by
  unfold Free; refine ⟨?_, ?_, ?_, ?_, ?_⟩ <;> decide +kernel

/-- Tile 0 of a running region whose strand 0 has g registers, with a weight set 5 and the region's standing in it. -/
def versionedState (g : Table Word) (w : WeightSet) (p : PvBind) : State :=
  { inRegion { Region.idle with info := { Launch.idle with wset := 5, maxLag := 3 }, pv := [(5, p)], tiles := [0] }
      (Tile.idle.setStrand 0 { Strand.idle 0 with g := g }) with
    registry := [(5, w)] }

/-- A weight set with versions 2 and 65535 in slot sets 0 and 3 and a free slot set 1. -/
def published (v : Nat) : WeightSet :=
  { WeightSet.idle with
    published := v
    slots := [(0, ⟨true, 0, 0x1000, 64, 2⟩), (1, ⟨true, 0, 0x2000, 64, 0⟩), (3, ⟨true, 0, 0x4000, 64, 65535⟩)] }

theorem wit_VersionRules :
    (let s := versionedState [(1, 0x20005)] (published 2) PvBind.idle
     let x := s.weights 5
     Ready s [4] ∧ Ready s [4, 1] ∧ Ready s [1] ∧ (s.curStrand.rg 1).toNat % 64 = 5 ∧ x.holder 2 ≠ none ∧ x.holder 3 = none ∧
       (tabGet Pin.idle s.curTile.pins 0).valid = false ∧ x.published ≠ 0xFFFF ∧ x.published < 0xFFFF ∧ x.reserved = none ∧ x.freeSlot = some 1 ∧
       (∀ k, x.reserved ≠ some (s.curTile.handle, k))) ∧
    (let pin (n : Nat) : Table Pin := (upFrom 0 n).map fun k => (k, ⟨true, 5, 2⟩)
     (∀ n, n < 8 → (tabGet Pin.idle (pin n) n).valid = false ∧ ∀ k, k < n → (tabGet Pin.idle (pin n) k).valid = true) ∧
       (∀ k, k < 8 → (tabGet Pin.idle (pin 8) k).valid = true ∧ (tabGet Pin.idle (pin 8) k).version ≠ 0)) ∧
    (let s := versionedState [(1, 5)] (published 65535) PvBind.idle
     Ready s [4, 1] ∧ (s.weights 5).published = 0xFFFF) ∧
    (let s := versionedState [(1, 5)] { published 2 with reserved := some (1, 1) } PvBind.idle
     Ready s [4, 1] ∧ (s.weights 5).reserved = some (s.curTile.handle, 1) ∧ (s.weights 5).published < 0xFFFF ∧ (s.weights 5).reserved ≠ none) := by
  unfold Ready Free; refine ⟨⟨?_, ?_, ?_, ?_, ?_, ?_, ?_, ?_, ?_, ?_, ?_, fun k => ?_⟩, ?_, ?_, ?_⟩ <;> first | decide | exact nofun

theorem wit_VersionRules_switch :
    (let s := versionedState [(1, 5)] (published 2) PvBind.idle
     let p := s.curRegion.pvOf 5
     Ready s [4, 1] ∧ (s.weights 5).holder 2 ≠ none ∧ p.bound = 0 ∧ p.started = false ∧ p.pending = none ∧ s.lag s.curRegion ≤ 3) ∧
    (let s := versionedState [(1, 0xFFFF0005)] (published 2) ⟨true, 2, none, 4294967295, true⟩
     let p := s.curRegion.pvOf 5
     Ready s [4, 1] ∧ (s.curStrand.rg 1).toNat / 2 ^ 16 % 2 ^ 16 = 65535 ∧ (s.weights 5).holder 65535 ≠ none ∧ p.bound ≠ 65535 ∧ p.bound ≠ 0 ∧
       p.pending = none ∧ (s.weights 5).holder 2 ≠ none ∧ p.bound = 2) ∧
    (∀ q ∈ [2, 65535],
      let s := versionedState [(1, 0xFFFF0005)] { published 2 with refs := [(65535, 1)] } ⟨true, 2, some q, 7, true⟩
      let p := s.curRegion.pvOf 5
      Ready s [4, 1] ∧ (s.weights 5).holder 65535 ≠ none ∧ p.bound ≠ 0 ∧ p.started = true ∧ p.pending = some q ∧ q ≠ 0) ∧
    (let x := { published 3 with refs := [(65535, 1)] }
     x.count 65535 = 1 ∧ 65535 ≠ x.published ∧ x.holder 65535 = some 3) ∧
    (let s := versionedState [] (published 3) ⟨true, 65535, some 2, 1, true⟩
     s.live 1 = true ∧ ((s.region 1).pvOf 5).pending = some 2 ∧ 0 < (s.region 1).info.maxLag ∧ ¬ s.lag (s.region 1) ≤ (s.region 1).info.maxLag) := by
  unfold Ready Free; decide

/-- Tile 0 of a running region with a barrier 3, and a hold of strand 0. -/
def barred (b : Barrier) (arm : Option Nat) (h : Hold) : State :=
  inRegion { Region.idle with barriers := [(3, b)], arm := arm, tiles := [0] } (Tile.idle.setStrand 0 { Strand.idle 0 with g := [(1, 0xFFFF0003)], hold := h })

theorem wit_BarrierRules :
    (let s := barred ⟨7, 65535, 65534, [(6, ⟨0, 2⟩)], [(4, ⟨2, 1⟩), (5, ⟨0, 0⟩)]⟩ (some 3) .none
     let x := s.curRegion.barrier 3
     Free s [4, 1] ∧ Ready s [4] ∧ Ready s [] ∧ (s.curStrand.rg 1).toNat % 64 = 3 ∧ (s.curStrand.rg 1).toNat / 2 ^ 16 % 2 ^ 16 = 65535 ∧
       s.curStrand.hold = .none ∧ x.count = 65535 ∧ x.arrived + 1 = 65535 ∧ x.arrived ≠ 0 ∧ x.count ≠ 65534 ∧
       ((s.region 1).barrier 3).passing = (6, ⟨0, 2⟩) :: [] ∧ (s.region 1).arm = some 3 ∧ (s.tile 0).bound ≠ none) ∧
    (let s := barred ⟨7, 2, 0, [(6, ⟨0, 2⟩)], []⟩ none .none
     let x := s.curRegion.barrier 3
     Ready s [4] ∧ s.curStrand.hold = .none ∧ x.arrived = 0 ∧ x.arrived + 1 ≠ 2 ∧ x.arrived + 1 = 1 ∧ (s.region 1).arm ≠ some 3) ∧
    (let s (n : Nat) : State := barred ⟨7, 0, 0, [], [(4, ⟨2, 1⟩), (5, ⟨0, 0⟩)]⟩ none (.arrived n)
     Ready (s 4) [4] ∧ (s 4).curStrand.hold = .arrived 4 ∧ tabGet ⟨0, 0⟩ ((s 4).curRegion.barrier 3).done 4 = ⟨2, 0 + 1⟩ ∧
       (s 7).curStrand.hold = .arrived 7 ∧ tabGet ⟨0, 0⟩ ((s 7).curRegion.barrier 3).done 7 = ⟨0, 0⟩) ∧
    (let t := State.reset.curTile
     Ready State.reset [1] ∧ t.spindle.entries = [] ∧ t.spindle.runs = [] ∧ t.matrix.queue = []) ∧
    (withTile { Tile.idle with matrix := heading .swap byActor }).curTile.matrix.queue ≠ [] := by
  unfold Ready Free; refine ⟨?_, ?_, ?_, ?_, ?_⟩ <;> decide

/-- Strand 0 with a STASH or UNSTASH of offset 0x400 and header or key, and a stash of two slots of 64 bytes at 0x1000. -/
def stashing (off key : Word) (es : List StashEntry) : State :=
  inRegion { Region.idle with tiles := [0] } { Tile.idle.setStrand 0 { Strand.idle 0 with g := [(1, off), (2, key)] } with
    stash := ⟨⟨0x1000, 1, 1, 0, 0⟩, 2, es⟩ }

theorem wit_StashRules :
    (let s := stashing 0x400 56 []
     let x := s.curTile.stash
     Ready s [1, 2] ∧ Ready s [4, 1, 2] ∧ (s.curStrand.rg 1).toNat % 8 = 0 ∧ (s.curStrand.rg 2).toNat % 2 ^ 26 + 8 ≤ x.handle.slotBytes ∧
       x.handle.slotBytes < 57 + 8 ∧ x.capacity ≠ 0 ∧ (s.curStrand.rg 2).toNat / 2 ^ 32 % 2 ^ 16 = 0 ∧ s.curTile.spadFault 0x400 56 false = none ∧
       x.freeSlot = some 0 ∧ x.entries = []) ∧
    ((stashing 0x401 0 []).curStrand.rg 1).toNat % 8 ≠ 0 ∧
    (let s := { stashing 0x400 57 [] with tiles := (withTile ((stashing 0x400 57 []).curTile)).tiles }
     s.curTile.stash.handle.slotBytes < (s.curStrand.rg 2).toNat % 2 ^ 26 + 8) ∧
    (State.reset.curTile.stash.capacity = 0 ∧ 0 + 8 ≤ State.reset.curTile.stash.handle.slotBytes) ∧
    (let s := stashing 0x400 56 [⟨0, some 0, [], []⟩, ⟨1, some 1, [], []⟩]
     Ready s [1, 2] ∧ s.curTile.stash.freeSlot = none ∧ takeFrames (entryFrames 56) s = none ∧ s.curStrand.hold ≠ .stashing ∧
       s.curRegion.info.gangTag = 0) ∧
    (let e : StashEntry := ⟨0x0009000014000010, some 1, [], []⟩
     let s := stashing 0x400 0x50009 [⟨0x0008000014000010, some 0, [], []⟩, e]
     Ready s [4, 1, 2] ∧ s.curTile.stash.entries[1]? = some e ∧ e.header.toNat / 2 ^ 48 = (s.curStrand.rg 2).toNat % 2 ^ 16 ∧
       e.header.toNat / 2 ^ 26 % 64 = (s.curStrand.rg 2).toNat / 2 ^ 16 % 64 ∧
       (∀ f ∈ s.curTile.stash.entries.take 1, f.header.toNat / 2 ^ 48 ≠ (s.curStrand.rg 2).toNat % 2 ^ 16) ∧
       s.curTile.spadFault 0x400 16 true = none) ∧
    (let s (es : List StashEntry) : State := { stashing 0 0 es with regions := [(1, { (stashing 0 0 es).region 1 with stashOpen := false })] }
     (s []).live 1 = true ∧ ((s []).region 1).stashOpen = false ∧ ((s []).region 1).info.gangTag = 0 ∧
       (∀ t ∈ ((s []).region 1).tiles, 4 * ((s []).tile t).stash.fill ≤ 3 * ((s []).tile t).stash.capacity ∧ ∀ e ∈ ((s []).tile t).stash.entries, e.slot ≠ none) ∧
       ∃ t ∈ ((s [⟨0, some 0, [], []⟩, ⟨1, some 1, [], []⟩]).region 1).tiles,
         3 * ((s [⟨0, some 0, [], []⟩, ⟨1, some 1, [], []⟩]).tile t).stash.capacity < 4 * ((s [⟨0, some 0, [], []⟩, ⟨1, some 1, [], []⟩]).tile t).stash.fill) ∧
    (let s (es : List StashEntry) : State :=
       let saved : Table Tile := [(0, { Tile.idle with stash := ⟨⟨0x1000, 1, 1, 0, 0⟩, 2, es⟩ })]
       { State.reset with regions := [(1, { Region.idle with info := { Launch.idle with handle := 1 }, phase := .frozen, stashOpen := false, saved := saved })] }
     let own (s : State) : List Tile :=
       (if (s.region 1).awaiting || (s.region 1).phase == .frozen then [] else (s.region 1).tiles.map s.tile) ++ (s.region 1).saved.map (·.2)
     (s []).live 1 = true ∧ ((s []).region 1).stashOpen = false ∧ ((s []).region 1).info.gangTag = 0 ∧
       (∀ t ∈ own (s [⟨0, some 0, [], []⟩]), 4 * t.stash.fill ≤ 3 * t.stash.capacity ∧ ∀ e ∈ t.stash.entries, e.slot ≠ none) ∧
       ∃ t ∈ own (s [⟨0, none, [], [7]⟩]), ∃ e ∈ t.stash.entries, e.slot = none) := by
  unfold Ready Free; refine ⟨?_, ?_, ?_, ?_, ?_, ?_, ?_, ?_⟩ <;> decide

/-- Strand 0 with the words of a COPY, and the copy engine of its tile. -/
def copying (dst src n v : Word) (x : Machine.CopyEngine) : State :=
  running { Tile.idle.setStrand 0 { Strand.idle 0 with g := [(1, dst), (2, src), (3, n), (4, v)] } with copy := x }

/-- One element of raw bytes from 0xBFFF0 to 0xBFFE8. -/
def copyOne (next : Nat) : CopyOp := ⟨0xBFFE8, 0xBFFF0, true, true, 1, 0, none, next⟩

theorem wit_CopyRules :
    (let s := copying 0xBFFE8 0xBFFF0 1 0 Machine.CopyEngine.idle
     let t := s.curTile
     Ready s [8, 1, 2, 3] ∧ (s.curStrand.rg 1).toNat / 2 ^ 59 = 0 ∧ (s.curStrand.rg 2).toNat / 2 ^ 59 = 0 ∧
       t.extentOk ((s.curStrand.rg 1).toNat % 2 ^ 56) (extentBytes (s.curStrand.rg 1) 1) = true ∧
       t.extentOk ((s.curStrand.rg 2).toNat % 2 ^ 56) (extentBytes (s.curStrand.rg 2) 1) = true ∧
       ptrAligned (s.curStrand.rg 1) = true ∧ ptrAligned (s.curStrand.rg 2) = true ∧ t.bindsStream 7 = false ∧ t.copy.ops.length < 16) ∧
    (let s := copying 0x5000000000000000 0x4800000000000000 1 0 { Machine.CopyEngine.idle with ops := List.replicate 16 (copyOne 0) }
     Ready s [8, 1, 2, 3] ∧ 10 ≤ (s.curStrand.rg 1).toNat / 2 ^ 59 ∧ (s.curStrand.rg 2).toNat / 2 ^ 59 < 10 ∧ 16 ≤ s.curTile.copy.ops.length) ∧
    (let s := copying 0x0000000000000000 0x4800000000000000 1 0 Machine.CopyEngine.idle
     Ready s [8, 1, 2, 3] ∧ ((s.curStrand.rg 1).toNat / 2 ^ 59 = 0 ↔ (s.curStrand.rg 2).toNat / 2 ^ 59 ≠ 0)) ∧
    (let y : Machine.CopyEngine := ⟨[copyOne 0], 4, 2, none, [(1, 0x1000), (3, 0x2000)]⟩
     let s (v : Word) : State := copying 0 0 0 v y
     let passed (a b : BitVec 32) : Prop := (a - b).toNat < 2 ^ 31
     (Ready (s 1) [8, 4] ∧ ((s 1).curStrand.rg 4).toNat < 2 ^ 32) ∧ passed 4 y.issued ∧ ¬ passed 1 y.issued ∧ passed y.completed (1 + 1) ∧
       ¬ passed 2 y.issued ∧ ¬ passed y.completed (2 + 1) ∧
       ((s 0x4000000300000000).curStrand.rg 4).toNat / 2 ^ 34 = 2 ^ 28 ∧ passed ((s 0).curTile.chunk 3).fires 0 ∧
       ¬ passed ((s 0).curTile.chunk 3).fires 1 ∧ 2 ^ 63 ≤ ((s 0x8000000000000000).curStrand.rg 4).toNat) ∧
    (∀ n, n < 2 →
      let s := copying 0 0 0 0 { Machine.CopyEngine.idle with ops := [copyOne n] }
      s.active 0 = true ∧ (s.tile 0).copy.ops = [copyOne n] ∧ (s.tile 0).copy.fault = none ∧ (copyOne n).count = 1 ∧ (copyOne n).next = n ∧
        (copyOne n).dsp = true ∧ (copyOne n).ssp = true ∧ (copyOne n).stream = none ∧ (copyOne n).dst.toNat < 0xC0000 ∧
        (copyOne n).src.toNat < 0xC0000) ∧
    (∀ k, k < 17 →
      let op : CopyOp := { copyOne 0 with stream := some 7 }
      let s := copying 0 0 0 0 { Machine.CopyEngine.idle with ops := [op] }
      let x := { s.tile 0 with ports := [(arrivePort 7, List.replicate k (tok 0 false false))] }
      op.next < op.count ∧ (x.portRoom (arrivePort 7) = 0 ↔ k = 16)) := by
  unfold Ready Free; refine ⟨?_, ?_, ?_, by simp only; decide, ?_, ?_⟩ <;> decide

/-- Tile 0, whose L1 holds line 0x1000 clean and line 0x2000 dirty in its first byte, after COPYs of the ordinals 1 and 3 that wrote there. -/
def copied : State := withTile { Tile.idle with
  l1 := [(0x1000, ⟨0, 0⟩), (0x2000, ⟨0, 1⟩)]
  copy := ⟨[], 4, 4, none, [(1, 0x1000), (3, 0x2000)]⟩ }

theorem wit_CopyRules_join :
    let x := (copied.tile 0).copy
    let past (o : Word) (e : BitVec 32 × Nat) : Prop := ((o.truncate 32 : BitVec 32) - e.1).toNat < 2 ^ 31
    (∃ e ∈ x.wrote, past 1 e ∧ e.2 = 0x20000 / 32) ∧ ¬ DirtyAt copied 0 0x20000 ∧ 0x20000 ∉ copied.uncorr ∧
      DirtyAt copied 0 0x40000 ∧ (∀ e ∈ x.wrote, past 1 e → e.2 ≠ 0x40001 / 32) ∧ ¬ DirtyAt copied 0 0x40001 := by
  refine ⟨by simp only; decide, ?_, by decide, ⟨_, rfl, by decide⟩, by simp only; decide, ?_⟩
  all_goals
    rintro ⟨l, h, d⟩
    cases h
    revert d; decide

/-- One element of FMT 8, the last of its array, inside the scratchpad and from memory. -/
def copyPacked (ssp : Bool) : CopyOp := ⟨0x40000000000BFFE8, if ssp then 0x40000000000BFFF0 else 0x4000123456000000, true, ssp, 1, 0, none, 0⟩

theorem wit_CopyRules_elements :
    (let s := copying 0xBFFFF 0x0 2 0 Machine.CopyEngine.idle
     Ready s [8, 1, 2, 3] ∧ s.curTile.extentOk 0xBFFFF (extentBytes 0xBFFFF 2) = false ∧ s.curTile.extentOk 0 (extentBytes 0 2) = true) ∧
    ((0x1000000000000001 : Word).toNat / 2 ^ 59 = 2 ∧ (0x1000000000000001 : Word).toNat % 2 ^ 56 % fmtBytes 2 ≠ 0) ∧
    ({ Tile.idle with queues := [(3, .arrive 7)] } : Tile).bindsStream 7 = true ∧
    (let s := copying 0 0 0 0 { Machine.CopyEngine.idle with ops := [copyPacked true] }
     (copyPacked true).next + 1 = (copyPacked true).count ∧ (∃ u, copyElement s 0 (copyPacked true) = .ok u ()) ∧
       ∃ s1 s2 ssc sp dsc dp se sv de old, elemPlaces s 0 0 true false (copyPacked true).src = .ok s1 (ssc, sp) ∧
         elemPlaces s1 0 0 true true (copyPacked true).dst = .ok s2 (dsc, dp) ∧ copyRead s2 0 true ssc = some se ∧
         copyRead s2 0 true sp = some sv ∧ copyRead s2 0 true dsc = some de ∧ copyRead s2 0 true dp = some old ∧ dp.Nodup) ∧
    (let s := copying 0 0 0 0 { Machine.CopyEngine.idle with ops := [copyOne 0] }
     (copyOne 0).dst.toNat / 2 ^ 59 = 0 ∧ ∃ s1 s2 ssc sp dsc dp se sv de, elemPlaces s 0 0 true false (copyOne 0).src = .ok s1 (ssc, sp) ∧
       elemPlaces s1 0 0 true true (copyOne 0).dst = .ok s2 (dsc, dp) ∧ copyRead s2 0 true ssc = some se ∧ copyRead s2 0 true sp = some sv ∧
       copyRead s2 0 true dsc = some de ∧ dp.Nodup) ∧
    (let op := { copyPacked true with dsp := false, dst := 0x4000123456000000 }
     let s := { copying 0 0 0 0 { Machine.CopyEngine.idle with ops := [op] } with contexts := mapped.contexts, mem := mapped.mem }
     (∃ u, copyElement s 0 op = .ok u ()) ∧
       ∃ s1 s2 ssc sp dsc dp se sv de old, elemPlaces s 0 0 true false op.src = .ok s1 (ssc, sp) ∧
         elemPlaces s1 0 0 false true op.dst = .ok s2 (dsc, dp) ∧ copyRead s2 0 true ssc = some se ∧
         copyRead s2 0 true sp = some sv ∧ copyRead s2 0 false dsc = some de ∧ copyRead s2 0 false dp = some old ∧ dp.Nodup) ∧
    (let s := copying 0 0 0 0 { Machine.CopyEngine.idle with ops := [copyPacked false] }
     ∃ u m, copyElement s 0 (copyPacked false) = .hold u m) := by
  refine ⟨?_, by decide, by decide, ⟨by decide, ⟨_, rfl⟩, ⟨_, _, _, _, _, _, _, _, _, _, rfl, rfl, rfl, rfl, rfl, rfl, by decide⟩⟩,
    ⟨by decide, _, _, _, _, _, _, _, _, _, rfl, rfl, rfl, rfl, rfl, by decide⟩,
    ⟨⟨_, rfl⟩, ⟨_, _, _, _, _, _, _, _, _, _, rfl, rfl, rfl, rfl, rfl, rfl, by decide⟩⟩, ⟨_, _, rfl⟩⟩
  unfold Ready Free; decide

/-- A state whose registry holds weight set 5 with version 2, and a strand that stashes a header naming it. -/
def stashingVersion (v : Word) (acc : BitVec 256) : State :=
  { stashing 0x400 (v * 2 ^ 32 + 0x14000010) [] with registry := [(5, published 2)], accepted := acc }

theorem wit_StashRules_versions :
    (let s := stashingVersion 2 0x20
     Ready s [1, 2] ∧ (s.curStrand.rg 2).toNat / 2 ^ 32 % 2 ^ 16 = 2 ∧ (s.curStrand.rg 2).toNat / 2 ^ 26 % 64 = 5 ∧ s.accepted.getLsbD 5 = true ∧
       ((s.weights 5).slot 0).version = 2 ∧ (s.curStrand.rg 2).toNat % 2 ^ 26 + 8 ≤ s.curTile.stash.handle.slotBytes ∧
       s.curTile.spadFault 0x400 16 false = none ∧ s.curTile.stash.freeSlot = some 0) ∧
    ((stashingVersion 2 0).accepted.getLsbD 5 = false ∧ ∀ j, j < 4 → (((stashingVersion 3 0x20).weights 5).slot j).version ≠ 3) ∧
    (let es : List StashEntry := [⟨0, some 0, [], []⟩, ⟨0x0009000014000010, none, [], [7]⟩]
     let s := { stashing 0x400 0x50009 (es ++ [⟨1, some 1, [], []⟩]) with accepted := 8, colCount := [(0, 22)], rowCount := [(0, 28)] }
     s.curTile.stash.freeSlot = none ∧ (takeFrames (entryFrames 56) s).isSome ∧ s.curTile.stash.entries[1]? = some ⟨0x0009000014000010, none, [], [7]⟩ ∧
       s.curTile.spadFault 0x400 16 true = none) := by
  unfold Ready Free; refine ⟨?_, ?_, ?_⟩
  · decide
  · decide
  · decide +kernel

/-- The header frame of an image of one row, one column and no block (R101, R102), and its digest, SHA-256 of the frame and two zero ones. -/
def emptyHeader : Frame := BitVec.ofNat 256 (2 ^ 240 + 4 * 2 ^ 232 + 2 ^ 152 + 2 ^ 144)
def emptyImage : List Frame := [emptyHeader, 0, 0, 0xacd645191051bf511b397c7c3858be297977c65d807c869e17176c531b907be0]

/-- A privileged strand with that image at a mapped address. -/
def derivable : State :=
  { mapped with
    tiles := (withStrand { Strand.idle 0 with kstatus := 1, g := [(1, 0x123456000000), (2, 0x123456003000), (3, 0x123456000100)] }).tiles
    mem := writeBytes mapped.mem 0x42000000 (emptyImage.flatMap fun f => natLe 32 f.toNat) }

/-- An image with one block, whose first payload is a lane configuration of zeros, and its digest, SHA-256 of the other frames. -/
def laneImage : List Frame := BitVec.ofNat 256 (2 ^ 240 + 4 * 2 ^ 232 + 2 ^ 160 + 2 ^ 152 + 2 ^ 144) :: 0 :: 0 ::
  0x6fae673fb0ed79b7b61967c193724287c99689cadd8b33bd529cb80b7ecf4494 :: 0x20000000 :: List.replicate 8 0

/-- A privileged strand with that image and, behind it, a template table of zeros. -/
def underivable : State :=
  { derivable with
    tiles := (withStrand { Strand.idle 0 with kstatus := 1, g := [(1, 0x123456000000), (2, 0x123456003000), (3, 0x123456001000)] }).tiles
    mem := writeBytes mapped.mem 0x42000000 (laneImage.flatMap fun f => natLe 32 f.toNat) }

/-- A burst changes nothing where no correctable error lies. -/
theorem burst_none {s : State} (hc : s.correctable = []) (pas : List Nat) : s.burst pas = s := by
  cases s; simp_all [State.burst]

/-- A byte read through L1 in a tile without L1 lines is the byte at its home. -/
theorem readVia_home {s : State} (hl : s.curTile.l1 = []) (hn : s.curTile.l1Lines = 0) (hu : s.uncorr = []) (hc : s.correctable = [])
    (pa : Nat) :
    s.readVia s.cur.tile pa = (s, some (readByte s.mem pa)) := by
  have hl' : (s.tile s.cur.tile).l1 = [] := hl
  have hn' : (s.tile s.cur.tile).l1Lines = 0 := hn
  have h : s.fillLine s.cur.tile (pa / 32) = s := by
    simp [State.fillLine, hl', l1Find, State.allocates, hn']
  simp [State.readVia, h, hl', l1Find, State.homeFetch, burst_none hc, State.homeRead, hu]

/-- In such a tile a read of bytes always completes and leaves the state. -/
theorem readPas_home {s : State} (hl : s.curTile.l1 = []) (hn : s.curTile.l1Lines = 0) (hu : s.uncorr = []) (hc : s.correctable = []) (v : Word) (pas : List Nat) :
    ∃ bs, readPas false v s pas = .ok (s, bs) := by
  induction pas with
  | nil => exact ⟨_, rfl⟩
  | cons pa pas ih =>
    obtain ⟨bs, h⟩ := ih
    exact ⟨readByte s.mem pa :: bs, by simp only [readPas, readVia_home hl hn hu hc, bind, Except.bind, h, Bool.false_eq_true, if_false] <;> rfl⟩

/-- And so does a read of frames. -/
theorem derFrames_home {s : State} (hl : s.curTile.l1 = []) (hn : s.curTile.l1Lines = 0) (hu : s.uncorr = []) (hc : s.correctable = []) (pages : List (BitVec 56 × Nat))
    (n : Nat) (va : BitVec 56) : ∃ fs, derFrames pages va n s = .ok (s, fs) := by
  induction n generalizing va with
  | zero => exact ⟨_, rfl⟩
  | succ n ih =>
    obtain ⟨fs, h⟩ := ih (va + 32)
    obtain ⟨bs, hb⟩ := readPas_home hl hn hu hc (va.zeroExtend 64) ((vaRange va 32).map (homeOf pages))
    exact ⟨_ :: fs, by simp only [derFrames, hb, bind, Except.bind, h] <;> rfl⟩

/-- The first of the frames read is the one that is read alone. -/
theorem derFrames_first {s : State} {pages : List (BitVec 56 × Nat)} {va : BitVec 56} {n : Nat} {s1 s2 : State} {x : Frame} {fs : List Frame}
    (h : derFrames pages va 1 s = .ok (s1, [x])) (k : derFrames pages va (n + 1) s = .ok (s2, fs)) : frameAt fs 0 = x := by
  simp only [derFrames] at h k
  cases hr : readPas false (va.zeroExtend 64) s ((vaRange va 32).map (homeOf pages)) with
  | error e => simp [hr, bind, Except.bind] at h
  | ok p =>
    simp only [hr, bind, Except.bind, pure, Except.pure] at h k
    split at k
    · cases k
    · simp only [Except.ok.injEq, Prod.mk.injEq, List.cons.injEq] at h k
      rw [← k.2, ← h.2.1]; rfl

/-- What BWDDERIVE reads before the table, run in order: the image is the one of a header frame, and the table begins with a frame. -/
def derivesAt (s : State) (va vb vc : BitVec 56) (image : List Frame) (first : Frame) : Bool :=
  match rangePas s va 32 false with
  | .ok (s0, p0) => match derFrames p0 va 1 s0 with
    | .ok (s1, [h]) => match rangePas s1 va (32 * imageFrames h) false with
      | .ok (s2, pf) => match rangePas s2 vc (32 * 257) false with
        | .ok (s3, pt) => match rangePas s3 vb (32 * imageFrames h) true with
          | .ok (s4, _) => match derFrames pf va (imageFrames h) s4 with
            | .ok (s5, im) => match derFrames pt vc 1 s5 with
              | .ok (_, [x]) => im == image && s5.curTile.l1 == [] && s5.curTile.l1Lines == 0 && s5.uncorr == [] && s5.correctable == [] && x == first
              | _ => false
            | .error _ => false
          | .error _ => false
        | .error _ => false
      | .error _ => false
    | _ => false
  | .error _ => false

theorem derivesAt_says {s : State} {va vb vc : BitVec 56} {image : List Frame} {first : Frame} {ends : Except (Nat × List Frame) (List Frame) → Prop}
    (h : derivesAt s va vb vc image first = true) (hd : ∀ sr tbl, frameAt tbl 0 = first → ends (derive sr tbl image)) :
    ∃ s0 s1 s2 s3 s4 s5 s6 p0 pf pt po x im tbl, rangePas s va 32 false = .ok (s0, p0) ∧ derFrames p0 va 1 s0 = .ok (s1, [x]) ∧
      rangePas s1 va (32 * imageFrames x) false = .ok (s2, pf) ∧ rangePas s2 vc (32 * 257) false = .ok (s3, pt) ∧
      rangePas s3 vb (32 * imageFrames x) true = .ok (s4, po) ∧ derFrames pf va (imageFrames x) s4 = .ok (s5, im) ∧
      derFrames pt vc 257 s5 = .ok (s6, tbl) ∧ ends (derive (s6.feature 6) tbl im) := by
  unfold derivesAt at h
  repeat (split at h <;> try contradiction)
  rename_i s0 p0 h0 _ s1 x h1 _ s2 pf h2 _ s3 pt h3 _ s4 po h4 _ s5 im h5 _ _ y h6
  simp only [Bool.and_eq_true, beq_iff_eq] at h
  obtain ⟨⟨⟨⟨⟨rfl, hl⟩, hn⟩, hu⟩, hc⟩, rfl⟩ := h
  obtain ⟨tbl, ht⟩ := derFrames_home hl hn hu hc pt 257 vc
  exact ⟨_, _, _, _, _, _, _, _, _, _, _, _, _, _, h0, h1, h2, h3, h4, h5, ht, hd _ tbl (derFrames_first h6 ht)⟩

theorem derives : derivesAt derivable 0x123456000000 0x123456003000 0x123456000100 emptyImage 0 = true := by decide +kernel

theorem derives_not : derivesAt underivable 0x123456000000 0x123456003000 0x123456001000 laneImage 0 = true := by decide +kernel

theorem derive_emptyImage (sr : Bool) (tbl : List Frame) : ∃ fs, derive sr tbl emptyImage = .ok fs := by
  have h : ∀ sr, checkImage sr (fr (frameAt emptyImage 0) 152 8) (fr (frameAt emptyImage 0) 144 8) emptyImage = none := by decide +kernel
  unfold derive
  simp only [h]
  exact ⟨_, rfl⟩

theorem derive_laneImage (sr : Bool) (tbl : List Frame) (ht : frameAt tbl 0 = 0) :
    derive sr tbl laneImage = .error (0x20000000, deriveHead laneImage) := by
  have h : ∀ sr, checkImage sr (fr (frameAt laneImage 0) 152 8) (fr (frameAt laneImage 0) 144 8) laneImage = none := by decide +kernel
  have p : (payloads laneImage).head? = some ⟨0x20000000, 5, 4, 0⟩ := by decide +kernel
  have n : templateOf tbl 0x20000000 0 = none := by
    have z : ∀ e, (fr (0 : Frame) (4 * e) 4 == tClass 0x20000000) = false := fun e => by simp [fr, natBits, tClass]
    simp only [templateOf, ht, z, Bool.false_and, List.find?_eq_none, Bool.false_eq_true, not_false_iff, implies_true]
  obtain ⟨r, p⟩ := List.head?_eq_some_iff.mp p
  have d : ∀ e, derivePayload tbl e ⟨0x20000000, 5, 4, 0⟩ = none := fun e => by
    simp only [derivePayload, n]; rfl
  unfold derive
  simp only [h, p, deriveBody, d]

theorem wit_CopyRules_derive : Ready derivable [4, 1, 2, 3] ∧ derivable.curStrand.priv = true ∧
    (∃ s0 s1 s2 s3 s4 s5 s6 p0 pf pt po h im tbl,
      let va : BitVec 56 := (derivable.curStrand.rg 1).truncate 56
      let vb : BitVec 56 := (derivable.curStrand.rg 2).truncate 56
      let vc : BitVec 56 := (derivable.curStrand.rg 3).truncate 56
      rangePas derivable va 32 false = .ok (s0, p0) ∧ derFrames p0 va 1 s0 = .ok (s1, [h]) ∧
      rangePas s1 va (32 * imageFrames h) false = .ok (s2, pf) ∧ rangePas s2 vc (32 * 257) false = .ok (s3, pt) ∧
      rangePas s3 vb (32 * imageFrames h) true = .ok (s4, po) ∧ derFrames pf va (imageFrames h) s4 = .ok (s5, im) ∧
      derFrames pt vc 257 s5 = .ok (s6, tbl) ∧ ∃ fs, derive (s6.feature 6) tbl im = .ok fs) ∧
    Ready underivable [4, 1, 2, 3] ∧ underivable.curStrand.priv = true ∧
    (∃ s0 s1 s2 s3 s4 s5 s6 p0 pf pt po h im tbl,
      let va : BitVec 56 := (underivable.curStrand.rg 1).truncate 56
      let vb : BitVec 56 := (underivable.curStrand.rg 2).truncate 56
      let vc : BitVec 56 := (underivable.curStrand.rg 3).truncate 56
      rangePas underivable va 32 false = .ok (s0, p0) ∧ derFrames p0 va 1 s0 = .ok (s1, [h]) ∧
      rangePas s1 va (32 * imageFrames h) false = .ok (s2, pf) ∧ rangePas s2 vc (32 * 257) false = .ok (s3, pt) ∧
      rangePas s3 vb (32 * imageFrames h) true = .ok (s4, po) ∧ derFrames pf va (imageFrames h) s4 = .ok (s5, im) ∧
      derFrames pt vc 257 s5 = .ok (s6, tbl) ∧
      ∃ target fs, derive (s6.feature 6) tbl im = .error (target, fs) ∧ fs ≠ []) ∧
    Ready State.reset [4, 1, 2, 3] ∧ State.reset.curStrand.priv = false :=
  ⟨by unfold Ready Free; decide, by decide,
    derivesAt_says (ends := fun x => ∃ fs, x = .ok fs) derives fun sr tbl _ => derive_emptyImage sr tbl,
    by unfold Ready Free; decide, by decide,
    derivesAt_says (ends := fun x => ∃ target fs, x = .error (target, fs) ∧ fs ≠ []) derives_not
      fun sr tbl h => ⟨_, _, derive_laneImage sr tbl h, by simp [deriveHead]⟩, by unfold Ready Free; decide, by decide⟩

/-- A memory with a page table of one entry a level: the leaf maps the page at 0x123440000000, resident or away. -/
def tableMem (away : Bool) : Memory :=
  [(0x100000, 1), (0x100002, 0x20), (0x200918, 1), (0x20091A, 0x30), (0x301158, 1), (0x30115A, 0x40),
    (0x400000, if away then 0x87 else 7), (0x400003, 0x42)]

/-- The leaf of that page. -/
def tableLeaf (away : Bool) : Leaf := ⟨20015990439936, 0x400000, if away then 0x42000087 else 0x42000007, 14⟩

/-- A context with that table as its root, a free stack frame, an eviction in progress, and a domain. -/
def tabled (quota : Nat) (moved : Table MovedPage) (away : Bool) (ev : Option Evicting) (asked dom : List Nat) : State :=
  { State.reset with
    contexts := [(0, some ⟨0, 0x100000, quota, 0, 0, [], false, 0, moved, ev⟩)], accepted := 0x88, mem := tableMem away
    freeStack := [0x50000000], domain := dom, shoots := [(4, some ⟨⟨0, false, 0, 16384⟩, asked, [], 0⟩)] }

theorem readWord_absent {m : Memory} {a : Nat} (h : ∀ c ∈ m, c.1 < a ∨ a + 8 ≤ c.1) : readWord m a = 0 := by
  have get : ∀ (t : Memory) (k : Nat), (∀ c ∈ t, c.1 ≠ k) → readByte t k = 0 := by
    intro t k
    induction t with
    | nil => intro _; rfl
    | cons c t ih =>
      intro hk
      have hc : c.1 ≠ k := hk c (by simp)
      have := ih fun d hd => hk d (by simp [hd])
      unfold readByte at this ⊢
      simp only [tabGet, hc, if_false]
      exact this
  have byte : ∀ n, n < 8 → readByte m (a + n) = 0 := fun n hn => get m (a + n) fun c hc => by have := h c hc; omega
  have b0 := byte 0 (by omega)
  simp only [readWord, readNat, readBytes, leNat, Nat.add_assoc, byte 1 (by omega), byte 2 (by omega), byte 3 (by omega), byte 4 (by omega),
    byte 5 (by omega), byte 6 (by omega), byte 7 (by omega)]
  simp at b0
  simp [b0]

theorem upFrom_append (a n k : Nat) : upFrom a (n + k) = upFrom a n ++ upFrom (a + n) k := by
  induction n generalizing a with
  | zero => simp [upFrom]
  | succ n ih => rw [show n + 1 + k = (n + k) + 1 by omega, show a + (n + 1) = a + 1 + n by omega]; simp only [upFrom, ih, List.cons_append]

theorem mem_upFrom {a n i : Nat} (h : i ∈ upFrom a n) : a ≤ i ∧ i < a + n := by
  induction n generalizing a with
  | zero => simp [upFrom] at h
  | succ n ih =>
    simp only [upFrom, List.mem_cons] at h
    rcases h with rfl | h
    · omega
    · have := ih h; omega

/-- A table whose entry k alone is not zero has the leaves of that entry. -/
theorem leavesFrom_one {s : State} {fuel table va n : Nat} (k : Nat) (hn : n = if 3 - fuel = 0 then 512 else 2048) (hk : k < n)
    (h : ∀ i, i < n → i ≠ k → readWord s.mem (table + 8 * i) = 0) :
    leavesFrom s (fuel + 1) table va =
      (let e := readWord s.mem (table + 8 * k)
       let v := va + k * 2 ^ spanBits (3 - fuel)
       if !pteV e then []
       else if pteL e then [⟨v, table + 8 * k, e, leafBits (3 - fuel)⟩]
       else leavesFrom s fuel (ptePa e) v) := by
  have empty : ∀ (l : List Nat), (∀ i ∈ l, i < n ∧ i ≠ k) → (l.flatMap fun i =>
      let e := readWord s.mem (table + 8 * i)
      let v := va + i * 2 ^ spanBits (3 - fuel)
      if !pteV e then []
      else if pteL e then [(⟨v, table + 8 * i, e, leafBits (3 - fuel)⟩ : Leaf)]
      else leavesFrom s fuel (ptePa e) v) = [] := by
    intro l hl
    rw [List.flatMap_eq_nil_iff]
    intro i hi
    have := h i (hl i hi).1 (hl i hi).2
    simp [this, pteV]
  have split : upFrom 0 n = upFrom 0 k ++ (k :: upFrom (k + 1) (n - k - 1)) := by
    have := upFrom_append 0 k (n - k - 1 + 1)
    rw [show k + (n - k - 1 + 1) = n by omega] at this
    rw [this]; simp [upFrom]
  conv => lhs; unfold leavesFrom
  simp only [← hn]
  rw [split, List.flatMap_append, List.flatMap_cons, empty _ (fun i hi => by have := mem_upFrom hi; omega),
    empty _ (fun i hi => by have := mem_upFrom hi; omega), List.nil_append, List.append_nil]

theorem tabled_leaves (q : Nat) (moved : Table MovedPage) (away : Bool) (ev : Option Evicting) (asked dom : List Nat) :
    (tabled q moved away ev asked dom).leaves 0 = [tableLeaf away] := by
  have none_ : ∀ a, (∀ c ∈ tableMem away, c.1 < a ∨ a + 8 ≤ c.1) → readWord (tableMem away) a = 0 := fun a h => readWord_absent h
  have at_ : ∀ (fuel table va k : Nat), k < (if 3 - fuel = 0 then 512 else 2048) →
      (∀ c ∈ tableMem away, c.1 < table ∨ table + 0x4000 ≤ c.1 ∨ (table + 8 * k ≤ c.1 ∧ c.1 < table + 8 * k + 8)) →
      leavesFrom (tabled q moved away ev asked dom) (fuel + 1) table va =
        (let e := readWord (tableMem away) (table + 8 * k)
         let v := va + k * 2 ^ spanBits (3 - fuel)
         if !pteV e then []
         else if pteL e then [⟨v, table + 8 * k, e, leafBits (3 - fuel)⟩]
         else leavesFrom (tabled q moved away ev asked dom) fuel (ptePa e) v) := by
    intro fuel table va k hk hc
    exact leavesFrom_one k rfl hk fun i hi hik => none_ _ fun c hcm => by
      have := hc c hcm
      have : i < 2048 := by split at hi <;> omega
      omega
  show leavesFrom (tabled q moved away ev asked dom) 4 0x100000 0 = _
  have e1 : readWord (tableMem away) (0x100000 + 8 * 0) = 0x200001 := by cases away <;> decide
  have e2 : readWord (tableMem away) (0x200000 + 8 * 291) = 0x300001 := by cases away <;> decide
  have e3 : readWord (tableMem away) (0x300000 + 8 * 555) = 0x400001 := by cases away <;> decide
  have e4 : readWord (tableMem away) (0x400000 + 8 * 0) = (tableLeaf away).entry := by cases away <;> decide
  rw [at_ 3 0x100000 0 0 (by decide) (by cases away <;> decide), e1]
  show leavesFrom (tabled q moved away ev asked dom) 3 0x200000 0 = _
  rw [at_ 2 0x200000 0 291 (by decide) (by cases away <;> decide), e2]
  show leavesFrom (tabled q moved away ev asked dom) 2 0x300000 _ = _
  rw [at_ 1 0x300000 _ 555 (by decide) (by cases away <;> decide), e3]
  show leavesFrom (tabled q moved away ev asked dom) 1 0x400000 _ = _
  rw [at_ 0 0x400000 _ 0 (by decide) (by cases away <;> decide), e4]
  cases away <;> rfl

/-- That page's number, and what the controller's record holds of it when it is away. -/
def tablePage : Nat := 20015990439936 / 16384
def tableMoved : MovedPage := ⟨.host, 0x42000007, [(5, 9)]⟩

theorem wit_FaultSteps_victim :
    (∀ dom, let s := tabled 0 [] false none [] dom
     s.context 0 = some ⟨0, 0x100000, 0, 0, 0, [], false, 0, [], none⟩ ∧ s.feature 3 = true ∧ s.overQuota 0 = true ∧
       ∃ l s1, sweep 0 none (2 * (s.candidatePages 0 none).length) s = (some l, s1)) ∧
    (∀ m ∈ (tabled 0 [] false none [] []).holders 0, m ∈ (tabled 0 [] false none [] []).unreachable) ∧
    (Config.holdsContext 1 0 0 = true →
      ∃ m ∈ (tabled 0 [] false none [] [0, 1]).holders 0, m ∉ (tabled 0 [] false none [] [0, 1]).unreachable) ∧
    (let s := tabled 1 [] false none [] []
     s.context 0 = some ⟨0, 0x100000, 1, 0, 0, [], false, 0, [], none⟩ ∧ s.overQuota 0 = false) ∧
    (∀ asked, let s := tabled 0 [] false (some ⟨tablePage, 4⟩) asked []
     s.feature 3 = true ∧ s.overQuota 0 = true ∧ s.shootOf 4 = some ⟨⟨0, false, 0, 16384⟩, asked, [], 0⟩ ∧
       s.leafOf 0 tablePage = some (tableLeaf false) ∧ (tableLeaf false).resident = true ∧ (tableLeaf false).va / 16384 = tablePage) ∧
    (let s := tabled 2 [(tablePage, tableMoved)] true none [] []
     ∃ c, s.context 0 = some c ∧
       c.moved.find? (fun e => e.1 == pageOf (0x123456000000 : BitVec 56)) = some (pageOf (0x123456000000 : BitVec 56), tableMoved) ∧
       s.residentPages 0 < c.quota ∧ s.leafOf 0 (pageOf (0x123456000000 : BitVec 56)) = some (tableLeaf true) ∧
       (tableLeaf true).resident = false ∧ s.recallFrame = some 0x50000000 ∧ 0x50000000 % 16384 = 0 ∧ 0x50000000 < 2 ^ 56) := by
  have ft : ∀ q mv aw ev asked dom, (tabled q mv aw ev asked dom).feature 3 = true := fun _ _ _ _ _ _ => by
    show BitVec.getLsbD (0x88 : BitVec 256) 3 = true
    decide
  refine ⟨fun dom => ⟨rfl, ft _ _ _ _ _ _, ?_, ?_⟩, by decide, fun h => ⟨1, ?_, by decide⟩, ⟨rfl, ?_⟩, fun asked => ⟨ft _ _ _ _ _ _, ?_, rfl, ?_, by decide, by decide⟩,
    ⟨⟨0, 0x100000, 2, 0, 0, [], false, 0, [(tablePage, tableMoved)], none⟩, rfl, by decide, ?_, ?_, by decide, ?_, by decide, by decide⟩⟩
  · simp only [State.overQuota, State.residentPages, tabled_leaves]; rfl
  · refine ⟨tableLeaf false, (tabled 0 [] false none [] dom).setHand 0 (20015990439936 / 16384), ?_⟩
    have h : (tabled 0 [] false none [] dom).candidatePages 0 none = [tableLeaf false] := by
      unfold State.candidatePages
      rw [tabled_leaves]
      rfl
    have a : atHand [tableLeaf false] ((tabled 0 [] false none [] dom).hand_ 0) = some (tableLeaf false, tableLeaf false) := rfl
    have n : (tabled 0 [] false none [] dom).neverChosen 0 (tableLeaf false) = false := rfl
    rw [h]
    show sweep 0 none (1 + 1) _ = _
    rw [sweep, h, a]
    simp only [n]
    rfl
  · have o : (tabled 0 [] false none [] [0, 1]).others = [1] := by decide
    have z : (tabled 0 [] false none [] [0, 1]).steps = 0 := rfl
    simp only [State.holders, o, z, h, List.filter_cons, if_true, List.mem_cons, true_or]
  · simp only [State.overQuota, State.residentPages, tabled_leaves]; decide
  · simp only [State.overQuota, State.residentPages, tabled_leaves]; rfl
  · simp only [State.leafOf, tabled_leaves]; rfl
  · simp only [State.residentPages, tabled_leaves]; decide
  · simp only [State.leafOf, tabled_leaves]; rfl
  · have h : (tabled 2 [(tablePage, tableMoved)] true none [] []).frameMapped 0x50000000 = false := by
      rw [State.frameMapped, List.any_eq_false]
      intro c hc
      have hc0 : c.1 = 0 := by rw [List.mem_singleton.1 hc]
      rw [hc0, show BitVec.ofNat 16 0 = 0 from rfl, tabled_leaves]
      decide
    show List.find? _ [0x50000000] = _
    simp [h]


/-- A region whose actor 0 on tile 0 takes 2 tokens of channel 5 and gives 3 to channel 6, in a state after the wave. -/
def firing (x : Tile) : State :=
  inRegion { Region.idle with
      tiles := [0]
      channels := [(5, { Channel.idle with tokens := 2 }), (6, { Channel.idle with space := 3 })] }
    { x with wave := true, actors := [(0, { Actor.idle with valid := true, cls := 3, ins := [⟨5, 2⟩], outs := [⟨6, 3⟩] })] }

/-- A firing of actor 0. -/
def aFiring : Firing := ⟨0, 0, [], [], []⟩

theorem wit_FiringSteps :
    (let s := firing Tile.idle
     let x := s.tile 0
     let a := x.actor 0
     let r := s.region x.handle
     (s.active 0 && x.wave) = true ∧ x.actorList = [0] ∧ a.target = 0 ∧ a.cls ≤ 3 ∧ a.running = false ∧ x.freeStrand = some 0 ∧
       a.ins = [⟨5, 2⟩] ∧ a.outs = [⟨6, 3⟩] ∧ r.defRm < 8 ∧ 2 ≤ (r.channel 5).tokens ∧ 3 ≤ (r.channel 6).space) ∧
    (State.reset.active 0 = false ∧ Tile.idle.wave = false) ∧
    (let x := (firing { Tile.idle with spindle := { Spindle.idle with firing := some aFiring, finished := true } }).tile 0
     x.spindle.firing = some aFiring ∧ x.spindle.finished = true) ∧
    (let x := (firing { Tile.idle with matrix := { heading .swap byStrand with firing := some aFiring } }).tile 0
     x.matrix.firing = some aFiring ∧ ∀ e ∈ x.matrix.queue, e.who.strand ≠ none) ∧
    (let s := firing { Tile.idle with inlay := { Inlay.idle with firing := some aFiring } }
     s.active 0 = true ∧ (s.tile 0).inlay.firing = some aFiring ∧ ∀ e ∈ (s.tile 0).inlay.queue, e.who.strand ≠ none) := by
  refine ⟨?_, ?_, ?_, ?_, ?_⟩ <;> decide

/-- Tile 0 after the wave with some actors, in the region of `firing`. -/
def choosing (actors : Table Actor) (x : Tile) : State :=
  let s := firing Tile.idle
  { s with tiles := [(0, { x with bound := some ⟨1, 0, 0⟩, wave := true, actors := actors })] }

/-- A valid actor without rates, of a class, passed over some times. -/
def plain (cls pass : Nat) : Actor := { Actor.idle with valid := true, cls := cls, pass := pass }

/-- An actor that needs three tokens of channel 5, which holds two. -/
def starved (cls : Nat) : Actor := { plain cls 7 with ins := [⟨5, 3⟩] }

/-- Class, permission and candidacy of an actor of tile 0 for the strands, and whether it has been passed over. -/
def clsAt (s : State) (j : Nat) : Nat := if ((s.tile 0).actor j).cls = 3 ∧ (s.tile 0).armed.isSome then 2 else ((s.tile 0).actor j).cls
abbrev permittedAt (s : State) (j : Nat) : Prop := ((s.tile 0).actor j).valid = true ∧
  (∀ q ∈ ((s.tile 0).actor j).ins, rateOf ((s.tile 0).actor j).ins q.ch ≤ ((s.region (s.tile 0).handle).channel q.ch).tokens) ∧
  ∀ q ∈ ((s.tile 0).actor j).outs, rateOf ((s.tile 0).actor j).outs q.ch ≤ ((s.region (s.tile 0).handle).channel q.ch).space
abbrev candAt (s : State) (j : Nat) : Prop :=
  ((s.tile 0).actor j).target = 0 ∧ ((s.tile 0).actor j).running = false ∧ permittedAt s j ∧ s.targetFree 0 ((s.tile 0).actor j) = true
abbrev passedAt (s : State) (j : Nat) : Prop := candAt s j ∧ clsAt s j ≤ 2 ∧ 8 ≤ ((s.tile 0).actor j).pass

theorem wit_FiringSteps_choice :
    (let s := choosing [(1, plain 0 8), (2, plain 2 9), (63, plain 1 9)] Tile.idle
     passedAt s 2 ∧ ∀ j, j < 64 → passedAt s j → ((s.tile 0).actor j).pass ≤ 9 ∧ (((s.tile 0).actor j).pass = 9 → 2 ≤ j)) ∧
    (∀ p ∈ [0, 3, 63],
      let s := choosing [(0, plain 2 7), (2, plain 1 7), (63, plain 1 7)] { Tile.idle with rr := [(1, p)] }
      let i := if p = 0 then 2 else 63
      (∀ j, j < 64 → ¬ passedAt s j) ∧ candAt s i ∧ clsAt s i = 1 ∧ (∀ j, j < 64 → candAt s j → 1 ≤ clsAt s j) ∧
        tabGet 0 (s.tile 0).rr 1 ≤ i ∧ ∀ j, j < 64 → (candAt s j ∧ clsAt s j = 1 ∧ tabGet 0 (s.tile 0).rr 1 ≤ j) → i ≤ j) ∧
    (let s := choosing [(0, { plain 2 7 with running := true }), (2, plain 3 0)] Tile.idle
     (∀ j, j < 64 → candAt s j → 3 ≤ clsAt s j) ∧ permittedAt s 0 ∧ clsAt s 0 ≤ 2) ∧
    (let s := choosing [(0, starved 2), (2, plain 3 0)] { Tile.idle with rr := [(3, 3)] }
     (∀ j, j < 64 → candAt s j → 3 ≤ clsAt s j) ∧ (∀ j, j < 64 → permittedAt s j → 3 ≤ clsAt s j) ∧ candAt s 2 ∧ clsAt s 2 = 3 ∧ 2 < tabGet 0 (s.tile 0).rr 3 ∧
       (∀ j, j < 64 → (candAt s j ∧ clsAt s j = 3) → j < 3 ∧ 2 ≤ j) ∧ clsAt s 0 ≤ 2 ∧ s.permits 0 0 = false) ∧
    (let s := choosing [(0, starved 0)] Tile.idle
     ∀ j, j < 64 → ¬ candAt s j) := by
  refine ⟨by decide +kernel, fun p hp => ?_, by decide +kernel, by decide +kernel, by decide +kernel⟩
  simp only [List.mem_cons, List.not_mem_nil, or_false] at hp
  obtain rfl | rfl | rfl := hp <;> refine ⟨?_, ?_, ?_, ?_, ?_, ?_⟩ <;> decide +kernel

/-- An actor of class 0 of a target kind that takes 2 tokens of channel 5 and gives 2 to channel 6. -/
def aimed (target : Nat) (entry : BitVec 13) : Actor := { plain 0 0 with target := target, entry := entry, ins := [⟨5, 2⟩], outs := [⟨6, 2⟩] }

theorem wit_FiringSteps_dispatch :
    let offered (s : State) : Option (Nat × Nat × Option Nat) :=
      let s1 := (s.reportShapes 0).clearPass 0
      (kindsAfter (s1.tile 0).lastKind).findSome? fun k => (s1.choose 0 k).map fun c => (k, c)
    let after (s : State) : Tile := ((s.reportShapes 0).clearPass 0).tile 0
    (let s := choosing [(4, aimed 0 8191)] { Tile.idle with lastKind := 3 }
     (s.active 0 && (s.tile 0).wave) = true ∧ offered s = some (0, 4, some 0) ∧ (after s).freeStrand = some 0) ∧
    (let s := choosing [(4, aimed 1 7)] Tile.idle
     offered s = some (1, 4, some 0) ∧ ((after s).actor 4).ins = ⟨5, 2⟩ :: []) ∧
    (let s (n : Nat) : State := choosing [(4, aimed 2 15)] { Tile.idle with matrix := { Matrix.idle with records := [(60 + n, 0xA100000000000000)] } }
     let ops (s : State) : List MxOp := ((after s).matrix.recordWords 15).filterMap recordWordOp
     offered (s 0) = some (2, 4, some 0) ∧ ops (s 0) = [.swap] ∧ (∀ op ∈ ops (s 0), ((s 0).reportShapes 0).recordFault 0 op = none) ∧
       offered (s 1) = some (2, 4, some 0) ∧ ops (s 1) = []) ∧
    (let s := choosing [(4, aimed 3 0)] { Tile.idle with inlay := Inlay.idle.install 0 0 2 sharedGraph }
     offered s = some (3, 4, some 0) ∧ ∃ g v, (after s).inlayGraph (aimed 3 0) = some g ∧ inlayShape (aimed 3 0) g = some v) ∧
    (let s := choosing [(4, { aimed 0 0 with running := true })] Tile.idle
     (s.active 0 && (s.tile 0).wave) = true ∧ offered s = none) ∧
    (withTile Tile.idle).active 0 = false := by
  refine ⟨?_, ?_, ?_, ⟨?_, _, _, rfl, rfl⟩, ?_, ?_⟩ <;> decide +kernel

/-- A running region with a seed port and one channel, whose ends are the region's. -/
def seeded (r : Region) : State :=
  inRegion { r with
      posted := true
      channels := [(5, { Channel.idle with prod := .region, cons := .region, space := 1, tokens := 1, fifo := [tok 9 true false] })] } Tile.idle

/-- The handle in a seed word, whether its region is placed, and whether the word's channel is bound to it. -/
abbrev seedHandle (w : Word) : BitVec 32 := w.extractLsb' 32 32
abbrev seedUp (s : State) (w : Word) : Prop := s.live (seedHandle w) = true ∧ (s.region (seedHandle w)).posted = true
abbrev seedBound (s : State) (w : Word) : Prop :=
  w.getLsbD 19 = true ∨ ((s.region (seedHandle w)).channel (w.toNat / 2 ^ 22 % 2 ^ 10)).prod = .region

theorem wit_FiringSteps_ports :
    (¬ seedUp (seeded Region.idle) 0x201400000 ∧ seedUp (seeded Region.idle) 0x101800000 ∧ ¬ seedBound (seeded Region.idle) 0x101800000) ∧
    (∀ n ∈ [0x101600000, 0x101480000, 0x101400001], let w := BitVec.ofNat 64 n
      let r := (seeded Region.idle).region (seedHandle w)
      (seeded Region.idle).live (seedHandle w) = true ∧ r.posted = true ∧
        (w.getLsbD 19 = true ∨ (r.channel (w.toNat / 2 ^ 22 % 2 ^ 10)).prod = .region) ∧
        r.seedq.length < 256 ∧ (r.closing || r.closed) = false ∧ (w.toNat % 2 ^ 19 = 0 ∨ w.toNat % 2 ^ 19 = 1)) ∧
    (∀ q, 256 ≤ q.length → 256 ≤ ((seeded { Region.idle with seedq := q }).region 1).seedq.length) ∧
    (((seeded { Region.idle with closing := true }).region 1).closing || ((seeded Region.idle).region 1).closed) = true ∧
    (let s := { seeded Region.idle with refused := [(1, ⟨2, 5, 1⟩)] }
     s.time < (s.refusals 1).next ∧ (s.refusals 2).next ≤ s.time ∧ (s.refusals 1).count ≠ 0 ∧ (s.refusals 2).count = 0) ∧
    (let s := seeded { Region.idle with seedq := [⟨5, false, true, false, 7⟩] }
     let r := s.region 1
     s.live 1 = true ∧ r.phase = .running ∧ (s.refusals 1).count = 0 ∧ r.seedq = ⟨5, false, true, false, 7⟩ :: [] ∧ 0 < (r.channel 5).space ∧
       (r.channel 5).prod = .region ∧ r.stashOpen = true ∧ r.versionOpen = true ∧ (r.channel 6).space = 0) ∧
    (let r := (seeded { Region.idle with stashOpen := false, seedq := [⟨5, false, true, false, 7⟩] }).region 1
     (r.stashOpen && r.versionOpen) = false) ∧
    (let r := (seeded { Region.idle with closing := true, seedq := [⟨0, false, false, true, 0⟩] }).region 1
     r.seedq = [⟨0, false, false, true, 0⟩] ∧ r.closing = true) ∧
    (let s := seeded { Region.idle with info := { Launch.idle with resultCap := 2, resultBa := 0x5000 }, results := 3 }
     let r := s.region 1
     s.live 1 = true ∧ r.phase = .running ∧ 0 < (r.channel 5).tokens ∧ (r.channel 5).fifo = tok 9 true false :: [] ∧ (tok 9 true false).exc = false ∧
       (r.channel 5).cons = .region ∧ r.info.resultCap ≠ 0) := by
  refine ⟨?_, ?_, fun _ h => h, ?_, ?_, ?_, ?_, ?_, ?_⟩ <;> decide

/-- A running region with port 2, whose channel 5 leaves it and whose channel 6 comes to it. -/
def ported (p : FPort) : State :=
  inRegion { Region.idle with
      tiles := [0]
      loaded := true
      ports := [(2, p)]
      channels := [(5, { Channel.idle with prod := .fport 2, space := 1 }), (6, { Channel.idle with cons := .fport 2, tokens := 1, fifo := [tok 130 true false] })] }
    { Tile.idle with bankTokens := [(0, ⟨1, 0, false⟩)] }

/-- A port of a mode with one pattern of INT8 elements, whose word 2 has other bits c. -/
def portOf (mode : Nat) (c : Word) : FPort :=
  { FPort.idle with
    words := [(0, BitVec.ofNat 64 (mode * 2 ^ 60)), (4, 0x3800000000000000), (6, c ||| 0x2800000000000000)]
    begun := true }

theorem wit_FaceplateSteps :
    (let g : Group := ⟨0, 7, 1, [0], [(1, 5, 2), (0, 71, 15)], 0, 0⟩
     let x := { portOf 1 0 with elem := 1, bits := 32768, groups := [{ g with lgroup := 4095 }, g] }
     let s := ported x
     let p := patternOf x.words x.pat
     s.portsRun 1 = true ∧ (s.region 1).port 2 = x ∧ x.finished = false ∧ x.fault = none ∧ x.ending = false ∧ x.begun = true ∧ x.gather = [] ∧
       x.elem = p.count ∧ modeOf x.words = 1 ∧ x.run = [] ∧ payloadBits p.scaleIns = x.bits ∧ x.group p.group = some g ∧
       (g.sent - g.mrel).toNat < g.allowance ∧ 1 ≤ (g.sent + 1 - g.mrel).toNat ∧ s.nextLight x.plate = some (0, 1, 2)) ∧
    (let g : Group := ⟨0, 7, 1, [0], [(1, 5, 2)], 0, 0⟩
     let x := { portOf 1 0 with elem := 1, bits := 32768, groups := [g] }
     let s := inRegion { Region.idle with tiles := [0], loaded := true, ports := [(2, x), (3, { x with place := 1 })] } Tile.idle
     s.portsRun 1 = true ∧ ((s.region 1).port 3).group 0 = some g ∧ s.nextLight 0 = some (0, 1, 2) ∧ (1, 2) ≠ ((1 : BitVec 32), 3)) ∧
    (let x := { portOf 2 0x100 with elem := 1, run := [⟨200, 127, false⟩] }
     let s := ported x
     let p := patternOf x.words x.pat
     let m := s.tile (s.patternTile 1 p)
     s.portsRun 1 = true ∧ x.elem = p.count ∧ modeOf x.words = 2 ∧ x.run = [⟨200, 127, false⟩] ∧ x.bits = 0 ∧ p.width = 8 ∧ 0 < p.count ∧
       m.bankOpen 1 (p.off + (p.count - 1)) = true) ∧
    (let x := { portOf 2 0x100000 with elem := 1, run := [⟨200, 127, false⟩] }
     let s := ported x
     let p := patternOf x.words x.pat
     (s.tile (s.patternTile 1 p)).bankOpen 1 (p.off + (p.count - 1)) = false ∧ modeOf x.words = 2) ∧
    (let x := { portOf 4 0 with elem := 1, run := [⟨200, 127, true⟩] }
     let s := ported x
     let p := patternOf x.words x.pat
     s.portsRun 1 = true ∧ x.elem = p.count ∧ modeOf x.words = 4 ∧ x.run = [⟨200, 127, true⟩] ∧ x.bits = 0 ∧ p.scaleIns = false ∧ p.fmt ≠ 0 ∧
       (s.region 1).portOut 2 = some 5 ∧ ((s.region 1).channel 5).prod = .fport 2 ∧ 0 < ((s.region 1).channel 5).space) ∧
    (let x := portOf 5 0
     let s := ported x
     let p := patternOf x.words x.pat
     s.portsRun 1 = true ∧ x.ending = false ∧ x.begun = true ∧ x.run = [] ∧ x.bits = 0 ∧ x.elem < p.count ∧ modeOf x.words = 5 ∧
       (s.region 1).portIn 2 = some 6 ∧ ((s.region 1).channel 6).tokens = 1 ∧ ((s.region 1).channel 6).cons = .fport 2 ∧ ((s.region 1).channel 6).fifo = tok 130 true false :: []) := by
  refine ⟨?_, ?_, ?_, ?_, ?_, ?_⟩ <;> decide

/-- A DRAIN port of one element, which has latched some page bases. -/
def draining (bases : List TlbEntry) : FPort := { portOf 3 0 with bases := bases }

/-- What a DRAIN port does with its element: the state after the read, and the home addresses of the bytes that it writes. -/
def drainPas (x : FPort) : Reach (List Nat) :=
  let s := ported x
  let p := patternOf x.words x.pat
  let a := elemAt (ptrAt p.ptr p.off) ((x.elem : Nat) : Int)
  let bs := (a.scaleAt.toList.map BitVec.toNat ++ upFrom a.addr.toNat (fmtBytes p.fmt)).map (readByte (s.tile (s.patternTile 1 p)).spad)
  let e8 := if a.scaleAt.isSome then (bs.headD 0).toNat else 127
  let code := elemCode p.fmt a.fieldNo (leNat (if a.scaleAt.isSome then bs.tail else bs))
  let v := p.convert 3 e8 x.latch.toNat code
  let d := x.elem % p.per
  let ws := bitWrites (d * p.width) p.width v.bits ++ (padBytes p.width d p.per).map fun k => (k, 0, true)
  portPas 1 2 x.elem true (s.takeElem 1 2 p e8 code) (ws.map fun b => BitVec.ofNat 56 (p.rowVa x.passBase x.elem + b.1))

theorem wit_FaceplateSteps_drain :
    (let x := draining []
     let s := ported x
     let p := patternOf x.words x.pat
     let a := elemAt (ptrAt p.ptr p.off) ((x.elem : Nat) : Int)
     let ks := a.scaleAt.toList.map BitVec.toNat ++ upFrom a.addr.toNat (fmtBytes p.fmt)
     s.portsRun 1 = true ∧ x.ending = false ∧ x.begun = true ∧ x.run = [] ∧ x.gather = [] ∧ x.bits = 0 ∧ modeOf x.words = 3 ∧
       p.transpose = false ∧ x.elem + 1 = p.count ∧ (∀ k ∈ ks, (s.tile (s.patternTile 1 p)).bankOpen 1 k = true) ∧
       ∃ k ∈ ks, Tile.idle.bankOpen 1 k = false) ∧
    (∃ s k, drainPas (draining []) = .hold s (some k)) ∧
    (∃ s pas, drainPas (draining [⟨0, 0, 14, 0, 0x4000, true, false, true⟩]) = .ok s pas ∧ pas ≠ [] ∧ pas.Nodup ∧
      ∀ pa ∈ pas, s.uncorr.contains pa = false) := by
  refine ⟨by decide, ⟨_, _, rfl⟩, ⟨_, _, rfl, by decide, by decide, by decide⟩⟩

theorem wit_FaceplateSteps_end :
    (let x := { portOf 2 0x20000000000000 with ending := true }
     let p := patternOf x.words x.pat
     (ported x).portsRun 1 = true ∧ x.ending = true ∧ p.note = false ∧ p.handoff = false ∧ p.passEnd = true ∧ x.pat + 1 = npat x.words ∧
       repeats x.words = false ∧ x.finished = false) ∧
    (let x := { portOf 2 0 with ending := true, words := [(0, 0x2001800000000000)] }
     let p := patternOf x.words x.pat
     p.note = false ∧ p.handoff = false ∧ x.pat + 1 < npat x.words ∧ ({ x with pat := 1 } : FPort).pat + 1 = npat x.words ∧ repeats x.words = true) ∧
    (let x := { portOf 2 8 with ending := true }
     let s := inRegion { Region.idle with loaded := true, ports := [(2, x)] } Tile.idle
     s.portsRun 1 = true ∧ x.ending = true ∧ (patternOf x.words x.pat).note = true ∧ (s.region 1).portOut 2 = none) := by
  refine ⟨?_, ?_, ?_⟩ <;> decide

/-- Words 1 to 7 of the launch record of handle 5, one row and one column, whose image is the one of a header frame. -/
def launchWords : List Word := [0x500000101, 0x123456000000, 0, 0, 0, 0, 0, 0x0100000000000000]

/-- A configured module whose launch window, intake queue and job are as given, with the image at a mapped address. -/
def launchable (d : Distributor) : State :=
  { derivable with
    tiles := []
    bootstat := 0x40
    dist := d
    colCount := [(0, 22), (1, 22), (2, 22), (3, 22), (4, 22), (5, 22), (6, 22), (7, 22)]
    rowCount := [(0, 28), (1, 28), (2, 28), (3, 28), (4, 28), (5, 28)] }

theorem answers {α β : Type} {p : α × β} {b : β} {q : α → Prop} (h : p.2 = b) (hq : q p.1) : ∃ a, p = (a, b) ∧ q a :=
  ⟨p.1, by rw [← h], hq⟩

theorem wit_LaunchSteps_intake :
    (launchable { Distributor.idle with window := [(0, 0x500000101), (1, 0x123456000000)] }).dist.intake.length < 16 ∧
    16 ≤ (launchable { Distributor.idle with intake := List.replicate 16 launchWords }).dist.intake.length ∧
    (let ws : List Word := [0x100000000, 0, 0, 0, 0, 0, 0, 0x0101000000000000]
     let s := { inRegion Region.idle Tile.idle with bootstat := 0x40, dist := { Distributor.idle with intake := [ws] } }
     s.dist.intake = ws :: [] ∧ s.bootstat.getLsbD 6 = true ∧ s.dist.fault = none ∧ s.dist.chainWait = [] ∧
       (recWord ws 7).toNat / 2 ^ 48 % 256 = 1 ∧ badEndWord ws = none ∧ s.live (Launch.ofWords ws).handle = true ∧
       (s.region (Launch.ofWords ws).handle).closed = false) ∧
    (let ws : List Word := [0x100000001, 0, 0, 0, 0, 0, 0, 0x0101000000000000]
     (recWord ws 7).toNat / 2 ^ 48 % 256 = 1 ∧ badEndWord ws ≠ none) := by
  decide

theorem wit_LaunchSteps_checks :
    let s := launchable { Distributor.idle with intake := [launchWords] }
    let i := Launch.ofWords launchWords
    let k := i.withImage emptyImage
    (s.dist.intake = launchWords :: [] ∧ s.bootstat.getLsbD 6 = true ∧ s.dist.fault = none ∧ badWord launchWords = none ∧ i.handle ≠ 0 ∧
      s.handleTaken i.handle = false ∧ i.chained = false ∧ i.gangTag = 0 ∧ s.dist.placing = none) ∧
    (∃ s1, s.hostImage i.ctx i.imageVa = (s1, .ok emptyImage) ∧ s1.refusal k emptyImage = none ∧ s1.dist = s.dist) ∧
    (badWord (0 :: launchWords.tail) ≠ none ∧ (recWord (0 :: launchWords.tail) 7).toNat / 2 ^ 48 % 256 ≠ 1) := by
  refine ⟨by decide +kernel, answers (by decide +kernel) (by decide +kernel), by decide⟩

/-- An image of one block, whose first payload holds words 0 to 3 of port 0, and its digest, SHA-256 of the other frames. -/
def portImage : List Frame := BitVec.ofNat 256 (2 ^ 240 + 4 * 2 ^ 232 + 2 ^ 160 + 2 ^ 152 + 2 ^ 144) :: 0 :: 0 ::
  0xb8f5020c357d92a8edc4c4e29f161937655991066f0ea0632401b01db9b7d37b :: 0x7FF00000 :: List.replicate 8 0

/-- The record of a launch of handle 5 chained to region 9, with an image, and region 9 on tile 0 with ports at some places. -/
def chainedWords : List Word := [0x500000101, 0x2000123456000000, 0, 0, 0x900000000, 0, 0, 0x0100000000000000]
def producing (im : List Frame) (busy : List Nat) : State :=
  { launchable { Distributor.idle with intake := [chainedWords] } with
    mem := writeBytes mapped.mem 0x42000000 (im.flatMap fun f => natLe 32 f.toNat)
    regions := [(9, { Region.idle with
      info := { Launch.idle with handle := 9, rows := 1, cols := 1 }
      tiles := [0]
      phase := .running
      ports := busy.map fun n => (n, { FPort.idle with plate := n / 4, place := n % 4 }) })] }

/-- The module after the checks, with the chained launch as a region on its producer's tiles. -/
def chained (s1 : State) (k : Launch) : State :=
  let p := s1.region k.chainFrom
  let z : Region := { Region.idle with
    info := k, gen := s1.genOf k.ctx, phase := .committed, awaiting := true
    originRow := p.originRow, originCol := p.originCol, tiles := p.tiles }
  (s1.setRegion k.handle z).setRegion k.chainFrom { p with successor := some k.handle }

/-- What a chained launch finds: 0 no port of its own, 1 no places for its ports, 2 places, with group tables that build and change nothing
else; 3 otherwise. -/
def chainedFinds (s1 : State) (k : Launch) : Nat :=
  let v := chained s1 k
  if k.ports = [] then 0
  else match v.freePlaces k.ports.length with
    | none => 1
    | some places => match v.buildPorts k (s1.region k.chainFrom).tiles [] k.ports places with
      | .ok (_, s2) => if v.placed (v.regions.length + 1) k.handle = true ∧ s2.regions = v.regions ∧ s2.dist = v.dist then 2 else 3
      | .error _ => 3

/-- Every port place taken. -/
def allPlaces : List Nat := upFrom 0 640

/-- The chained launch of an image passes its checks beside a producer with some ports, and finds `n`. -/
def ChainedTo (im : List Frame) (busy : List Nat) (n : Nat) : Prop :=
  let i := Launch.ofWords chainedWords
  let s := producing im busy
  let k := i.withImage im
  (s.dist.intake = chainedWords :: [] ∧ s.bootstat.getLsbD 6 = true ∧ s.dist.fault = none ∧ s.dist.chainWait = [] ∧ s.handleTaken i.handle = false) ∧
    ∃ s1, s.hostImage i.ctx i.imageVa = (s1, .ok im) ∧ s1.refusal k im = none ∧ s1.dist = s.dist ∧ chainedFinds s1 k = n

/-- With every place taken there is none for a port. -/
theorem finds_none {s1 : State} {k : Launch} (h : k.ports ≠ [] ∧ (chained s1 k).usedPlaces = allPlaces) : chainedFinds s1 k = 1 := by
  have f : (upFrom 0 640).filter (fun p => !allPlaces.contains p) = [] := by
    rw [List.filter_eq_nil_iff]
    intro p hp
    have : allPlaces.contains p = true := List.contains_iff_mem.mpr hp
    rw [this]; decide
  have n : (chained s1 k).freePlaces k.ports.length = none := by
    simp only [State.freePlaces, h.2, f, List.take_nil]
    exact if_neg fun e => h.1 (List.length_eq_zero_iff.mp e.symm)
  simp only [chainedFinds, h.1, if_false, n]

theorem wit_LaunchSteps_chained :
    (let i := Launch.ofWords chainedWords
     badWord chainedWords = none ∧ i.handle ≠ 0 ∧ i.chained = true ∧ i.handle ≠ i.chainFrom) ∧
    ChainedTo emptyImage [] 0 ∧ ChainedTo portImage allPlaces 1 ∧ ChainedTo portImage [0] 2 := by
  refine ⟨by decide +kernel, ⟨by decide +kernel, answers (by decide +kernel) (by decide +kernel)⟩,
    ⟨by decide +kernel, answers (by decide +kernel) ⟨by decide +kernel, by decide +kernel, finds_none (by decide +kernel)⟩⟩,
    ⟨by decide +kernel, answers (by decide +kernel) (by decide +kernel)⟩⟩

/-- A chained launch of port 0 that waits for places, and a producer of it in a phase. -/
def waiting (ports : Table FPort) (p : Phase) : State :=
  let k : Launch := { Launch.idle with handle := 5, rows := 1, cols := 1, chainFrom := 9, ports := [(0, [])] }
  { launchable { Distributor.idle with chainWait := [k] } with
    regions := [(5, { Region.idle with info := k, phase := .committed, awaiting := true, tiles := [0], ports := ports }),
      (9, { Region.idle with info := { Launch.idle with handle := 9, rows := 1, cols := 1 }, tiles := [0], phase := p })] }

theorem wit_LaunchSteps_retry :
    let v (s : State) : State := { s with dist := { s.dist with chainWait := [] } }
    (∃ k, (waiting [(0, FPort.idle)] .running).dist.chainWait = [k] ∧ (waiting [(0, FPort.idle)] .running).dist.intake = [] ∧
      (v (waiting [(0, FPort.idle)] .running)).portsDue k.handle = false) ∧
    (∃ k, (waiting [] .frozen).dist.chainWait = [k] ∧ (v (waiting [] .frozen)).portsDue k.handle = true ∧
      (v (waiting [] .frozen)).givePorts k.handle = none) ∧
    ∃ k, (waiting [] .running).dist.chainWait = [k] ∧ (v (waiting [] .running)).portsDue k.handle = true ∧
      ∃ u, (v (waiting [] .running)).givePorts k.handle = some u ∧ u.dist.intake = [] := by
  refine ⟨⟨_, rfl, by decide, by decide⟩, ⟨_, rfl, by decide, by decide +kernel⟩, ⟨_, rfl, by decide, ?_⟩⟩
  have h : (match State.givePorts { waiting [] .running with dist := { (waiting [] .running).dist with chainWait := [] } } 5 with
    | some u => decide (u.dist.intake = [])
    | none => false) = true := by decide +kernel
  split at h
  · rename_i u e
    exact ⟨u, e, of_decide_eq_true h⟩
  · contradiction

/-- The reservation of the launch in a module where nothing is placed. -/
def aLaunch : Launch := { Launch.idle with handle := 5, rows := 1, cols := 1, digest := frameAt emptyImage 3, imageVa := 0x123456000000 }

theorem wit_LaunchSteps_placement :
    (∃ y x ts, (launchable Distributor.idle).firstFit 1 1 = some (y, x, ts)) ∧
    (let j : Job := ⟨[aLaunch], 1, [], false, false⟩
     let s := launchable { Distributor.idle with placing := some j }
     s.dist.placing = some j ∧ j.committing = false ∧ j.members = [aLaunch] ∧ j.reserved = [] ∧
       ∃ r s1, s.reserveRegion j.thaw aLaunch = .ok r s1 ∧ s1.dist = s.dist) ∧
    (let j : Job := ⟨[{ aLaunch with rows := 200 }], 1, [], false, true⟩
     let s := launchable { Distributor.idle with placing := some j }
     j.members = [{ aLaunch with rows := 200 }] ∧ s.reserveRegion j.thaw { aLaunch with rows := 200 } = .full) ∧
    (let j : Job := ⟨[{ aLaunch with cols := 2 }], 1, [], false, false⟩
     let s := { launchable { Distributor.idle with placing := some j } with offCols := [1], defects := [(1, 2), (193, 2)] }
     j.members = [{ aLaunch with cols := 2 }] ∧ s.reserveRegion j.thaw { aLaunch with cols := 2 } = .path 0) ∧
    (let r : Reservation := ⟨5, 0, 0, [0], []⟩
     let j : Job := ⟨[aLaunch], 1, [r], true, false⟩
     let s := launchable { Distributor.idle with placing := some j }
     s.dist.placing = some j ∧ (∀ i ∈ j.members, ∃ r ∈ j.reserved, r.handle = i.handle) ∧ j.committing = true ∧ j.thaw = false ∧
       r.handle = aLaunch.handle ∧ s.dist.queues = [] ∧ r.tiles.Nodup ∧ s.toRetire.any (fun e => e.2 == .gridRetired) = false) ∧
    (∀ p ∈ [some (⟨[aLaunch], 1, [], false, false⟩ : Job), none],
      let s := { launchable { Distributor.idle with placing := p } with toRetire := [(9, .fabricFatal), (0, .gridRetired)] }
      s.toRetire.any (fun e => e.2 == .gridRetired) = true ∧ s.dist.placing = p ∧ s.dist.interrupted = []) := by
  refine ⟨?_, ⟨by decide, by decide, by decide, by decide, ?_⟩, by decide +kernel, by decide +kernel, by decide +kernel, by decide +kernel⟩
  · have h : ((launchable Distributor.idle).firstFit 1 1).isSome = true := by decide +kernel
    obtain ⟨⟨y, x, ts⟩, h⟩ := Option.isSome_iff_exists.mp h
    exact ⟨y, x, ts, h⟩
  · have h : (match (launchable { Distributor.idle with placing := some ⟨[aLaunch], 1, [], false, false⟩ }).reserveRegion false aLaunch with
        | .ok _ s1 => decide (s1.dist = { Distributor.idle with placing := some ⟨[aLaunch], 1, [], false, false⟩ })
        | _ => false) = true := by decide +kernel
    split at h
    · rename_i r s1 e
      exact ⟨r, s1, e, of_decide_eq_true h⟩
    · contradiction

/-- A region of the image in a phase, on tile 0. -/
def loading (r : Region) : State :=
  { derivable with
    tiles := [(0, { Tile.idle with bound := some ⟨5, 0, 0⟩ })]
    regions := [(5, { r with info := aLaunch, tiles := [0] })] }

theorem wit_LaunchSteps_load :
    (let s := loading { Region.idle with phase := .loading }
     let r := s.region 5
     s.live 5 = true ∧ r.phase = .loading ∧ r.loadFault = none ∧ s.portsDue 5 = false ∧ digestOf emptyImage = r.info.digest ∧
       ∃ s1, (s.setRegion 5 r).loadImage 5 = (s1, .ok emptyImage) ∧ s1.live 5 = true) ∧
    digestOf emptyImage ≠ 0 ∧
    (let s := inRegion { Region.idle with info := { Launch.idle with cols := 2 }, posted := true } Tile.idle
     (s.tile 0).wave = false ∧ s.active 0 = true ∧ (s.regionOf 0).posted = true ∧ (s.tile 0).col + 1 < (s.regionOf 0).info.cols ∧
       s.live 1 = true ∧ (s.region 1).posted = true ∧ (inRegion Region.idle Tile.idle |>.region 1).posted = false) := by
  refine ⟨⟨by decide, by decide, by decide, by decide, by decide +kernel, answers (by decide +kernel) (by decide +kernel)⟩, by decide +kernel, by decide⟩

theorem wit_LaunchSteps_wave :
    (let s := waiting [] .running
     let r : Region := { s.region 5 with phase := .loading, awaiting := false }
     ({ s with regions := [(5, r)] } : State).portsDue 5 = true ∧ ({ s with regions := [(5, r)] } : State).live 5 = true) ∧
    (let z := loading { Region.idle with phase := .loading }
     let s := { z with mem := writeNat mapped.mem 0x301158 8 0x1000042000007, accepted := 0x80, domain := [0, 1], unreachable := [1] }
     s.portsDue 5 = false ∧ ∃ s1, (s.setRegion 5 (s.region 5)).loadImage 5 = (s1, .fail .topoStale)) ∧
    (let x : Tile := { Tile.idle with deadSlots := [3], actors := [(4, aimed 1 7)] }
     let s := inRegion { Region.idle with info := { Launch.idle with rows := 2, cols := 2 }, tiles := [0, 1, 192, 193] } x
     let y := s.tile 0
     y.wave = false ∧ s.active 0 = true ∧ (s.regionOf 0).posted = false ∧ y.col + 1 < (s.regionOf 0).info.cols ∧
       y.row + 1 < (s.regionOf 0).info.rows ∧ (s.regionOf 0).deadRecords (s.feature 1) (s.feature 6) y = [] ∧
       (y.actorList.filter fun i => (y.actor i).target == 1 && y.deadSlots.contains ((y.actor i).entry.toNat % 4)) = [4]) ∧
    (let x : Tile := { Tile.idle with matrix := { Matrix.idle with records := [(60, 0x7F80000000000000)] } }
     let s := inRegion { Region.idle with info := { Launch.idle with rows := 1, cols := 1 }, tiles := [0] } x
     let y := s.tile 0
     y.wave = false ∧ s.active 0 = true ∧ (s.regionOf 0).posted = false ∧ logicalOf (s.regionOf 0) y + 1 = 1 * 1 ∧
       (s.regionOf 0).deadRecords (s.feature 1) (s.feature 6) y = [15] ∧
       (y.actorList.filter fun i => (y.actor i).target == 1 && y.deadSlots.contains ((y.actor i).entry.toNat % 4)) = []) := by
  refine ⟨by decide, ⟨by decide, answers (q := fun _ => True) (by decide +kernel) trivial |>.imp fun _ h => h.1⟩, by decide +kernel, by decide +kernel⟩

theorem wit_RegionSteps :
    (let s := inRegion { Region.idle with closed := true, tiles := [0] } Tile.idle
     s.live 1 = true ∧ (s.region 1).phase = .running ∧ (s.region 1).closed = true ∧ s.quiescent 1 = true ∧ s.successorOf 1 = none ∧
       (s.region 1).awaiting = false) ∧
    (let x := { FPort.idle with finished := true, place := 2, plate := 3 }
     let s := inRegion { Region.idle with closed := true, tiles := [0], ports := [(1, x)] } Tile.idle
     s.quiescent 1 = true ∧ (s.region 1).ports = [(1, x)]) ∧
    (let s := inRegion { Region.idle with closed := true, seedq := [⟨5, false, true, false, 7⟩] } Tile.idle
     s.live 1 = true ∧ (s.region 1).closed = true ∧ s.quiescent 1 = false) ∧
    (let s := loading { Region.idle with phase := .freezing }
     s.live 5 = true ∧ (s.region 5).phase = .freezing ∧ (s.chainOf 5).any (fun c => s.blocksFlying c (s.region 5).ownTiles) = false ∧
       (s.region 5).awaiting = false ∧ (s.region 5).doomed = false ∧ (∀ t ∈ (s.region 5).tiles, ∀ k, (s.strandOf t k).spillq = []) ∧
       (s.region 5).saved = [] ∧ (s.context (s.region 5).info.ctx).isSome = true ∧ (∀ f ∈ s.flying, f.handle ≠ 5)) ∧
    (let s := { loading { Region.idle with phase := .freezing } with flying := [⟨5, .tokens 3 [tok 9 true false], 7, 2, [8]⟩] }
     (s.chainOf 5).any (fun c => s.blocksFlying c (s.region 5).ownTiles) = false ∧ (s.region 5).doomed = false ∧
       (∀ t ∈ (s.region 5).ownTiles, ∀ k, (s.strandOf t k).spillq = [])) ∧
    (let s := loading { Region.idle with phase := .freezing, awaiting := true, saved := [(0, Tile.idle)], saveAt := 64, saveLen := 32 }
     (s.chainOf 5).any (fun c => s.blocksFlying c (s.region 5).ownTiles) = false ∧ (s.region 5).ownTiles = [] ∧ (s.region 5).saved ≠ [] ∧
       (s.region 5).doomed = false) ∧
    (let z := loading { Region.idle with phase := .freezing }
     let s := { z with tiles := [(0, (z.tile 0).setStrand 0 { Strand.idle 0 with
       spillq := [transfer true], marks := [⟨0, 0, pageOf (0x123456000000 : BitVec 56), .waiting, false⟩] })] }
     s.transfersWait ((s.region 5).ownTiles.foldl State.endTransfers s) (s.region 5).ownTiles = true) ∧
    (let s := loading { Region.idle with phase := .freezing }
     let z := { s with tiles := [(0, { s.tile 0 with slots := [(1, { Slot.idle with state := .landing })] })] }
     (z.chainOf 5).any (fun c => z.blocksFlying c (z.region 5).ownTiles) = true) ∧
    (let s := { loading { Region.idle with phase := .committed, awaiting := true } with
       tiles := [(0, { Tile.idle with bankTokens := [(11, ⟨5, 0, false⟩)], spad := [(0, 1), (0xB0000, 2)] })] }
     s.live 5 = true ∧ (s.region 5).awaiting = true ∧ (s.region 5).phase = .committed ∧ s.live (s.region 5).info.chainFrom = false ∧
       (s.region 5).tiles.Nodup ∧ (s.region 5).early = 0) ∧
    (∀ n, n < 2 →
      let s := inRegion { Region.idle with watchdog := 10 } (Tile.idle.setStrand 3 { Strand.idle 3 with kstatus := 0x2000, waited := 10 + n })
      let x := s.strandOf 0 3
      s.active 0 = true ∧ x.kstatus.getLsbD 13 = true ∧ x.kstatus.getLsbD 15 = false ∧ (s.regionOf 0).watchdog ≠ 0 ∧
        (s.regionOf 0).watchdog ≤ x.waited ∧ x.kstatus.getLsbD 0 = false) := by
  refine ⟨by decide, by decide, by decide, by decide +kernel, by decide, by decide, by decide +kernel, by decide, by decide, by decide⟩

/-- A thawing region whose save area is empty, with the digest that the device keeps of it. -/
def thawed (loaded : Bool) (d : BitVec 256) : State :=
  { loading { Region.idle with phase := .thawing, loaded := loaded } with
    contexts := [(0, some ⟨0, 0x100000, 0, 0, 0, [(5, d)], false, 0, [], none⟩)] }

/-- SHA-256 of the empty message. -/
def emptyDigest : BitVec 256 := 0x55b852781b9995a44c939b64e441ae2724b96f99c8f4fb9a141cfc9842c4b0e3

/-- Reading a save that nothing has spoilt, where no error lies, changes nothing. -/
theorem readArea_clean {s : State} (h : BitVec 32) (hc : s.correctable = []) : s.readArea h [] = s := by
  have e : s.spoilt h [] = s := by simp only [State.spoilt]; split <;> rfl
  simp only [State.readArea, e, burst_none hc]
  split <;> rfl

theorem wit_RegionSteps_thaw :
    (∀ l d, (thawed l d).readArea 5 [] = thawed l d) ∧
    (let s (d : BitVec 256) : State := { thawed false d with regions := [(5, { (thawed false d).region 5 with awaiting := true, tiles := [] })] }
     ((s 0).live 5 = true ∧ ((s 0).region 5).phase = .thawing ∧ ((s 0).region 5).loadFault = none ∧ ((s 0).region 5).denied = none) ∧
       (s 0).areaIntact 5 = false ∧ (s emptyDigest).areaIntact 5 = true) ∧
    (let s := { thawed false 0 with regions := [(5, { (thawed false 0).region 5 with tiles := [] })] }
     (s.region 5).awaiting = false ∧ (s.region 5).tiles = []) ∧
    ((thawed false emptyDigest).live 5 = true ∧ ((thawed false emptyDigest).region 5).phase = .thawing ∧
      ((thawed false emptyDigest).region 5).tiles ≠ [] ∧ ((thawed false emptyDigest).region 5).loadFault = none ∧
      ((thawed false emptyDigest).region 5).loaded = false ∧ (thawed false emptyDigest).areaIntact 5 = true) ∧
    (thawed false 0).areaIntact 5 = false ∧
    (((thawed true emptyDigest).region 5).loaded = true ∧ (thawed true emptyDigest).areaIntact 5 = true ∧
      ∃ s1, (thawed true emptyDigest).loadImage 5 = (s1, .ok emptyImage) ∧ (s1.region 5).denied = none ∧ s1.live 5 = true) := by
  refine ⟨fun _ _ => readArea_clean 5 rfl, by decide +kernel, by decide +kernel, by decide +kernel, by decide +kernel, by decide +kernel, by decide +kernel,
    answers (by decide +kernel) (by decide +kernel)⟩

/-- A fault record of context 3 and tag 9 that is ready. -/
def aRecord : FaultRec := ⟨3, 0, 0, true, 9, 0x4000, 0, 0, 0, 0, 0, 7, true⟩

/-- The machine with cluster 2 as given and host queue registers for two records. -/
def clustered (x : Cluster) (tail : Nat) : State :=
  { State.reset with clusters := [(2, x)], hostRegs := [(0xE0, 0x9000), (0xE8, 2), (0xF0, 5)], fqTail := tail }

theorem wit_FaultSteps :
    (let x := ((clustered { Cluster.idle with records := [aRecord] } 0).cluster 2)
     (∃ r ∈ x.records, r.ready = true) ∧ ∃ r ∈ x.records, r.tag = 9) ∧
    (let s := clustered { Cluster.idle with outbox := [aRecord] } 6
     (s.cluster 2).outbox = [aRecord] ∧ s.fqTail - (s.hostReg 0xF0).toNat < (s.hostReg 0xE8).toNat) ∧
    (let s := clustered { Cluster.idle with outbox := [aRecord] } 7
     (s.cluster 2).outbox = [aRecord] ∧ (s.hostReg 0xE8).toNat ≤ s.fqTail - (s.hostReg 0xF0).toNat) ∧
    (let s := clustered { Cluster.idle with records := [aRecord] } 0
     let w : Word := 0x0003000000200009
     (w.extractLsb' 48 16 = 3 ∧ w.toNat / 2 ^ 20 % 2 ^ 12 = 2 ∧ w.toNat % 2 ^ 20 = 9 ∧ w.extractLsb' 32 16 = s.genOf 3 ∧
       (s.cluster 2).records = [aRecord] ∧ aRecord.ctx = 3 ∧ aRecord.tag = 9 ∧ aRecord.flushGen = (0x700000000 : Word).extractLsb' 32 32 ∧
       (0x700000000 : Word).toNat % 2 ^ 32 = 0 ∧ (s.cluster 2).waiting = [] ∧ s.overQuota 3 = false) ∧
     (0x0003000100200009 : Word).extractLsb' 32 16 ≠ s.genOf 3 ∧ aRecord.flushGen ≠ (0x800000000 : Word).extractLsb' 32 32 ∧
     ∀ r ∈ (s.cluster 1).records, r.ctx ≠ 3) := by
  refine ⟨?_, ?_, ?_, ?_, ?_, ?_, ?_⟩ <;> decide

/-- A running region 1 of a context with or without debug, whose logical tile 0 is tile 0. -/
def debugged (on : Bool) (x : Tile) : State :=
  { inRegion { Region.idle with tiles := [0] } x with contexts := [(0, some ⟨0, 0, 0, 0, 0, [], on, 0, [], none⟩)] }

theorem wit_DebugSteps :
    (let s := debugged true (Tile.idle.setStrand 3 { Strand.idle 3 with kstatus := 0x9800 })
     (s.live 1 = true ∧ s.context (s.region 1).info.ctx = some ⟨0, 0, 0, 0, 0, [], true, 0, [], none⟩) ∧ (s.region 1).saved = [] ∧
       (s.region 1).awaiting = false ∧ (s.region 1).tiles[0]? = some 0 ∧ (s.strandOf 0 3).hold ≠ .stashing ∧
       (s.strandOf 0 3).kstatus.getLsbD 15 = true ∧ (s.strandOf 0 2).kstatus.getLsbD 15 = false) ∧
    (let s := debugged false Tile.idle
     s.live 1 = true ∧ s.context (s.region 1).info.ctx = some ⟨0, 0, 0, 0, 0, [], false, 0, [], none⟩ ∧ s.live 2 = false) ∧
    (let s := debugged true (queueTile (.output 1) [tok 9 false false])
     (s.tile 0).queue (3 : BitVec 5).toNat = .output 1 ∧ (s.tile 0).port 1 = tok 9 false false :: []) ∧
    (let s := debugged true ((queueTile (.output 1) [tok 9 false false]).setStrand 0 { Strand.idle 0 with kstatus := 0x8000 })
     s.live 1 = true ∧ (s.strandOf 0 0).kstatus.getLsbD 15 = true ∧ (s.tile 0).queue 3 = .output 1 ∧ (s.tile 0).port 1 = tok 9 false false :: []) := by
  refine ⟨?_, ?_, ?_, ?_⟩ <;> decide

theorem wit_GridSteps :
    (let s := { launchable Distributor.idle with toRetire := [(191, .gridRetired)] }
     s.toRetire = (191, .gridRetired) :: [] ∧ s.enabled 191 = false) ∧
    (let s := { launchable Distributor.idle with toRetire := [(0, .gridRetired)] }
     s.enabled 0 = true ∧ s.retiresColumn .gridRetired = true ∧ s.committingIn true 0 = false ∧ s.bandRegions true 0 = [] ∧ s.retireFrozen = []) ∧
    (let s := { launchable { Distributor.idle with placing := some ⟨[aLaunch], 1, [⟨5, 0, 0, [0], []⟩], true, false⟩ } with toRetire := [(0, .gridRetired)] }
     s.enabled 0 = true ∧ s.committingIn (s.retiresColumn .gridRetired) 0 = true) ∧
    (let s := { launchable Distributor.idle with toRetire := [(0, .fabricFatal)], colCount := [(0, 22)], rowCount := [(0, 28)] }
     s.enabled 0 = true ∧ s.retiresColumn .fabricFatal = false ∧ s.committingIn false 0 = false ∧ s.bandRegions false 0 = [] ∧ s.retireFrozen = []) ∧
    (let s := { launchable Distributor.idle with
       toRetire := [(0, .gridRetired)]
       regions := [(5, { Region.idle with info := aLaunch, phase := .running, tiles := [1] })] }
     s.enabled 0 = true ∧ s.committingIn (s.retiresColumn .gridRetired) 0 = false ∧ s.bandRegions (s.retiresColumn .gridRetired) 0 = [5] ∧
       (s.region 5).phase = .running) := by
  refine ⟨?_, ?_, ?_, ?_, ?_⟩ <;> decide +kernel

/-- The machine after reset with optical port 35 as given and a topology word. -/
def linked (x : OptPort) (topo : Word) : State := { State.reset with links := [(35, x)], ktopo := topo }

/-- An opened lease of port 35 that ends at 11 microseconds. -/
def aLease (p : LeasePhase) : Lease := ⟨35, 7, 10, 11000, p, 0, false, false⟩

theorem wit_LinkSteps :
    (∀ c, c < 16 → (linked OptPort.idle 0 |>.optPort 35).retired.getLsbD c = false) ∧
    (35 < 36 ∧ (linked { OptPort.idle with state := 2 } 0 |>.optPort 35).state ≠ 0) ∧
    (let k : TxPacket := ⟨false, 0, 7, 1, [1, 2, 3], false⟩
     let s := { linked { OptPort.idle with txq := [k] } 0 with bootstat := 0x300 }
     (s.optPort 35).state = 0 ∧ (s.optPort 35).retired = 0 ∧ 3 ≤ s.bootStage ∧ (s.optPort 35).txq = [k] ∧ k.bulk = false ∧ k.payload.length ≤ 2 ^ 20 ∧
       State.reset.bootStage < 3) ∧
    (State.reset.lease 9 = none) ∧
    (∀ p ∈ [LeasePhase.localOnly, .peerOnly, .opened, .draining], ({ State.reset with leases := [(9, some (aLease p))] } : State).lease 9 = some (aLease p) ∧
      (aLease p).phase = p ∧ (aLease p).port = 35 ∧ (aLease p).peer = 7 ∧ (aLease p).peer ≠ 8 ∧
      ({ State.reset with time := 11000 } : State).time ≥ (aLease p).expiry ∧ State.reset.time < (aLease p).expiry) ∧
    (let s := { State.reset with ktopo := 0x100030002 }
     (s.ktopo.getLsbD 32 = true ∧ s.shadowVer = 3) ∧ s.shoots = [] ∧ s.links = [] ∧ State.reset.ktopo.getLsbD 32 = false) ∧
    (∀ n, n < 8 → ∀ g ∈ [true, false],
      (linked { OptPort.idle with topo := some ⟨none, [], none, 3, g, n⟩ } 0x100030002 |>.optPort 35).topo = some ⟨none, [], none, 3, g, n⟩ ∧
        (n < 7 ∨ 7 ≤ n)) ∧
    (let k : Shoot := ⟨⟨0, false, 0, 16384⟩, [7, 8], [], 0⟩
     let s := { State.reset with shoots := [(1, some k)], unreachable := [7] }
     s.shootOf 1 = some k ∧ 7 ∈ k.asked ∧ s.unreachable.contains 7 = true ∧ (∀ e ∈ s.shoots, e.2 = some k) ∧ k.removing = []) ∧
    (∀ b : Bool, let k : Shoot := ⟨⟨0, false, 0, 16384⟩, [7, 8], [], 0⟩
     let s := { State.reset with
       shoots := [(1, some k)]
       contexts := [(0, some ⟨0, if b then 0x100000 else 0x1000000100000, 0, 0, 0, [], false, 0, [], none⟩)] }
     s.shoots = [(1, some k)] ∧ 7 ∈ k.asked ∧ s.unreachable.contains 7 = false ∧ k.removing = [] ∧ s.isHome k.range.ctx = b ∧ s.links = [] ∧
       tabGet [] s.pendingShoot 7 = []) := by
  refine ⟨?_, ?_, ?_, ?_, ?_, ?_, ?_, ?_, ?_⟩ <;> decide

/-- A packet of one flit of class LS with a topology version, or of a circuit, and its CRC-32. -/
def lsWord (v : Nat) : Word := BitVec.ofNat 64 (v * 2 ^ 48 + 2 ^ 47)
def flitCrc (w0 w1 : Word) : BitVec 32 := crc32 (natLe 8 w0.toNat ++ natLe 8 w1.toNat ++ List.replicate 64 0)

theorem wit_LinkSteps_packets :
    (let s := linked { OptPort.idle with state := 2, fails := [(15, 1)], rxSeq := 5 } 0x100030002
     let x := s.optPort 35
     (x.state = 2 ∧ 1 ≤ tabGet 0 x.fails 15 ∧ tabGet 0 x.fails 14 = 0 ∧ x.rxWait = [] ∧ x.rxSeq < 6 ∧ 4 < x.rxSeq ∧ 5 = x.rxSeq ∧ x.txq = [] ∧
       s.ktopo.getLsbD 32 = true ∧ s.topoVer = 2 ∧ s.shadowVer = 3 ∧ (linked x 2).ktopo.getLsbD 32 = false) ∧
     (∀ v ∈ [2, 3, 4], (lsWord v).getLsbD 46 = false ∧ (lsWord v).getLsbD 47 = true ∧ (lsWord v).extractLsb' 48 16 = BitVec.ofNat 16 v ∧
       64 = 64 * ((lsWord v).toNat % 2 ^ 14 + 1) ∧ ~~~(flitCrc (lsWord v) 0) ≠ flitCrc (lsWord v) 0)) ∧
    (let w0 : Word := 9 * 2 ^ 14
     let s := { linked { OptPort.idle with state := 2 } 2 with leases := [(9, some (aLease .closed))] }
     w0.getLsbD 47 = false ∧ s.lease (w0.extractLsb' 14 16) = some (aLease .closed)) ∧
    (∀ l : List Byte, Config.lsRequest l = false ∨ Config.lsRequest l = true) ∧
    (∀ l : List Byte, Config.nackFor l = none ∨ ∃ t i, Config.nackFor l = some (t, i) ∧
      (({ running Tile.idle with tiles := [(t, (running Tile.idle).tile 0)] } : State).tile t).bound.isSome = true) := by
  refine ⟨?_, ?_, fun l => by cases Config.lsRequest l <;> simp, fun l => ?_⟩
  · decide +kernel
  · decide +kernel
  · rcases h : Config.nackFor l with _ | ⟨t, i⟩
    · exact .inl rfl
    · exact .inr ⟨t, i, rfl, by simp [State.tile, tabGet, running, inRegion]⟩

/-- The machine after reset with words in the command window. -/
def commanded (ws : List Word) : State :=
  { State.reset with dist := { Distributor.idle with command := (upFrom 0 ws.length).map fun n => (n, nth 0 ws n) } }

/-- The words of a command lie within its named bits. -/
def named (ws m : List Word) : Bool := (upFrom 0 7).all fun n => nth 0 ws n &&& ~~~(nth 0 m n) == 0

theorem named_says {ws m : List Word} (h : named ws m = true) :
    ∀ n, n < 7 → tabGet 0 (commanded ws).dist.command n &&& ~~~(nth 0 m n) = 0 := by
  have get : ∀ (l : List Nat) (n : Nat), tabGet 0 (l.map fun n => (n, nth (0 : Word) ws n)) n = if n ∈ l then nth 0 ws n else 0 := by
    intro l n
    induction l with
    | nil => rfl
    | cons k l ih =>
      simp only [List.map_cons, tabGet, ih, List.mem_cons]
      by_cases hk : k = n
      · simp [hk]
      · have : ¬ n = k := fun e => hk e.symm
        simp [hk, this]
  have mem : ∀ n, n < 7 → n ∈ upFrom 0 7 := by decide
  intro n hn
  simp only [named, List.all_eq_true, beq_iff_eq] at h
  show tabGet 0 ((upFrom 0 ws.length).map fun n => (n, nth (0 : Word) ws n)) n &&& _ = 0
  rw [get]
  split
  · exact h n (mem n hn)
  · simp

theorem wit_HostCommands :
    (named [0x10000] [0xFFFF] = false ∧ named [5, 0x4000, 9] [0xFFFF, 0xFFFFFFFFFFFFFF, 0xFFFFFFFFFF] = true ∧
      named [5, 0x4001, 9] [0xFFFF, 0xFFFFFFFFFFFFFF, 0xFFFFFFFFFF] = true ∧ (0x4001 : BitVec 56).toNat % 16384 ≠ 0 ∧
      (0x4000 : BitVec 56).toNat % 16384 = 0 ∧ (commanded [5, 0x4000, 9]).context 5 = none) ∧
    (let s := { commanded [0x3050005, 0x4000, 0x1000] with contexts := [(5, some ⟨0xFFFF, 0, 0, 0, 0, [], false, 0, [], none⟩)] }
     s.context 5 = some ⟨0xFFFF, 0, 0, 0, 0, [], false, 0, [], none⟩ ∧ s.regionsOf 5 = [] ∧ (s.weights 5).reserved = none ∧ ((s.weights 5).slot 3).version = 0 ∧
       named [0x3050005, 0x4000, 0x1000] [0x33FFFFF, 0xFFFFFFFFFFFFFF, 0xFFFFFFFFFFFFFFFF] = true ∧ named [5] [0xFFFF] = true ∧
       named [0x10005] [0x1FFFF] = true ∧ named [5, 0, 9] [0xFFFF, 0, 0xFFFFFFFFFF] = true ∧ (0x1000 : Word).toNat % 4096 = 0 ∧
       (0x3050005 : Word).toNat / 2 ^ 16 % 64 = 5 ∧ (0x3050005 : Word).toNat / 2 ^ 24 % 4 = 3 ∧
       named [5, 0x4000, 0x1000] [0xFFFF, 0xFFFFFFFFFFFFFF, 0xFFFFFFFFFFFFFFFF] = true) ∧
    (named [0x100000000] [0xFFFFFFFF00000000] = true ∧ (commanded [0x100000000]).live 1 = false ∧
      (inRegion Region.idle Tile.idle).live 1 = true ∧ ((inRegion Region.idle Tile.idle).region 1).phase = .running ∧
      (loading { Region.idle with phase := .frozen }).live 5 = true ∧ ((loading { Region.idle with phase := .frozen }).region 5).phase = .frozen ∧
      ((loading { Region.idle with phase := .frozen }).region 5).awaiting = false ∧
      ((loading { Region.idle with phase := .frozen, awaiting := true }).region 5).awaiting = true) ∧
    (named [0x230009, 7, 10] [0x3FFFFF, 0xFFFF, 0xFFFFFFFF] = true ∧ (0x230009 : Word).toNat / 2 ^ 16 % 64 = 35 ∧ (commanded [0x230009, 7, 10]).lease 9 = none ∧
      ((aLease .peerOnly).phase = .peerOnly ∧ (aLease .peerOnly).port = 35 ∧ (aLease .peerOnly).peer = 7) ∧
      (State.reset.time < (aLease .peerOnly).expiry ∧ (aLease .peerOnly).expiry ≤ ({ State.reset with time := 11000 } : State).time) ∧
      named [9, 0, 10] [0xFFFF, 0, 0xFFFFFFFF] = true ∧ (aLease .opened).phase = .opened ∧
      (aLease .peerOnly).peer ≠ 8 ∧ (∀ t ∈ [10000, 10999], (aLease .opened).expiry ≤ t + 100 * (aLease .opened).durationUs ∧ t < (aLease .opened).expiry) ∧
      9999 + 100 * (aLease .opened).durationUs < (aLease .opened).expiry) ∧
    (named [0x201, 0, 0] [0xFF03, 0xFFFFFFFFFFFFFFFF, 0xFFFFFFFFFFFFFFFF] = true ∧ (0x201 : Word).toNat % 4 < 2 ∧
      named [2, 64, 16] [0xFF03, 0xFFFFFFFFFFFFFFFF, 0xFFFFFFFFFFFFFFFF] = true ∧ (2 : Word).toNat % 4 = 2 ∧ (2 : Word).toNat / 2 ^ 8 % 2 ^ 8 = 0 ∧
      (let s (n : Nat) : State := { State.reset with links := (upFrom 0 n).map fun k => (k, { OptPort.idle with topo := some ⟨none, [], none, 0, false, 0⟩ }) }
       (∀ q, q < 24 → ((s q).optPort q).topo = none ∧ ∀ k, k < q → ((s q).optPort k).topo ≠ none) ∧ ∀ q, q < 24 → ((s 24).optPort q).topo ≠ none)) ∧
    (named [0x123] [0x13F] = true ∧ (0x123 : Word).toNat % 64 = 35 ∧ named [0x124] [0x13F] = true ∧ 36 ≤ (0x124 : Word).toNat % 64 ∧
      (0x123 : Word).getLsbD 8 = true ∧ 4 ≤ (colours ((linked { OptPort.idle with state := 2, tx := 0x5555, rx := 0xAAAA } 0).optPort 35).tx).length ∧
      4 ≤ (colours ((linked { OptPort.idle with state := 2, tx := 0x5555, rx := 0xAAAA } 0).optPort 35).rx).length) ∧
    (named [1, 2, 3, 4] [0xFFFFFFFFFFFFFFFF, 0xFFFFFFFFFFFFFFFF, 0xFFFFFFFFFFFFFFFF, 0xFFFFFFFFFFFFFFFF] = true ∧
      named [1, 64, 0] [1, 0xFFFFFFFFFFFFFFFF, 0xFFFFFFFFFFFFFFFF] = true ∧ (64 : Word).toNat % 64 = 0 ∧
      (2 : BitVec 2).getLsbD 1 = true ∧ (2 : BitVec 2).getLsbD 0 = false ∧
      shaValue (readBytes State.reset.hostMem 64 0) = 0x55b852781b9995a44c939b64e441ae2724b96f99c8f4fb9a141cfc9842c4b0e3) := by
  refine ⟨?_, ?_, ?_, ?_, ?_, ?_, ?_⟩ <;> decide +kernel

theorem wit_HostSteps :
    (∀ n ∈ [0, 31, 32],
      let s := { State.reset with hostRegs := [(0xC8, 2)], eqTail := 2, events := [(4, ⟨0, List.replicate n [1, 2], 0⟩)] }
      s.eventSpace = false ∧ (tabGet EventSource.idle s.events 4).buffer.length = n ∧ (n < 32 ∨ 32 ≤ n)) ∧
    (let s := { State.reset with hostRegs := [(0xC8, 2)], eqTail := 1, events := [(4, ⟨0, [[1, 2]], 0⟩)] }
     s.eventSpace = true ∧ s.events = [(4, ⟨0, [[1, 2]], 0⟩)] ∧ (tabGet EventSource.idle s.events 5).buffer = []) ∧
    (let i : BootInput :=
       { moduleNumber := 0, fabricAddr := 0, domain := [0], m184 := false, rootKeyOk := true, firmwareOk := true, mapASigned := true, mapBSigned := true
         flashA := none, flashB := none, tokenOk := true, listAOk := true, listBOk := true, romDigest := 0, firmwareDigest := 0, tokenDigest := 0
         listDigest := 0, fusedMap := emptyDigest, defects := [], offCols := [], offRows := [], selfTestFails := [] }
     let a := i.flashA.getD (tabGet [] State.reset.flash 0)
     i.rootKeyOk = true ∧ i.firmwareOk = true ∧ i.m184 = false ∧ i.mapASigned = true ∧ shaValue a = i.fusedMap ∧ i.listAOk = true ∧
       tabGet [] State.reset.retireCopies 0 = [] ∧ i.offCols = [] ∧ i.offRows = [] ∧ i.selfTestFails = [] ∧
       ({ i with rootKeyOk := false } : BootInput).rootKeyOk = false ∧ ({ i with firmwareOk := false } : BootInput).firmwareOk = false ∧
       ({ i with mapASigned := false } : BootInput).mapASigned = false ∧ ({ i with mapBSigned := false } : BootInput).mapBSigned = false ∧
       ({ i with listAOk := false, listBOk := false } : BootInput).listBOk = false ∧
       (let s := { State.reset with retireCopies := [(0, [⟨0, 7, List.replicate 6 23⟩])] }
        (tabGet [] s.retireCopies 0).map (·.axis) = [0])) ∧
    (let s := { State.reset with posted := [(1, [(0x4000, [7])])] }
     s.posted = [(1, [(0x4000, [7])])] ∧ (1 < 2) ∧ State.reset.posted = []) ∧
    (∀ n, n < 8 → State.reset.acceptWritten.getLsbD n = false ∧ (0xFF : BitVec 8).getLsbD n = true) ∧
    (State.reset.bootStage < 7 ∧ 7 ≤ ({ State.reset with bootstat := 0x700 } : State).bootStage) ∧
    (State.reset.attestState ≠ 1 ∧ (let s := { State.reset with attestState := 1 }
      s.attestState = 1 ∧ s.attestAgain = false)) ∧
    (105 ≤ 105 ∧ 95 ≤ 104 ∧ 94 < 95 ∧ 600 < State.reset.clockMHz ∧ ({ State.reset with clockMHz := 600 } : State).clockMHz ≤ 600) := by
  refine ⟨?_, ?_, ?_, ?_, ?_, ?_, ?_, ?_⟩ <;> decide +kernel

/-- A word to be fetched with the features f accepted. -/
def fetching (f : BitVec 256) (w : Nat) : State := { State.reset.withFetchWord 64 w with accepted := f }

theorem wit_StepRunsDecodedWord :
    (let s := fetching 0 0x0080820000000001
     Claims.Runs s ∧ Claims.GuardHolds s s.word ∧ ¬ Claims.Unaccepted s s.word ∧ decode s.word = .ok (.addI 4 4 1)) ∧
    (let s := fetching 0 0x00C0820000000001
     Claims.Runs s ∧ ¬ Claims.GuardHolds s s.word) ∧
    (let s := fetching 0 0xA800828000000000
     Claims.Runs s ∧ Claims.GuardHolds s s.word ∧ Claims.Unaccepted s s.word) ∧
    (let s := fetching 4 0xA800828000000000
     Claims.Runs s ∧ Claims.GuardHolds s s.word ∧ ¬ Claims.Unaccepted s s.word ∧ decode s.word = .ok (.iload 4 5)) ∧
    (let s := fetching 0 0xFF80000000000000
     Claims.Runs s ∧ Claims.GuardHolds s s.word ∧ ¬ Claims.Unaccepted s s.word ∧ decode s.word = .illegalOpcode) ∧
    (let s := fetching 0 0x0000820800000001
     Claims.Runs s ∧ Claims.GuardHolds s s.word ∧ ¬ Claims.Unaccepted s s.word ∧ decode s.word = .reservedField) ∧
    (let s := fetching 0 0x1000620A00E00000
     Claims.Runs s ∧ Claims.GuardHolds s s.word ∧ ¬ Claims.Unaccepted s s.word ∧ decode s.word = .illegalModifier) := by
  unfold Claims.Runs Claims.GuardHolds Claims.Unaccepted; refine ⟨?_, ?_, ?_, ?_, ?_, ?_, ?_⟩ <;> simp only [] <;> decide

theorem wit_StepTurns :
    (let s := { State.reset with evTurn := true, agenda := [.launchIntake] }
     s.evTurn = true ∧ s.agenda = .launchIntake :: []) ∧
    (State.reset.evTurn = false ∧ State.reset.agenda = [] ∧ State.reset.active State.reset.cur.tile = false) ∧
    (let s := running Tile.idle
     s.powered = true ∧ s.active s.cur.tile = true ∧ s.curStrand.halted = false ∧ s.curStrand.isFiring = false ∧ s.evTurn = false) ∧
    (let s := running (Tile.idle.setStrand 0 { Strand.idle 0 with kstatus := 0x2000, firing := some aFiring, deferred := [⟨.pageFault, 5⟩] })
     s.active s.cur.tile = true ∧ s.curStrand.isFiring = true ∧ s.curStrand.deferred ≠ [] ∧ s.curStrand.hold = .none) := by decide

theorem wit_EncodeDecode :
    wellFormed (.addI 4 4 1) = true ∧ encode ⟨false, 0⟩ (.addI 4 4 1) = some 0x0080820000000001 ∧
    decode 0x2450A28800000000 = .ok (.faddF32 5 5 4 .rne) := by decide

theorem wit_MemoryStaysCanonical : State.reset.MemOk ∧ ∃ t, step State.reset = .next t := ⟨⟨by decide, by decide⟩, _, rfl⟩

theorem wit_RegistersHold : (63 : BitVec 6) ≠ 0 ∧ (7 : BitVec 3) ≠ 0 ∧ (1 : Nat) ≠ State.reset.cur.tile ∧ (3 : Fin 4) ≠ State.reset.cur.strand := by
  decide

end Sys2Proof.Tests
end

/-! # Control transfer (O9): R94, R130, R131

A transfer has two ends, stated once for every instruction that transfers: an index of the instruction store, where the strand
goes on, and a target outside it, which traps. The rest is the arithmetic of a target. -/
namespace Sys2Proof.Claims
open Sys2Proof.Machine

/-! ## Where a strand goes on that has retired an instruction -/

/-- The strand of the model's own law is the statements' one: KSTATUS bit 15 is HALTED, set when SSTEP is (R342). -/
theorem moved_eq_wentTo (x : Strand) (pc : BitVec 13) : x.moved pc = wentTo x pc := by
  unfold Strand.moved Strand.stepHalt Strand.sstep wentTo goneOn
  dsimp only
  split <;> rfl

theorem wentTo_next (x : Strand) : wentTo x (x.pc + 1) = goneOn x := by
  unfold wentTo goneOn
  split <;> rfl

theorem goTo_eq_wentTo (s : State) (pc : BitVec 13) : s.goTo pc = s.setCur (wentTo s.curStrand pc) := by
  rw [State.goTo_eq, moved_eq_wentTo]

theorem retire_eq_passed (s : State) (h : s.curStrand.pc ≠ 8191) : retire s = passed s := by
  rw [retire_eq s h, moved_eq_wentTo, wentTo_next]
  rfl

/-- R94: sequential flow, and its end at the last index. -/
theorem retireRule : RetireRule := fun s => ⟨retire_eq_passed s, retire_last s⟩

theorem issue_done (s : State) (h : s.curStrand.pc ≠ 8191) : issue s [] (.done s) = .next (passed s) := by
  rw [issue_eq s [] _ rfl, finish, retire_eq_passed s h]

/-! ## The two ends of a transfer -/

theorem free_nil (s : State) : Free s [] := fun _ h => absurd h List.not_mem_nil

theorem holdsAny_of_free {s : State} {rs : List (BitVec 6)} (h : Free s rs) : s.curStrand.holdsAny rs = false := by
  simpa [Strand.holdsAny, Free] using h

/-- A target in the instruction store: the strand goes on there. `s` is the state with the link written. -/
theorem issue_transfer_inside {s0 s : State} {rs : List (BitVec 6)} {target : Word} (hf : Free s0 rs) (ht : target.toNat ≤ 8191) :
    issue s0 rs (transfer s0 s target) = .next (s.setCur (wentTo s.curStrand (target.truncate 13))) := by
  rw [issue_eq s0 rs _ (holdsAny_of_free hf), transfer, if_pos ht, finish, goTo_eq_wentTo]

/-- A target outside the instruction store: the trap is taken at the instruction, in the state without the link. -/
theorem issue_transfer_outside {s0 s : State} {rs : List (BitVec 6)} {target : Word} (hf : Free s0 rs) (ht : 8191 < target.toNat) :
    issue s0 rs (transfer s0 s target) = .next (takeTrap s0 .branchRange target s0.curStrand.pc) := by
  rw [issue_eq s0 rs _ (holdsAny_of_free hf), transfer, if_neg (by omega), finish]

/-! ## The target of a branch-shape instruction -/

/-- The index that a branch names: PC plus its offset, in the integers (R94). -/
def branchIndex (s : State) (off : BitVec 32) : Int := (s.curStrand.pc.toNat : Int) + off.toInt

/-- The index lies in the instruction store. -/
def BranchInside (s : State) (off : BitVec 32) : Prop := 0 ≤ branchIndex s off ∧ branchIndex s off ≤ 8191

/-- The model adds words; the sum is the index as a word. -/
theorem branchTarget_eq_ofInt (s : State) (off : BitVec 32) : branchTarget s off = BitVec.ofInt 64 (branchIndex s off) := by
  have hpc : s.pcWord = BitVec.ofInt 64 (s.curStrand.pc.toNat : Int) := by
    rw [BitVec.ofInt_natCast, BitVec.ofNat_toNat]; rfl
  have hoff : sx32 off = BitVec.ofInt 64 off.toInt := rfl
  rw [branchTarget, hpc, hoff, ← BitVec.ofInt_add, branchIndex]

/-- An index outside the store does not wrap into it: PC and the offset are short beside a word. -/
theorem branchTarget_toNat_le_iff (s : State) (off : BitVec 32) : (branchTarget s off).toNat ≤ 8191 ↔ BranchInside s off := by
  have hlow : -2 ^ 31 ≤ off.toInt := BitVec.le_toInt off
  have hhigh : off.toInt < 2 ^ 31 := BitVec.toInt_lt
  have hpc : s.curStrand.pc.toNat < 2 ^ 13 := s.curStrand.pc.isLt
  rw [branchTarget_eq_ofInt, BitVec.toNat_ofInt, BranchInside, branchIndex]
  omega

theorem branchTarget_truncate (s : State) (off : BitVec 32) :
    (branchTarget s off).truncate 13 = BitVec.ofInt 13 (branchIndex s off) := by
  rw [branchTarget_eq_ofInt]
  apply BitVec.eq_of_toNat_eq
  simp only [BitVec.truncate_eq_setWidth, BitVec.toNat_setWidth, BitVec.toNat_ofInt]
  omega

/-- A branch-shape instruction whose index lies in the store goes on there. -/
theorem issue_branch_inside {s0 s : State} {rs : List (BitVec 6)} {off : BitVec 32} (hf : Free s0 rs) (hi : BranchInside s0 off) :
    issue s0 rs (transfer s0 s (branchTarget s0 off)) =
      .next (s.setCur (wentTo s.curStrand (BitVec.ofInt 13 (branchIndex s0 off)))) := by
  rw [issue_transfer_inside hf ((branchTarget_toNat_le_iff s0 off).mpr hi), branchTarget_truncate]

/-- A branch-shape instruction whose index lies outside the store traps with it. -/
theorem issue_branch_outside {s0 s : State} {rs : List (BitVec 6)} {off : BitVec 32} (hf : Free s0 rs) (hi : ¬ BranchInside s0 off) :
    issue s0 rs (transfer s0 s (branchTarget s0 off)) =
      .next (takeTrap s0 .branchRange (BitVec.ofInt 64 (branchIndex s0 off)) s0.curStrand.pc) := by
  have ht : 8191 < (branchTarget s0 off).toNat := Nat.lt_of_not_le fun h => hi ((branchTarget_toNat_le_iff s0 off).mp h)
  rw [issue_transfer_outside hf ht, branchTarget_eq_ofInt]

/-! ## The link of CALL and JMPR -/

/-- The issuing strand with the next index in its link register (R131). -/
def linked (s : State) (d : BitVec 6) : Strand := s.curStrand.wg d (BitVec.ofNat 64 (s.curStrand.pc.toNat + 1))

theorem link_eq_linked (s : State) (d : BitVec 6) : s.curStrand.wg d (s.pcWord + 1) = linked s d := by
  rw [linked, BitVec.ofNat_add, BitVec.ofNat_toNat]
  rfl

/-! ## The instructions -/

theorem br_inside {s : State} {off : BitVec 32} (hint : Bool) (hi : BranchInside s off) :
    exec (.br hint off) s = .next (s.setCur (wentTo s.curStrand (BitVec.ofInt 13 (branchIndex s off)))) :=
  issue_branch_inside (free_nil s) hi

theorem br_outside {s : State} {off : BitVec 32} (hint : Bool) (hi : ¬ BranchInside s off) :
    exec (.br hint off) s = .next (takeTrap s .branchRange (BitVec.ofInt 64 (branchIndex s off)) s.curStrand.pc) :=
  issue_branch_outside (free_nil s) hi

/-- A BRP that transfers is BR (R130). -/
theorem brp_taken {s : State} {p : BitVec 3} {neg : Bool} (hint : Bool) (off : BitVec 32) (hp : s.curStrand.rp p ≠ neg) :
    exec (.brp p neg hint off) s = exec (.br hint off) s := by
  rw [exec_brp, exec_br, execBrp, execBr, if_pos (bne_iff_ne.mpr hp)]

/-- A BRP that does not transfer retires, whatever its target (R94). -/
theorem brp_not_taken {s : State} {p : BitVec 3} {neg : Bool} (hint : Bool) (off : BitVec 32) (hp : s.curStrand.rp p = neg)
    (hpc : s.curStrand.pc ≠ 8191) : exec (.brp p neg hint off) s = .next (passed s) := by
  rw [exec_brp, execBrp, if_neg (by simp [hp]), issue_done s hpc]

theorem call_inside {s : State} {d : BitVec 6} {off : BitVec 32} (hint : Bool) (hf : Free s [d]) (hi : BranchInside s off) :
    exec (.call d hint off) s = .next (s.setCur (wentTo (linked s d) (BitVec.ofInt 13 (branchIndex s off)))) := by
  rw [exec_call, execCall, issue_branch_inside hf hi, link_eq_linked, State.curStrand_setCur, State.setCur_setCur]

theorem call_outside {s : State} {d : BitVec 6} {off : BitVec 32} (hint : Bool) (hf : Free s [d]) (hi : ¬ BranchInside s off) :
    exec (.call d hint off) s = .next (takeTrap s .branchRange (BitVec.ofInt 64 (branchIndex s off)) s.curStrand.pc) :=
  issue_branch_outside hf hi

theorem ret_inside {s : State} {a : BitVec 6} (hf : Free s [a]) (ht : (s.curStrand.rg a).toNat ≤ 8191) :
    exec (.ret a) s = .next (s.setCur (wentTo s.curStrand (BitVec.ofNat 13 (s.curStrand.rg a).toNat))) := by
  rw [exec_ret, execRet, issue_transfer_inside hf ht, BitVec.ofNat_toNat, BitVec.truncate_eq_setWidth]

theorem ret_outside {s : State} {a : BitVec 6} (hf : Free s [a]) (ht : 8191 < (s.curStrand.rg a).toNat) :
    exec (.ret a) s = .next (takeTrap s .branchRange (s.curStrand.rg a) s.curStrand.pc) :=
  issue_transfer_outside hf ht

/-- The index of JMPR is read before its link is written. -/
theorem jmpr_inside {s : State} {d a : BitVec 6} (hf : Free s [d, a]) (ht : (s.curStrand.rg a).toNat ≤ 8191) :
    exec (.jmpr d a) s = .next (s.setCur (wentTo (linked s d) (BitVec.ofNat 13 (s.curStrand.rg a).toNat))) := by
  rw [exec_jmpr, execJmpr, issue_transfer_inside hf ht, link_eq_linked, State.curStrand_setCur, State.setCur_setCur,
    BitVec.ofNat_toNat, BitVec.truncate_eq_setWidth]

theorem jmpr_outside {s : State} {d a : BitVec 6} (hf : Free s [d, a]) (ht : 8191 < (s.curStrand.rg a).toNat) :
    exec (.jmpr d a) s = .next (takeTrap s .branchRange (s.curStrand.rg a) s.curStrand.pc) :=
  issue_transfer_outside hf ht

/-- R94, R130, R131: every branch and jump, and YIELD. -/
theorem branches : Branches := by
  intro s hint neg p d a off
  exact ⟨br_inside hint, br_outside hint,
    fun hp hi => (brp_taken hint off hp).trans (br_inside hint hi),
    fun hp hi => (brp_taken hint off hp).trans (br_outside hint hi),
    brp_not_taken hint off, call_inside hint, call_outside hint, ret_inside, ret_outside, jmpr_inside, jmpr_outside,
    issue_done s⟩

/-- Settles O9: sequential flow, and the two ends of every transfer. -/
theorem controlFlow : Obligations.ControlFlow := ⟨retireRule, branches⟩

end Sys2Proof.Claims

/-! # Division (O1): R122

DIV and REM differ in their value alone: `quotient` and `remainder` say what it is, `endDiv` how the instruction ends. The
register and the immediate forms are the same with another divisor. -/
namespace Sys2Proof.Claims
open Sys2Proof.Machine

/-! ## The value -/

section
variable {x y : Word}

theorem quotient_zero (sg : Bool) (x : Word) : quotient sg x 0 = 0xFFFFFFFFFFFFFFFF := rfl

theorem remainder_zero (sg : Bool) (x : Word) : remainder sg x 0 = x := rfl

theorem quotient_unsigned (hy : y ≠ 0) : quotient false x y = BitVec.ofNat 64 (x.toNat / y.toNat) := by
  rw [quotient, if_neg hy, if_neg Bool.false_ne_true, BitVec.udiv_def]

theorem remainder_unsigned (hy : y ≠ 0) : remainder false x y = BitVec.ofNat 64 (x.toNat % y.toNat) := by
  rw [remainder, if_neg hy, if_neg Bool.false_ne_true, BitVec.umod_def]

/-- The integer quotient as a word: it wraps for the most negative number by -1 and fits otherwise. -/
theorem quotient_signed (hy : y ≠ 0) : quotient true x y = BitVec.ofInt 64 (x.toInt.tdiv y.toInt) := by
  rw [quotient, if_neg hy, if_pos rfl]
  apply BitVec.eq_of_toInt_eq
  rw [BitVec.toInt_sdiv, BitVec.toInt_ofInt]

theorem remainder_signed (hy : y ≠ 0) : remainder true x y = BitVec.ofInt 64 (x.toInt.tmod y.toInt) := by
  rw [remainder, if_neg hy, if_pos rfl, ← BitVec.toInt_srem, BitVec.ofInt_toInt]

end

/-! ## The end -/

section
variable {s : State} {rs : List (BitVec 6)} {y : Word}

/-- A ready instruction that replaces the issuing strand, keeping its PC, retires with it. -/
theorem issue_done_setCur {x : Strand} (hr : Ready s rs) (hpc : x.pc = s.curStrand.pc) :
    issue s rs (.done (s.setCur x)) = .next (became s x) := by
  obtain ⟨hf, hlast⟩ := hr
  rw [issue_eq s rs _ (holdsAny_of_free hf), finish, retire_eq_passed _ (by simpa [hpc] using hlast), passed, became, became,
    State.curStrand_setCur, State.setCur_setCur]

/-- Without a zero divisor under DZT the result is written and the instruction retires. -/
theorem endDiv_retires (hr : Ready s rs) (h : ¬ (y = 0 ∧ s.curStrand.dzt = true)) (d : BitVec 6) (r x : Word) :
    endDiv d rs r x y s = .next (wrote s d r) := by
  rw [endDiv, if_neg h, issue_done_setCur hr (Strand.wg_pc _ _ _), wrote]

/-- The trap of a zero divisor: the result is written, KTVAL is the dividend, KEPC the next index. -/
theorem endDiv_traps (hf : Free s rs) (hz : s.curStrand.dzt = true) (d : BitVec 6) (r x : Word) :
    endDiv d rs r x 0 s =
      .next (takeTrap (s.setCur { s.curStrand.wg d r with hold := .none }) .divZero x (s.curStrand.pc + 1)) := by
  rw [endDiv, if_pos ⟨rfl, hz⟩, issue_eq s rs _ (holdsAny_of_free hf), finish, State.curStrand_setCur, State.setCur_setCur,
    Strand.wg_pc]

/-! ## The three clauses of R122, for any divisor -/

theorem division_by_nonzero (hr : Ready s rs) (hy : y ≠ 0) (d : BitVec 6) (x : Word) :
    endDiv d rs (quotient false x y) x y s = .next (wrote s d (BitVec.ofNat 64 (x.toNat / y.toNat))) ∧
    endDiv d rs (quotient true x y) x y s = .next (wrote s d (BitVec.ofInt 64 (x.toInt.tdiv y.toInt))) ∧
    endDiv d rs (remainder false x y) x y s = .next (wrote s d (BitVec.ofNat 64 (x.toNat % y.toNat))) ∧
    endDiv d rs (remainder true x y) x y s = .next (wrote s d (BitVec.ofInt 64 (x.toInt.tmod y.toInt))) := by
  have hend := endDiv_retires hr (fun h => hy h.1) d
  refine ⟨?_, ?_, ?_, ?_⟩
  · rw [hend, quotient_unsigned hy]
  · rw [hend, quotient_signed hy]
  · rw [hend, remainder_unsigned hy]
  · rw [hend, remainder_signed hy]

theorem division_by_zero_retires (hr : Ready s rs) (hy : y = 0) (hz : s.curStrand.dzt = false) (d : BitVec 6) (x : Word)
    (sg : Bool) :
    endDiv d rs (quotient sg x y) x y s = .next (wrote s d 0xFFFFFFFFFFFFFFFF) ∧
    endDiv d rs (remainder sg x y) x y s = .next (wrote s d x) := by
  have hend := endDiv_retires (y := y) hr (fun h => Bool.false_ne_true (hz.symm.trans h.2)) d
  subst hy
  exact ⟨by rw [hend, quotient_zero], by rw [hend, remainder_zero]⟩

theorem division_by_zero_traps (hr : Ready s rs) (hy : y = 0) (hz : s.curStrand.dzt = true) (d : BitVec 6) (x : Word)
    (sg : Bool) :
    endDiv d rs (quotient sg x y) x y s = .next (takeTrap (s.setCur
      { s.curStrand.wg d 0xFFFFFFFFFFFFFFFF with hold := .none }) .divZero x (s.curStrand.pc + 1)) ∧
    endDiv d rs (remainder sg x y) x y s = .next (takeTrap (s.setCur
      { s.curStrand.wg d x with hold := .none }) .divZero x (s.curStrand.pc + 1)) := by
  have hend := endDiv_traps hr.1 hz d
  subst hy
  exact ⟨by rw [hend, quotient_zero], by rw [hend, remainder_zero]⟩

end

/-! ## The divisor of the immediate forms -/

theorem toInt_sx32 (imm : BitVec 32) : (sx32 imm).toInt = imm.toInt :=
  BitVec.toInt_signExtend_of_le (by decide)

theorem sx32_eq_zero_iff (imm : BitVec 32) : sx32 imm = 0 ↔ imm = 0 := by
  rw [← BitVec.toInt_inj, ← BitVec.toInt_inj, toInt_sx32]
  rfl

/-- Settles O1: the three clauses, with the divisor in a register and in the instruction. -/
theorem divisionResults : Obligations.DivisionResults := by
  intro s d a b imm x trapped
  constructor
  · intro hr y
    exact ⟨fun hy => division_by_nonzero hr hy d x, fun hy hz => division_by_zero_retires hr hy hz d x,
      fun hy hz => division_by_zero_traps hr hy hz d x⟩
  · intro hr y
    have hzero : y = 0 ↔ imm = 0 := sx32_eq_zero_iff imm
    rw [← toInt_sx32 imm]
    exact ⟨fun hi => division_by_nonzero hr (mt hzero.mp hi) d x,
      fun hi hz => division_by_zero_retires hr (hzero.mpr hi) hz d x,
      fun hi hz => division_by_zero_traps hr (hzero.mpr hi) hz d x⟩

end Sys2Proof.Claims
